-- ==== Sys2Proof/Word.lean ====
section
/-! DEFINITION. The word types of the Iraiz set-up window, fabric addresses and data, and their plainest arithmetic
(00_scope.md, "Bits, fields and byte order"). -/

namespace Sys2Proof

/-- One set-up register, one fabric address, one bus address: 64 bits (R41, "Register access types" of 00_scope.md). -/
abbrev Word := BitVec 64

/-- One byte of data. -/
abbrev Byte := BitVec 8

/-- Sparse data by key: the listed keys differ from what an unlisted key reads as. Its operations stand in
Machine/Table.lean. -/
abbrev Tbl (α : Type) := List (Nat × α)

/-- One of the 48 stands, by its physical index y × 8 + x (R17). -/
abbrev StandId := Fin 48

/-- One of the four planes (R18). -/
abbrev PlaneId := Fin 4

end Sys2Proof
end

