-- ==== Sys2Proof/Syntax.lean ====
section
/-! DEFINITION. The commands of the block: one constructor of `Instr` for each row of spec/opcode_table.json, with
the operands that come from outside the block or that say which unit's step it is (log 8). -/

namespace Sys2Proof

/-- A transfer of a plane-link: stem, payload and PCHECK (R72). -/
structure Frond where
  stem    : BitVec 128
  payload : BitVec 512
  pcheck  : BitVec 16
  deriving DecidableEq, Repr

/-- How the fronds of a message are shaped (R74, R80). -/
inductive Shape where
  | single | ctrl | multi
  deriving DecidableEq, Repr

/-- A whole message: the fields of its stem (R74) and of its header (R77), and its data. `broken` says that its
fronds disagree with LENGTH, that a SEQ differs, or that it ended in an abort tail (R82). `fwd` says that a hub has
forwarded it once (R60): no stem bit carries it, the hub that forwards marks its copy (log 13). -/
structure Msg where
  plane     : PlaneId
  shape     : Shape
  vc        : BitVec 3
  colour    : BitVec 2
  express   : Bool
  tenant    : BitVec 16
  dest      : Word
  src       : BitVec 26
  op        : BitVec 4
  chan      : BitVec 12
  seq       : BitVec 16
  len       : BitVec 13
  unit      : BitVec 3
  delivered : Bool
  impl      : Bool
  replay    : Bool
  openFl    : Bool
  pstand    : BitVec 6
  exit      : BitVec 2
  w         : BitVec 8
  data      : List Byte
  broken    : Bool
  fwd       : Bool := false
  epoch     : Bool := false
  asks      : Bool := false
  deriving DecidableEq, Repr

/-- A unit that sends sequenced messages (R77 UNIT, R112). -/
inductive SrcUnit where
  | port (k : StandId) | mover (k : StandId) | hostAgent | reducer (k : StandId) | hub (k : StandId) | trace
  deriving DecidableEq, Repr

/-- The unit that accepts a descriptor: the host agent for the ring of a tenant entry, or a core port (R150). -/
inductive Acceptor where
  | ring (n : Fin 4096) | port (k : StandId)
  deriving DecidableEq, Repr

/-- The key of a receive-table entry (R114). -/
structure FlowKey where
  src   : BitVec 26
  unit  : BitVec 3
  impl  : Bool
  chan  : BitVec 12
  plane : PlaneId
  deriving DecidableEq, Repr

/-- A transport acknowledgement as it reaches a source unit (R116, R147): reason 0 ACK, 1 GAP, 2 NO_FLOW, 3 BUSY. -/
structure AckMsg where
  impl   : Bool
  chan   : BitVec 12
  e      : BitVec 16
  reason : BitVec 2
  mask   : BitVec 32
  deriving DecidableEq, Repr

/-- An event as its detector raises it (R406, R407). -/
structure Ev where
  family : Fin 16
  cause  : Fin 16
  loc    : BitVec 7
  sub    : BitVec 8
  detail : Word
  deriving DecidableEq, Repr

/-- A doorbell access: a write or a read through HA_* at a bus address, or a fabric write to space 3 (R42, R169, R500). -/
inductive DbAccess where
  | ha (addr : Word) (size : Nat) (v : Word)
  | haRead (addr : Word) (size : Nat)
  | fabric (page : Fin 4096) (byte : BitVec 12) (tenant : BitVec 16) (size : Nat) (v : Word)
  deriving DecidableEq, Repr

/-- A work item of a COPY or FILL as an executor receives it (R155, R156): its descriptor, its place in the
descriptor's range of `total` bytes, its own bytes, addresses and pattern. -/
structure WorkItem where
  desc    : Nat
  off     : Nat
  len     : Nat
  total   : Nat
  src     : Word
  dst     : Word
  fill    : Option Word
  tenant  : BitVec 16
  express : Bool
  deliv   : Bool
  yellow  : Bool
  deriving DecidableEq, Repr

/-- A request message on a core port's RQ channel (R347, R348): the fields of its header, the number of beats it came
in and the bytes used in the last, and its data. `resv` says that a reserved bit or byte of the header is not 0. -/
structure RqMsg where
  kind    : BitVec 8
  deliv   : Bool
  plane   : PlaneId
  opx     : BitVec 2
  rkind   : BitVec 2
  len     : BitVec 13
  rid     : BitVec 8
  bar     : BitVec 6
  rlen    : BitVec 13
  addr    : Word
  resv    : Bool
  express : Bool
  beats   : Nat
  nbytes  : Nat
  data    : List Byte
  deriving DecidableEq, Repr

/-- A near-port request (R357). -/
structure NpReq where
  we    : Bool
  addr  : BitVec 14
  be    : BitVec 32
  wdata : BitVec 256
  deriving DecidableEq, Repr

/-- What port A of the dual-port region does in the same collision window (R297): nothing, or it serves a whole
message, whose arrival is then part of the same step. -/
inductive PortA where
  | none
  | msg (m : Msg)
  deriving DecidableEq, Repr

/-- An access to a release word (R184). -/
inductive RelAccess where
  | read | add (v : Word) | other
  deriving DecidableEq, Repr

/-- A unit that a girdle names (R419, R424 KIND). -/
inductive GUnit where
  | stand (s : StandId) | link (n : Fin 328) | port (k : StandId)
  deriving DecidableEq, Repr

/-- A voter of a dormancy round (R339). -/
inductive Voter where
  | stand (s : StandId) | hostAgent | collector
  deriving DecidableEq, Repr

/-- The condition that a hang watchdog finds, as STD_CP_HANG.CHAN codes it (R364, R376). -/
inductive HangCond where
  | rq | tq | dl | tr | nearPort | wake
  deriving DecidableEq, Repr

/-- An Ethernet frame as the MAC hands it over: bytes from the destination address on, without FCS, its true length
with FCS, and the FCS result (R392). -/
structure Frame where
  bytes   : List Byte
  trueLen : Nat
  fcsOk   : Bool
  deriving DecidableEq, Repr

/-- A slot of a bridge module: the tag, the payload, and the stem where its kind has one (R379). -/
structure Slot where
  tag     : BitVec 32
  payload : BitVec 512
  stem    : BitVec 128
  deriving DecidableEq, Repr

/-- What the store makes of an image where the spec gives neither contents nor layout (R457): the pages written to its slot, whether the fixed
sections equal the block's own, whether EQ has one block for each module, and the values of DEFAULTS (log 6). -/
structure ImageFacts where
  pages    : Nat
  fixedOk  : Bool
  eqOk     : Bool
  guardBand : BitVec 8
  dderate  : BitVec 8
  ofs      : BitVec 8
  limits   : Word
  macpfx   : BitVec 24
  etype    : BitVec 16
  deriving DecidableEq, Repr

/-- A slot as stage S2 finds it (R458, R462): its bytes, what they come to, what VERIFY answers, whether every flash access succeeds. -/
structure SlotImage where
  bytes    : List Byte
  facts    : ImageFacts
  sigOk    : Bool
  flashOk  : Bool
  deriving DecidableEq, Repr

/-- A core reset as the fabric half of port `k` meets it: `part` says that an `RQ` message has been partly received then (R367; log 97). -/
structure CoreReset where
  k    : StandId
  part : Bool
  deriving DecidableEq, Repr

/-- What S6 measures at a stand (R452): canary pace and reference pace at the codes 60, 70 and `VMAX`, in units of 0.0001 GHs. -/
structure S6Meas where
  c60  : Nat
  r60  : Nat
  c70  : Nat
  r70  : Nat
  cMax : Nat
  rMax : Nat
  deriving DecidableEq, Repr

/-- What a bring-up stage finds (R439, R441); in S2 `recBad` numbers, from 0, the record writes at which the flash gives an error
(R462); `links` has the bit errors of a plane-link direction at 0.70 V and at 0.68 V (R441), `s6` the stands that had idle windows (R452). -/
structure StageReport where
  railBad  : Option StandId := none
  manuf    : Option (BitVec 12 × BitVec 48) := none
  rec0     : List Byte := []
  rec1     : List Byte := []
  recBad   : List Nat := []
  slotA    : Option SlotImage := none
  slotB    : Option SlotImage := none
  counter  : BitVec 16 := 0
  s3fail   : List (StandId × BitVec 4 × BitVec 2) := []
  links    : List (Fin 328 × Fin 2 × Nat × Nat) := []
  s6       : List (StandId × S6Meas) := []
  elapsed  : Nat := 0
  deriving DecidableEq, Repr

/-- What a stand's canary block measures (R450, R453). -/
structure Canary where
  pace : BitVec 8
  vfab : BitVec 8
  vslc : BitVec 8
  tj   : BitVec 8
  deriving DecidableEq, Repr

/-- The commands. Every constructor names its row of spec/opcode_table.json in LAWS.json. A row that is a register
write of its own takes the 64-bit value written (low word, then high word: R13). -/
inductive Instr where
  -- the management port and the resets
  | registerWrite (a : BitVec 22) (data : BitVec 32)
  | lowWordRead (a : BitVec 22)
  | rcRegisterRead (a : BitVec 22)
  | mgRstNAssert
  | fabPorstNAssert
  | fabPorstNRelease
  -- bring-up
  | bringupStageReport (r : StageReport)
  | s1LivenessDeadline
  | memoryTestTierReport (fails : List (StandId × Fin 34))
  | memoryTestRetentionPauseEnd
  | bupNotifyEnable (v : Word)
  -- addresses
  | glbSelfWrite (v : Word)
  | tierMapStagedWrite (tier : Fin 4) (n : Fin 1024) (v : Word)
  | coppiceWrite (n : Fin 1536) (v : Word)
  | rehomeCommandReceive (st : StandId) (n : Fin 1536) (v : Word)
  -- planes
  | frondReceive (st : StandId) (pl : PlaneId) (inp : Fin 6) (f : Frond)
  | creditAuditCounts (st : StandId) (pl : PlaneId) (inp : Fin 6) (counts : BitVec 32)
  | creditReturn (st : StandId) (pl : PlaneId) (outp : Fin 6) (vc : Fin 8)
  | outputArbitrate (st : StandId) (pl : PlaneId) (outp : Fin 6)
  | stdRouteWrite (st : StandId) (d : StandId) (v : Word)
  | glbExitWrite (n : Fin 45) (v : Word)
  | stallDetect (st : StandId) (pl : PlaneId) (inp : Fin 6) (vc : Fin 8)
  -- route epochs
  | epochSwitchRequest (v : Word)
  | flipReceive (st : StandId)
  | flipAck (st : StandId)
  | epochDrainComplete
  | epochDrainTimeout
  | epochCopyComplete
  -- transport
  | messageArrival (st : StandId) (m : Msg)
  | ackTimer (st : StandId) (key : FlowKey)
  | transportAckReceive (u : SrcUnit) (a : AckMsg)
  | responseReceive (u : SrcUnit) (m : Msg)
  | retransmitTimeout (u : SrcUnit) (impl : Bool) (chan : BitVec 12)
  | messageTimeout (u : SrcUnit) (impl : Bool) (chan : BitVec 12)
  | implicitSlotFree (u : SrcUnit)
  -- tenants
  | tenantAdmit (tag : BitVec 16)
  | tenantRetire (n : Fin 4096)
  | tenantPeek (n : Fin 4096)
  | tenantShapeWrite (n : Fin 4096) (v : Word)
  | tenantPoliceWrite (n : Fin 4096) (v : Word)
  | corePortBindWrite (st : StandId) (v : Word)
  | dpZeroComplete (st : StandId)
  | shareMapWrite (v : Word)
  | shaperDispatch (a : Acceptor)
  -- rings, descriptors and channels
  | sqTailDoorbell (d : DbAccess)
  | cqHeadDoorbell (d : DbAccess)
  | doorbellBaseWrite (v : Word)
  | descriptorFetch (n : Fin 4096)
  | descriptorAccept (a : Acceptor)
  | copy (a : Acceptor)
  | fill (a : Acceptor)
  | send (a : Acceptor)
  | mcast (a : Acceptor)
  | allsum (a : Acceptor)
  | signal (a : Acceptor)
  | wait (a : Acceptor)
  | mark (a : Acceptor)
  | atomic (a : Acceptor)
  | fence (a : Acceptor)
  | group (a : Acceptor)
  | arm (a : Acceptor)
  | armDisarm (a : Acceptor)
  | fenceRelease (a : Acceptor)
  | groupRunResume (g : Fin 64)
  | workItemReceive (ex : SrcUnit) (w : WorkItem)
  | holdingRecordWrite
  | ringOpen (n : Fin 4096)
  | ringClose (n : Fin 4096)
  | ringPeek (n : Fin 4096)
  | channelSlotWrite (st : StandId) (j : Fin 128) (word : Fin 4) (v : Word)
  | releaseWordAccess (st : StandId) (j : Fin 128) (tenant : BitVec 16) (acc : RelAccess)
  -- multicast and combining queues
  | chainWrite (c : Fin 64) (v : Word)
  | memberSlotWrite (st : StandId) (j : Fin 16) (word : Fin 2) (v : Word)
  | mcastDispatch (c : Fin 64)
  | mcastReceive (st : StandId) (m : Msg)
  | mcastReportReceive (st : Option StandId) (c : Fin 64) (bits : BitVec 128)
  | mcastReportTimeout (st : Option StandId) (c : Fin 64)
  | combiningQueueWrite (st : StandId) (j : Fin 8) (word : Fin 4) (v : Word)
  | contributionReceive (st : StandId) (m : Msg)
  | landingWriteComplete (st : StandId) (j : Fin 8)
  | combiningTimeout (st : StandId) (j : Fin 8)
  -- reductions
  | reducerTestArm (st : StandId) (v : Word)
  | tileReceive (st : StandId) (m : Msg)
  | triggerReceive (st : StandId) (g : Fin 64)
  | stageMessageReceive (st : StandId) (m : Msg)
  | allsumLossWaitExpiry (st : StandId) (g : Fin 64) (seg : Nat) (share : Nat) (stage : Fin 6)
  | allsumResultAbandon (st : StandId) (g : Fin 64) (seg : Nat)
  -- slices
  | nearPortAccess (st : StandId) (r : NpReq) (a : PortA)
  | bankHandover (st : StandId) (b : Fin 34) (v : Word)
  | bankRetWrite (st : StandId) (b : Fin 34) (v : Word)
  | bankWipeComplete (st : StandId) (b : Fin 34)
  | bankRetentionEntered (st : StandId) (b : Fin 34)
  | bankWakeComplete (st : StandId) (b : Fin 34)
  | twinFillComplete (n : Fin 1536)
  | scrubRead (st : StandId)
  | sliceModeWrite (st : StandId) (v : Word)
  | rawRead (st : StandId) (v : Word)
  | rawWrite (st : StandId) (v : Word)
  -- sync objects, barriers and dormancy
  | syncObjectWrite (n : Fin 4096) (v : Word)
  | syncControlWrite (n : Fin 4096) (v : Word)
  | signalApply (n : Fin 4096) (inc : BitVec 32)
  | watchRegister (a : Acceptor)
  | watchReport (a : Acceptor)
  | watchRelease (a : Acceptor)
  | waitTimeout (a : Acceptor)
  | waitPoll (a : Acceptor)
  | barrierRewrite (b : Fin 64) (word : Fin 2) (v : Word)
  | barrierArrival (k : StandId) (r : RqMsg)
  | barrierTimeout (b : Fin 64)
  | sidebandUpdateReceive (e : Fin 4) (x : Option Byte) (y : Byte)
  | sidebandResend
  | sidebandLoss (e : Fin 4)
  | dormancyNow (v : Word)
  | dormancyWakeWrite (v : Word)
  | dormancyIdleExpiry
  | dormancyProposeReceive (w : Voter)
  | dormancyVote (w : Voter) (round : Nat) (yes : Bool)
  | dormancyVoteTimeout
  | dormancyCommit (st : StandId)
  | dormancyEntryComplete
  | dormancyExitStart
  | dormancyExitComplete
  -- core ports
  | corePortDesc (k : StandId) (r : RqMsg)
  | corePortWrite (k : StandId) (r : RqMsg)
  | corePortRead (k : StandId) (r : RqMsg)
  | corePortAtomic (k : StandId) (r : RqMsg)
  | corePortSignal (k : StandId) (r : RqMsg)
  | corePortReduce (k : StandId) (r : RqMsg)
  | wakeAck (k : StandId)
  | targetRequestReceive (st : StandId) (m : Msg)
  | trAnswer (st : StandId) (tid : BitVec 8) (status : BitVec 16) (data : List Byte)
  | hangDetect (k : StandId) (c : HangCond)
  | coreResetAssert (r : CoreReset)
  | coreResetRelease (k : StandId)
  | portFabricReset (k : StandId) (v : Word)
  | resyncAck (k : StandId)
  | resyncTimeout (k : StandId)
  -- bridge edges
  | edgeRetrain (e : Fin 4) (v : Word)
  | modulePhyUp (e : Fin 4) (m : Fin 16) (x64at32 : Bool)
  | moduleTrainFail (e : Fin 4) (m : Fin 16)
  | moduleTrainRetry (e : Fin 4) (m : Fin 16)
  | helloSend (e : Fin 4) (m : Fin 16)
  | helloReceive (e : Fin 4) (m : Fin 16) (link : List Byte)
  | helloTimeout (e : Fin 4) (m : Fin 16)
  | moduleRecalStart (e : Fin 4) (m : Fin 16)
  | moduleRecalDone (e : Fin 4) (m : Fin 16)
  | moduleRecalTimeout (e : Fin 4) (m : Fin 16)
  | bridgeSlotReceive (e : Fin 4) (m : Fin 16) (s : Slot)
  | bridgeAuditReceive (e : Fin 4) (m : Fin 16) (link : List Byte)
  -- hall ports
  | hallLinkUp (h : Fin 8)
  | hallLinkDown (h : Fin 8)
  | hallPortEnableWrite (h : Fin 8) (v : Word)
  | hallOpen (h : Fin 8) (f : Frame)
  | hallOpenAck (h : Fin 8) (f : Frame)
  | hallData (h : Fin 8) (f : Frame)
  | hallAck (h : Fin 8) (f : Frame)
  | hallRefuse (h : Fin 8) (f : Frame)
  | hallSkip (h : Fin 8) (f : Frame)
  | hallContextOpen (h : Fin 8) (peer : BitVec 48)
  | hallOpenTimeout (h : Fin 8) (peer : BitVec 48)
  | hallContextIdle (h : Fin 8) (peer : BitVec 48)
  | hallUnseqRetry (h : Fin 8) (peer : BitVec 48)
  | hallRetransmitTimeout (h : Fin 8) (peer : BitVec 48) (lseq : BitVec 32)
  | hallSkipResend (h : Fin 8) (peer : BitVec 48)
  | hallAckTimer (h : Fin 8) (peer : BitVec 48)
  -- faults and healing
  | faultEvent (e : Option Ev)
  | mergeWindowClose (family : Fin 16) (cause : Fin 16) (loc : BitVec 7) (sub : BitVec 8)
  | eventRingWrite
  | eventPop
  | eventRingEnable (v : Word)
  | eventRingHeadWrite (v : Word)
  | faultClassWrite (f : Fin 13) (c : Fin 16) (v : Word)
  | girdle (reg : Fin 8) (v : Word)
  | girdleRelease (reg : Fin 8) (v : Word)
  | girdleApply (st : StandId) (u : GUnit)
  | standRetestComplete (st : StandId) (failed : Option (BitVec 4 × BitVec 2)) (bankFails : List (Fin 34))
  | livenessMessage (st : StandId) (from_ : StandId)
  | nodeLinkSilence (st : StandId) (dir : Fin 4)
  | reroute
  | twinConfirm (st : StandId)
  | contingencyDataWrite (v : Word)
  | contingencyKeyWrite (n : Fin 64) (v : Word)
  | heartbeatTick
  | cruisePatternSend (n : Fin 328) (dir : Fin 2)
  | cruisePatternReceive (n : Fin 328) (dir : Fin 2) (payload : BitVec 512)
  | reducerSelfcheck (st : StandId) (badLanes : BitVec 128)
  -- pace and supply
  | paceStep (readings : List (StandId × Canary))
  | pwrDroopWarnAssert
  | droopHandlingEnd
  | thermalThreshold (st : StandId) (tj : BitVec 8)
  | brownout (st : StandId)
  -- table sets
  | tableWrite (slot : Fin 2) (page : Fin 1024)
  | tableRead (slot : Fin 2) (page : Fin 1024)
  | tableVerify (slot : Fin 2)
  | tableActivate (slot : Fin 2)
  | tableConfirm (slot : Fin 2)
  | tableErase (slot : Fin 2)
  | secAck (result : BitVec 2) (words : List (BitVec 32)) (facts : ImageFacts)
  -- tallies, trace and dumps
  | tallySnapshot (v : Word)
  | traceEnable (v : Word)
  | traceReadPointerWrite (v : Word)
  | traceRecordReceive (srcu : BitVec 8)
  | traceStagingFlush
  | dumpGo (v : Word)
  | dumpFreeze (area : Fin 49)
  | dumpCaptureComplete
  | dumpDataRead
  -- rows that the table lists last
  | mgRstNRelease
  | pwrDroopWarnDeassert
  | hostMemoryReadCompletion (tag : Nat) (data : List Byte)
  | dlMessageTaken (k : StandId)
  | memoryTestMarchComplete
  | livenessSend (st : StandId)
  deriving DecidableEq, Repr

end Sys2Proof
end

