-- ==== Sys2Proof/Config.lean ====
section
/-! DEFINITION. What the spec leaves open: free values (constants without a body, so that nothing can be proved of
their value) and the choices of one implementation. Each is named in a row of notes/assumptions/. -/

namespace Sys2Proof

/-- A free byte: the contents the spec calls undefined (a POISON answer, R290; a FREE bank, R301; a near-port read
under a collision, R297; a range that lost a TIMEOUT, R187). Applied to the counter State.free (log 4). -/
opaque Config.freeByte : Nat → BitVec 8

/-- A free 32-bit value: count, target and flags of a sync object after its stand leaves a girdle (R324) (log 4). -/
opaque Config.freeWord32 : Nat → BitVec 32

/-- The power of the primitive root that is the first of the four consecutive roots of the slice code's generator, and whether data byte 0
is its lowest coefficient. R288 gives the code's field, length and distance, and leaves these open (log 6). -/
opaque Config.rsFirst : Fin 255
opaque Config.rsRising : Bool

/-- What the decoder makes of a word with three or more bytes in error, which R288 lets it detect, correct wrongly or miss: 0 no error
found, 1 one byte corrected, 2 and 3 uncorrectable (log 6). -/
opaque Config.eccClass : List (BitVec 8) → BitVec 32 → Fin 4

/-- The byte lane that the decoder corrects, 0..31 data and 32..35 check, and the corrected byte (log 6). -/
opaque Config.eccFix : List (BitVec 8) → BitVec 32 → Fin 36 × BitVec 8

/-- The data bytes of the poison marker, and its syndrome. R289 calls the marker a fixed pattern that no code word equals, and does not give
it (log 6). -/
opaque Config.poisonData : Fin 32 → BitVec 8
opaque Config.poisonSyndrome : BitVec 32

/-- What a word of a bank holds once `VDD_SLC` has fallen below 0.50 V (R456): its 36 symbols, by the number of the loss, the word of the bank and the
symbol (log 122). -/
opaque Config.lostSymbol : Nat → Nat → Nat → BitVec 8

/-- Which of the voltages of its test the request stands at, by TIME: the march of S5 at 0.70, 0.75 and 0.80 V on `VDD_SLC` (R444), and the
points of S6 on `VDD_FAB` (R452). Neither rule says when the next begins (log 123). -/
opaque Config.testPoint : Nat → Fin 3

/-- How long, in ns, a tenant, ring or raw command that starts at a moment shows `DONE` 0. R126 and R316 bound it by 1 µs and give no
value (log 18). Applied to TIME. -/
opaque Config.cmdTime : Nat → Nat

/-- `SMAP` of a group's record on another die, by that die's upper coordinates, the group and its `GEPOCH`. R246 lets it differ from die to
die, and no register or message of this die tells it (log 17). -/
opaque Config.farSmap : Nat → Nat → Nat → BitVec 48

/-- The n-th word of the SHA-384 digest of a table set image (R457, R459): FIPS 180-4, which the spec names and does not set out (log 6). -/
opaque Config.sha384 : List (BitVec 8) → Nat → BitVec 32

end Sys2Proof
end

