-- ==== Sys2Proof/Machine/Bits.lean ====
section
/-! DEFINITION. Bit fields of registers and structures, byte order and the check codes that several chapters share
(00_scope.md, "Bits, fields and byte order"; R72, R151). -/

namespace Sys2Proof.Machine

/-- The field of `len` bits from bit `lo` upward, as a number: NAME[lo+len-1:lo]. -/
def fld {n : Nat} (w : BitVec n) (lo len : Nat) : Nat := (w.toNat >>> lo) % 2 ^ len

/-- The bit NAME[i]. -/
def bitAt {n : Nat} (w : BitVec n) (i : Nat) : Bool := w.toNat.testBit i

/-- The mask of the field of `len` bits from bit `lo` upward. -/
def mask (lo len : Nat) : Word := BitVec.ofNat 64 ((2 ^ len - 1) <<< lo)

/-- A register holding `v` in the field of `len` bits from `lo`, all else 0. -/
def mk (lo len v : Nat) : Word := BitVec.ofNat 64 ((v % 2 ^ len) <<< lo)

/-- A register holding the single bit `i`. -/
def mkBit (i : Nat) (b : Bool) : Word := if b then BitVec.ofNat 64 (2 ^ i) else 0

/-- `old` with the bits of `m` taken from `new`. -/
def merge (m old new : Word) : Word := (old &&& ~~~m) ||| (new &&& m)

/-- `w` with the field of `len` bits from `lo` set to `v`. -/
def put (lo len v : Nat) (w : Word) : Word := merge (mask lo len) w (mk lo len v)

/-- Set bit `i` of a bit vector to `b`. -/
def setBit {n : Nat} (w : BitVec n) (i : Nat) (b : Bool) : BitVec n :=
  if b then w ||| BitVec.ofNat n (2 ^ i) else w &&& ~~~ (BitVec.ofNat n (2 ^ i))

/-- The bits set in `w`, counted. -/
def popcount {n : Nat} (w : BitVec n) : Nat := ((List.range n).filter (bitAt w)).length

/-- The indices of the bits set in `w`, rising. -/
def bitsSet {n : Nat} (w : BitVec n) : List Nat := (List.range n).filter (bitAt w)

/-- `n` bytes of `v`, little-endian. -/
def leBytes : Nat → Nat → List Byte
  | 0, _ => []
  | n + 1, v => BitVec.ofNat 8 v :: leBytes n (v / 256)

/-- The number that little-endian bytes hold. -/
def leNat : List Byte → Nat
  | [] => 0
  | b :: r => b.toNat + 256 * leNat r

/-- The number that big-endian bytes hold. -/
def beNat (l : List Byte) : Nat := leNat l.reverse

/-- `n` bytes of `v`, big-endian (network order of a hall frame). -/
def beBytes (n v : Nat) : List Byte := (leBytes n v).reverse

/-- Bytes `off` to `off + n - 1` of a structure, 0 where it is shorter. -/
def sub (l : List Byte) (off n : Nat) : List Byte :=
  let t := (l.drop off).take n
  t ++ List.replicate (n - t.length) 0

/-- The little-endian field of `n` bytes at byte `off` of a structure. -/
def leAt (l : List Byte) (off n : Nat) : Nat := leNat (sub l off n)

/-- The byte at `off` of a structure. -/
def byteAt (l : List Byte) (off : Nat) : Byte := l.getD off 0

/-- A list of bytes as one little-endian bit vector. -/
def bytesBv (n : Nat) (l : List Byte) : BitVec n := BitVec.ofNat n (leNat l)

/-- A non-reflected CRC of width `w`, shifting bits in most significant first. -/
def crcStep (w poly crc : Nat) (b : Bool) : Nat :=
  let top := crc.testBit (w - 1)
  let sh := (crc <<< 1) % 2 ^ w
  if (top != b) then sh ^^^ poly else sh

/-- The bits of `v`, `n` of them, most significant first. -/
def msbBits (n v : Nat) : List Bool := ((List.range n).map v.testBit).reverse

/-- The stem CHECK: CRC-8, x^8 + x^2 + x + 1, initial value 0xFF, over stem bits [127:8], most significant first (R72). -/
def crc8 (stem : BitVec 128) : Nat := (msbBits 120 (fld stem 8 120)).foldl (crcStep 8 0x07) 0xFF

/-- `PCHECK`: CRC-16, x^16 + x^12 + x^5 + 1, initial value 0xFFFF, over payload bytes 0 to 63 in order (R72). -/
def crc16 (payload : List Byte) : Nat :=
  payload.foldl (fun c b => (msbBits 8 b.toNat).foldl (crcStep 16 0x1021) c) 0xFFFF

/-- One bit of the reflected CRC-32C. -/
def crc32cBit (crc : Nat) : Nat := if crc.testBit 0 then (crc >>> 1) ^^^ 0x82F63B78 else crc >>> 1

/-- One byte of the reflected CRC-32C. -/
def crc32cByte (crc : Nat) (b : Byte) : Nat :=
  (List.range 8).foldl (fun c _ => crc32cBit c) (crc ^^^ b.toNat)

/-- CRC-32C of RFC 3720: reflected, initial value and final XOR 0xFFFFFFFF (R151). -/
def crc32c (l : List Byte) : Nat := (l.foldl crc32cByte 0xFFFFFFFF) ^^^ 0xFFFFFFFF

/-- An unsigned counter of `w` bits that saturates. -/
def satAdd (w a b : Nat) : Nat := min (2 ^ w - 1) (a + b)

/-- Two's complement of `w` bits: the signed number that `v` holds. -/
def toSigned (w v : Nat) : Int := if v % 2 ^ w < 2 ^ (w - 1) then ((v % 2 ^ w : Nat) : Int) else ((v % 2 ^ w : Nat) : Int) - (2 ^ w : Nat)

/-- Two's complement of `w` bits: the encoding of a signed number, modulo 2^w. -/
def ofSigned (w : Nat) (i : Int) : Nat := (i % (2 ^ w : Nat)).toNat

/-- A stand's column (R17). -/
def sx (s : Nat) : Nat := s % 8

/-- A stand's row (R17). -/
def sy (s : Nat) : Nat := s / 8

/-- A stand from a number, modulo 48: callers give numbers below 48. -/
def standOf (n : Nat) : StandId := ⟨n % 48, Nat.mod_lt _ (by decide)⟩

/-- A plane from a number, modulo 4. -/
def planeOf (n : Nat) : PlaneId := ⟨n % 4, Nat.mod_lt _ (by decide)⟩

/-- Mesh hops between two stands, x and y distances added (R59, "Nearer"). -/
def hops (a b : Nat) : Nat :=
  let d (p q : Nat) := (p - q) + (q - p)
  d (sx a) (sx b) + d (sy a) (sy b)

/-- The stands of the mesh, by physical index. -/
def stands : List StandId := List.finRange 48

/-- The four planes. -/
def planes : List PlaneId := List.finRange 4

end Sys2Proof.Machine
end

