-- ==== Sys2Proof/Machine/Codes.lean ====
section
/-! DEFINITION. The names the spec gives its codes: status codes (R189), operation classes (R74), virtual channels
(R83), fault families and causes (R406). -/

namespace Sys2Proof.Machine

/-- The shared list of status codes (R189). -/
inductive Status where
  | ok | okZeroLen | okTruncated
  | lenRange | addrRange | owner | notReady | rateExceeded | tenantFull | badDesc | collide
  | poison | remoteWriteFault | memberLost | residueErr | portReset | timeout | partialMcast | capacity
  | fabricDown
  deriving DecidableEq, Repr

/-- The 16-bit code of a status (R189). -/
def statusCode : Status → Nat
  | .ok => 0x0000 | .okZeroLen => 0x0001 | .okTruncated => 0x0002
  | .lenRange => 0x0100 | .addrRange => 0x0101 | .owner => 0x0102 | .notReady => 0x0103 | .rateExceeded => 0x0104
  | .tenantFull => 0x0105 | .badDesc => 0x0106 | .collide => 0x0107
  | .poison => 0x0200 | .remoteWriteFault => 0x0201 | .memberLost => 0x0202 | .residueErr => 0x0203
  | .portReset => 0x0204 | .timeout => 0x0205 | .partialMcast => 0x0206 | .capacity => 0x0207
  | .fabricDown => 0x0300

/-- Every status, in the order of R189. -/
def allStatus : List Status :=
  [.ok, .okZeroLen, .okTruncated, .lenRange, .addrRange, .owner, .notReady, .rateExceeded, .tenantFull, .badDesc,
   .collide, .poison, .remoteWriteFault, .memberLost, .residueErr, .portReset, .timeout, .partialMcast, .capacity,
   .fabricDown]

/-- `STATUS_W`: [7:6] the code's high byte, [5:0] its low byte (R78). -/
def statusW (s : Status) : BitVec 8 := BitVec.ofNat 8 ((statusCode s / 256) * 64 + statusCode s % 64)

/-- The status that a `STATUS_W` or code names; a code that the list does not hold reads as OK. -/
def statusOfCode (c : Nat) : Status := (allStatus.find? (fun s => statusCode s == c)).getD .ok

/-- The status in `STATUS_W` (R78). -/
def statusOfW (w : BitVec 8) : Status := statusOfCode ((w.toNat / 64) * 256 + w.toNat % 64)

/-- Operation classes of a stem (R74). -/
def opWrite : BitVec 4 := 0
def opReadReq : BitVec 4 := 1
def opReadRsp : BitVec 4 := 2
def opAtomic : BitVec 4 := 3
def opSignal : BitVec 4 := 4
def opReduce : BitVec 4 := 5
def opMcast : BitVec 4 := 6
def opCtrl : BitVec 4 := 7

/-- Virtual channels (R83). -/
def vcReq : BitVec 3 := 0
def vcRsp : BitVec 3 := 1
def vcSkid : BitVec 3 := 2
def vcReduceUp : BitVec 3 := 3
def vcBcastDown : BitVec 3 := 4
def vcSpill : BitVec 3 := 5
def vcBackground : BitVec 3 := 6
def vcHall : BitVec 3 := 7

/-- Source units of a message header (R77). -/
def unitPort : BitVec 3 := 0
def unitMover : BitVec 3 := 1
def unitHost : BitVec 3 := 2
def unitReducer : BitVec 3 := 3
def unitHub : BitVec 3 := 4
def unitTrace : BitVec 3 := 5

/-- A family and cause of R406. -/
structure Cause where
  family : Fin 16
  cause  : Fin 16
  deriving DecidableEq, Repr

/-- The causes of R406, by their names. -/
def cStemCrc : Cause := ⟨0, 0⟩
def cPayloadCrc : Cause := ⟨0, 1⟩
def cFlush : Cause := ⟨0, 2⟩
def cGirdleDiscard : Cause := ⟨0, 3⟩
def cCruise : Cause := ⟨0, 4⟩
def cReservedValue : Cause := ⟨1, 0⟩
def cNoExit : Cause := ⟨1, 1⟩
def cStall : Cause := ⟨1, 2⟩
def cEpochStuck : Cause := ⟨1, 3⟩
def cSkidDown : Cause := ⟨1, 4⟩
def cStaleCopy : Cause := ⟨1, 5⟩
def cSpill : Cause := ⟨1, 6⟩
def cSpillFull : Cause := ⟨1, 7⟩
def cLength : Cause := ⟨1, 8⟩
def cShortDelivery : Cause := ⟨1, 9⟩
def cContextLost : Cause := ⟨1, 10⟩
def cBarrierBroken : Cause := ⟨1, 11⟩
def cTwinStale : Cause := ⟨1, 12⟩
def cCentreLost : Cause := ⟨1, 13⟩
def cSelftestFail : Cause := ⟨1, 14⟩
def cMsgCheck : Cause := ⟨2, 0⟩
def cNodeLink : Cause := ⟨2, 1⟩
def cSilent : Cause := ⟨2, 2⟩
def cPartition : Cause := ⟨2, 3⟩
def cCeService : Cause := ⟨3, 0⟩
def cCeScrub : Cause := ⟨3, 1⟩
def cTwinRepair : Cause := ⟨3, 2⟩
def cUeService : Cause := ⟨4, 0⟩
def cUeScrub : Cause := ⟨4, 1⟩
def cUeMerge : Cause := ⟨4, 2⟩
def cTwinWriteback : Cause := ⟨4, 3⟩
def cResAdd : Cause := ⟨5, 0⟩
def cResRead : Cause := ⟨5, 1⟩
def cResSelftest : Cause := ⟨5, 2⟩
def cBrgTag : Cause := ⟨6, 0⟩
def cBrgStem : Cause := ⟨6, 1⟩
def cBrgPayload : Cause := ⟨6, 2⟩
def cTrainFail : Cause := ⟨6, 3⟩
def cRetrainTimeout : Cause := ⟨6, 4⟩
def cTopo : Cause := ⟨6, 5⟩
def cSideband : Cause := ⟨6, 6⟩
def cModuleDown : Cause := ⟨6, 7⟩
def cRunt : Cause := ⟨7, 0⟩
def cGiant : Cause := ⟨7, 1⟩
def cFcs : Cause := ⟨7, 2⟩
def cGiveup : Cause := ⟨7, 3⟩
def cReservedVc : Cause := ⟨7, 4⟩
def cLinkDown : Cause := ⟨7, 5⟩
def cDupRid : Cause := ⟨8, 0⟩
def cBadTr : Cause := ⟨8, 1⟩
def cResyncTimeout : Cause := ⟨8, 2⟩
def cWriteRefused : Cause := ⟨9, 0⟩
def cNoSlot : Cause := ⟨9, 1⟩
def cDieMismatch : Cause := ⟨9, 2⟩
def cDeclaration : Cause := ⟨9, 3⟩
def cReleaseOver : Cause := ⟨9, 4⟩
def cMargin : Cause := ⟨10, 0⟩
def cDroop : Cause := ⟨10, 1⟩
def cBelowFloor : Cause := ⟨10, 2⟩
def cBrownout : Cause := ⟨10, 3⟩
def cWarn : Cause := ⟨11, 0⟩
def cCritical : Cause := ⟨11, 1⟩
def cPortHang : Cause := ⟨12, 0⟩

/-- The reset class of a listed cause: 0 CORRECTED, 1 CONTAINED, 2 FATAL; none for a reserved cause (R406). -/
def resetClass (f c : Nat) : Option Nat :=
  match f with
  | 0 => ([0, 0, 1, 0, 0] : List Nat)[c]?
  | 1 => ([1, 1, 1, 1, 0, 0, 0, 1, 1, 1, 1, 1, 1, 2, 1] : List Nat)[c]?
  | 2 => ([0, 1, 1, 2] : List Nat)[c]?
  | 3 => ([0, 0, 0] : List Nat)[c]?
  | 4 => ([1, 1, 1, 1] : List Nat)[c]?
  | 5 => ([1, 1, 1] : List Nat)[c]?
  | 6 => ([0, 0, 0, 1, 1, 1, 0, 0] : List Nat)[c]?
  | 7 => ([0, 0, 0, 0, 1, 1] : List Nat)[c]?
  | 8 => ([1, 1, 1] : List Nat)[c]?
  | 9 => ([1, 1, 1, 1, 1] : List Nat)[c]?
  | 10 => ([0, 0, 1, 2] : List Nat)[c]?
  | 11 => ([0, 2] : List Nat)[c]?
  | 12 => ([1] : List Nat)[c]?
  | _ => none

end Sys2Proof.Machine
end

