-- ==== Sys2Proof/Machine/RegMap.lean ====
section
/-! DEFINITION. The register map of the set-up window (chapter 17): which offsets hold a register, its reset value and
which of its bits a management write or read touches. -/

namespace Sys2Proof.Machine

/-- A register of the map: the bits of type RW (and of WO and W1S bits that have no stored value, none), of type W1C,
of type RC, and the reset value (R11). RO bits are in none of the masks. -/
structure RegInfo where
  rw    : Word := 0
  w1c   : Word := 0
  rc    : Word := 0
  reset : Word := 0
  deriving DecidableEq, Repr

/-- Every bit. -/
def allBits : Word := mask 0 64

/-- The bits of the high word only: what a high-word write alone writes (R13). -/
def highBits : Word := mask 32 32

/-- Base of the stand window of stand `st` (R498). -/
def stdBase (st : StandId) : Nat := 0x20000 + st.val * 0x2000

/-- Offset of the register at `o` in the window of `st`. -/
def stdOff (st : StandId) (o : Nat) : Nat := stdBase st + o

/-- The stand whose window holds `off`, and the offset in it (R498). -/
def standWindow (off : Nat) : Option (StandId × Nat) :=
  if 0x20000 ≤ off ∧ off < 0x80000 then some (standOf ((off - 0x20000) / 0x2000), (off - 0x20000) % 0x2000) else none

/-- The default quanta of R95; v = 2 reads 0 (R493). -/
def vcQuantumReset (v : Nat) : Nat := ([1024, 1024, 0, 2048, 2048, 512, 128, 512] : List Nat).getD v 0

/-- Whether an offset is item `i < n` of an array at `base` with stride `s`. -/
def inArray (off base n s : Nat) : Bool := decide (base ≤ off) && decide (off < base + n * s) && decide ((off - base) % s = 0)

/-- Dimension-order routing, x first: 0 N, 1 E, 2 S, 3 W, 4 LOCAL (R97). -/
def xyPort (st d : Nat) : Nat :=
  if st = d then 4
  else if sx d > sx st then 1 else if sx d < sx st then 3
  else if sy d > sy st then 2 else 0

/-- The reset value of `STD_ROUTE[d]` at stand `st`: XY on every plane (R97). -/
def routeReset (st d : Nat) : Word :=
  let p := xyPort st d
  mk 12 3 p ||| mk 8 3 p ||| mk 4 3 p ||| mk 0 3 p

/-- The ports of a skid entry at reset: NONE (R102). -/
def skidReset : Word := mk 27 3 7 ||| mk 24 3 7 ||| mk 21 3 7 ||| mk 18 3 7

/-- `FLT_ORDER` bits that R417 allows for a family: GIRDLE 1, REROUTE 2, REHOME 3, REPLAY 4, DERATE 5. -/
def orderMask (f : Nat) : Word :=
  let b (i : Nat) := mkBit i true
  match f with
  | 0 => b 1 ||| b 2
  | 1 => b 1 ||| b 2 ||| b 3
  | 2 => b 1 ||| b 2 ||| b 3
  | 3 => b 3
  | 4 => b 3
  | 5 => b 1 ||| b 2 ||| b 3 ||| b 4
  | 6 => b 1 ||| b 2
  | 7 => b 1 ||| b 2
  | 8 => b 1
  | 12 => b 1
  | 10 => b 5
  | 11 => b 5
  | _ => 0

/-- The reset value of `FLT_CLASS[f][c]`: CLASS per R406, CAP 1, N 16, T 1,000,000; FIXED for a FATAL cause; 0 for a
reserved one (R408, R496). -/
def classReset (f c : Nat) : Word :=
  match resetClass f c with
  | none => 0
  | some k => mkBit 62 (k == 2) ||| mk 60 2 k ||| mk 58 2 1 ||| mk 32 16 16 ||| mk 0 32 1000000

/-- Registers of a stand window (R498). -/
def stdReg (st : Nat) (o : Nat) : Option RegInfo :=
  if o = 0 then some { rw := mask 16 16 ||| mask 0 1, reset := mk 16 16 100 }
  else if inArray o 0x100 8 8 then some { rw := mask 0 16, reset := mk 0 16 (vcQuantumReset ((o - 0x100) / 8)) }
  else if inArray o 0x140 16 8 then some { rw := mask 0 16, reset := mk 0 16 512 }
  else if o = 0x1C0 then some { rw := mask 63 1 ||| mask 0 12 }
  else if o = 0x1C8 then some {}
  else if o = 0x1D0 then some { rw := mask 2 1 ||| mask 0 1, reset := mk 0 3 5 }
  else if o = 0x1D8 then some { rc := mask 32 16 ||| mask 0 32 }
  else if o = 0x1E0 then some { w1c := mask 63 1 }
  else if inArray o 0x200 48 8 then some { rw := mask 0 3 ||| mask 4 3 ||| mask 8 3 ||| mask 12 3, reset := routeReset st ((o - 0x200) / 8) }
  else if o = 0x380 then some {}
  else if o = 0x388 then some { rc := mask 16 8, reset := mk 16 8 255 }
  else if inArray o 0x400 16 16 then some { rw := mask 23 41 }
  else if inArray o 0x408 16 16 then some { rw := mask 37 27 ||| mask 16 16 }
  else if inArray o 0x500 8 32 then some { rw := mask 18 46 ||| mask 0 16 }
  else if inArray o 0x508 8 32 then some { rw := allBits }
  else if inArray o 0x510 8 32 then some { rw := mask 5 59 }
  else if inArray o 0x518 8 32 then some {}
  else if o = 0x600 then some { w1c := mask 63 1 }
  else if o = 0x608 then some { rc := mask 32 16 ||| mask 0 32 }
  else if o = 0x610 then some {}
  else if inArray o 0x680 34 8 then some { rw := mask 57 1 ||| mask 52 4 ||| mask 0 16 }
  else if o = 0x7A0 then some { rw := mask 0 2 }
  else if o = 0x7A8 then some { rc := mask 48 16 ||| mask 0 32 }
  else if o = 0x7B0 then some { w1c := mask 63 1 }
  else if o = 0x7B8 then some { rw := mask 63 1 ||| mask 32 12, rc := mask 0 32, reset := mkBit 63 true ||| mk 32 12 60 }
  else if o = 0x7C0 then some { rw := mask 58 2 ||| mask 51 6 ||| mask 0 21, reset := mkBit 63 true }
  else if o = 0x7C8 then some { rw := allBits }
  else if inArray o 0x7D0 4 8 then some { rw := allBits }
  else if o = 0x7F8 then some { rc := allBits }
  else if inArray o 0x800 64 32 then
    some { rw := mask 63 1 ||| mask 60 1 ||| mask 58 2 ||| mask 50 8 ||| mask 18 32, reset := skidReset }
  else if inArray o 0x808 64 32 || inArray o 0x810 64 32 then some { rw := mask 0 48 }
  else if inArray o 0x1000 128 32 then some { rw := mask 49 15 ||| mask 32 16 ||| mask 0 12 }
  else if inArray o 0x1008 128 32 then some { rw := allBits }
  else if inArray o 0x1010 128 32 then some { rw := allBits }
  else if inArray o 0x1018 128 32 then some { rw := mask 21 43 }
  else none

/-- Registers of the `GLB_` region (R494). -/
def glbReg (off : Nat) : Option RegInfo :=
  if off = 0 then some { reset := mk 36 4 8 ||| mk 32 4 4 ||| mk 24 8 48 ||| mk 16 8 0xB1 ||| mk 0 16 0x1E2A }
  else if off = 0x8 then some {}
  else if off = 0x10 then some { rw := mask 63 1 ||| mask 0 20 }
  else if off = 0x18 then some { rw := mask 8 18 }
  else if off = 0x80 || off = 0x88 then some {}
  else if off = 0x100 then some { rw := allBits, reset := 0xFEDCBA9876543210 }
  else if inArray off 0x200 45 8 then some { rw := mask 63 1 ||| mask 0 12 }
  else if inArray off 0x400 45 8 then some {}
  else if inArray off 0x600 64 8 then some { rw := mask 63 1 ||| mask 37 25 ||| mask 16 16 }
  else if inArray off 0x800 64 8 then some {}
  else if off = 0xA00 then some { rw := mask 16 16 ||| mask 0 16, reset := mk 16 16 400 ||| mk 0 16 40 }
  else if off = 0xA10 then some { rc := mask 16 48 }
  else if off = 0xA20 then some { rw := mask 63 1 ||| mask 0 16, reset := mk 0 16 100 }
  else if off = 0xA28 then some { rc := mask 16 32 }
  else none

/-- Registers of the `FLT_` region (R495, R496). -/
def fltReg (off : Nat) : Option RegInfo :=
  if off = 0x1000 then some { rc := allBits }
  else if off = 0x1008 then some {}
  else if off = 0x1020 then some { rc := mask 32 16 ||| mask 0 16 }
  else if off = 0x1028 then some { rw := mask 12 52 ||| mask 0 5 }
  else if off = 0x1030 then some { rw := mask 63 1 }
  else if off = 0x1038 then some { rw := mask 0 32 }
  else if off = 0x1040 then
    some { rw := mask 62 2 ||| mask 32 16 ||| mask 0 16, reset := mkBit 63 true ||| mkBit 62 true ||| mk 32 16 100 ||| mk 0 16 10 }
  else if off = 0x1048 then some { rw := mask 0 16 }
  else if off = 0x1050 then some { rw := allBits }
  else if inArray off 0x1060 4 8 then some {}
  else if inArray off 0x1080 16 8 then some { rw := orderMask ((off - 0x1080) / 8), reset := 1 }
  else if inArray off 0x1100 224 8 then
    let i := (off - 0x1100) / 8
    some { rw := if (resetClass (i / 16) (i % 16)).isSome then mask 63 1 ||| mask 58 4 ||| mask 0 48 else 0, reset := classReset (i / 16) (i % 16) }
  else if inArray off 0x1800 64 8 then some { rw := mask 60 4 ||| mask 32 10 ||| mask 0 10 }
  else none

/-- Registers of the `HST_` region (R495). -/
def hstReg (off : Nat) : Option RegInfo :=
  if off = 0x4000 then some { rw := mask 17 2, reset := mk 17 2 3 }
  else if off = 0x4008 then some { rw := mask 24 40 ||| mask 0 1 }
  else if off = 0x4020 || off = 0x4028 then some { rw := mask 12 52 ||| mask 0 5 }
  else if off = 0x4030 then some { rw := mask 12 52 }
  else if off = 0x4038 then some { rw := mask 12 29 }
  else if off = 0x4040 || off = 0x4048 || off = 0x4100 || off = 0x4108 || off = 0x4110 then some {}
  else none

/-- The offset of an entry of a tier map: tier 0 die, 1 package, 2 tray, 3 rack; staged or active bank (R52). -/
def tierOff (active : Bool) (tier n : Nat) : Nat :=
  let b := if active then 0xEC000 else 0xE4000
  match tier with
  | 0 => b + n * 8
  | 1 => b + 0x20 + n * 8
  | 2 => b + 0x60 + n * 8
  | _ => b + 0x2000 + n * 8

/-- The entries of a tier map (R52). -/
def tierSize (tier : Nat) : Nat := match tier with | 0 => 4 | 1 => 8 | 2 => 32 | _ => 1024

/-- The width of `PHYS` that a tier uses (R52). -/
def tierBits (tier : Nat) : Nat := match tier with | 0 => 2 | 1 => 3 | 2 => 5 | _ => 10

/-- The tier and index of a tier-map offset, and whether it is in the active bank (R52). -/
def tierAt (off : Nat) : Option (Bool × Nat × Nat) :=
  let find (act : Bool) : Option (Bool × Nat × Nat) :=
    ((List.range 4).find? (fun t => inArray off (tierOff act t 0) (tierSize t) 8)).map
      (fun t => (act, t, (off - tierOff act t 0) / 8))
  match find false with
  | some x => some x
  | none => find true

/-- The reset value of a coppice entry: the identity, STATE MAPPED (R56). -/
def coppiceReset (n : Nat) : Word := mk 33 2 1 ||| mk 8 6 (n % 32) ||| mk 0 6 (n / 32)

/-- Registers of the `MAP_` region (R497). -/
def mapReg (off : Nat) : Option RegInfo :=
  if inArray off 0xE0000 1536 8 then
    some { rw := mask 32 3 ||| mask 24 6 ||| mask 16 6 ||| mask 8 6 ||| mask 0 6, reset := coppiceReset ((off - 0xE0000) / 8) }
  else if off = 0xE4200 then some {}
  else match tierAt off with
  | some (act, t, n) => some { rw := if act then 0 else mask 63 1 ||| mask 0 (tierBits t), reset := mkBit 63 (n == 0) }
  | none =>
    if inArray off 0xE8000 4 8 then some {}
    else if inArray off 0xE8040 6 8 || inArray off 0xE8080 6 8 then some {}
    else none

/-- Registers of the `PWR_` and `BUP_` regions (R449, R453, R495). -/
def pwrReg (off : Nat) : Option RegInfo :=
  if off = 0x2000 then
    some { rw := mask 32 16 ||| mask 16 8 ||| mask 0 8, reset := mk 40 8 50 ||| mk 32 8 5 ||| mk 16 8 10 ||| mk 0 8 200 }
  else if off = 0x2008 then some { reset := mk 40 8 70 ||| mk 32 8 70 }
  else if off = 0x2010 then
    some { rw := mask 16 48, reset := mk 56 8 20 ||| mk 48 8 50 ||| mk 40 8 30 ||| mk 32 8 70 ||| mk 24 8 90 ||| mk 16 8 50 }
  else if off = 0x2018 then some { rw := mask 48 16, reset := mk 56 8 105 ||| mk 48 8 115 }
  else if off = 0x2100 then some { rw := mask 63 1 ||| mask 48 12 ||| mask 0 1 }
  else if off = 0x2108 || off = 0x2110 then some {}
  else if inArray off 0x2200 32 8 || inArray off 0x2300 192 8 then some {}
  else none

/-- Registers of the sync objects, barriers and tenants (R319, R332, R123): their fields live in those units. -/
def arrayReg (off : Nat) : Option RegInfo :=
  if inArray off 0x80000 4096 16 then some { rw := allBits }
  else if inArray off 0x80008 4096 16 then some { rw := mask 63 1, w1c := mask 59 3 }
  else if inArray off 0x90000 64 32 then some { rw := mask 0 48 }
  else if inArray off 0x90008 64 32 then some { rw := mask 58 6 ||| mask 32 16 ||| mask 0 16 }
  else if inArray off 0x90010 64 32 then some {}
  else if inArray off 0xA0000 4096 16 then some { rw := mask 62 1 ||| mask 20 16 ||| mask 0 20 }
  else if inArray off 0xA0008 4096 16 then some { rw := mask 61 3 ||| mask 0 60 }
  else none

/-- The modules of an edge: 16, and 12 on E1 and E3 (R26). -/
def edgeMods (e : Nat) : Nat := if e = 1 ∨ e = 3 then 12 else 16

/-- Registers of the bridges and hall ports (R402, R403, R144). -/
def canopyReg (off : Nat) : Option RegInfo :=
  if off = 0xB0000 then some { rw := mask 0 1, reset := 1 }
  else if inArray off 0xB0010 4 8 then some { rc := mask 32 16 }
  else if inArray off 0xB0100 64 8 then
    let i := (off - 0xB0100) / 8
    if i % 16 < edgeMods (i / 16) then some { rc := mask 0 56 } else none
  else if off = 0xB8000 then
    some { rw := mask 24 40 ||| mask 4 12, reset := mk 40 24 0x020000 ||| mk 24 16 0x88B5 ||| mk 8 8 6 ||| mk 4 4 3 }
  else if inArray off 0xB8100 8 0x40 then some { rw := mask 63 1 }
  else if inArray off 0xB8108 8 0x40 || inArray off 0xB8110 8 0x40 then some { rc := allBits }
  else if off = 0xB8F00 then some { rw := mask 61 2 ||| mask 0 60 }
  else none

/-- Registers of the observation region (R467, R468, R478, R482, R486): the tallies are counted in place. -/
def obsReg (off : Nat) : Option RegInfo :=
  if off = 0xC0000 then some { rw := mask 63 1 ||| mask 61 1 ||| mask 56 2, reset := mk 56 2 3 }
  else if off = 0xC0008 then some {}
  else if off = 0xC0020 then some { rw := mask 60 4 ||| mask 56 2, reset := mk 60 4 4 ||| mk 56 2 3 }
  else if off = 0xC0028 then some { rw := mask 0 32 }
  else if off = 0xC0030 then some { rc := allBits }
  else if inArray off 0xC0040 8 8 || inArray off 0xC0840 7 8 then some { rw := mask 63 1 ||| mask 8 6 ||| mask 0 6 }
  else if inArray off 0xC0100 2 8 || inArray off 0xC0140 4 8 || inArray off 0xC0180 4 8 then some {}
  else if inArray off 0xC0400 64 8 then some { rw := allBits }
  else if off = 0xC0800 then some {}
  else if off = 0xC0880 then some { rw := mask 48 6 ||| mask 3 21 }
  else if off = 0xC0888 then some {}
  else if inArray off 0xC1000 384 8 || inArray off 0xC2000 656 8 then some {}
  else if inArray off 0xC3800 128 8 || inArray off 0xC3C00 16 8 then some {}
  else none

/-- Registers of the table store (R463). -/
def tblReg (off : Nat) : Option RegInfo :=
  if off = 0xD0000 then some {}
  else if off = 0xD0008 then some { reset := mkBit 63 true }
  else if off = 0xD0010 then some {}
  else if inArray off 0xD0020 2 8 || off = 0xD0030 then some {}
  else if inArray off 0xD1000 512 8 then some { rw := allBits }
  else none

end Sys2Proof.Machine
end

