-- ==== Sys2Proof/Machine/Table.lean ====
section
/-! DEFINITION. Tables: sparse data by key in one canonical form, keys strictly rising and no entry equal to what an
unlisted key reads as. Registers, memory and the units' arrays are held so. -/

namespace Sys2Proof.Machine

/-- What key `k` reads as; `d` says what an unlisted key reads as. -/
def tget {α : Type} (d : Nat → α) : Tbl α → Nat → α
  | [], k => d k
  | (j, v) :: r, k => if j = k then v else tget d r k

/-- The table without key `k`. -/
def terase {α : Type} (t : Tbl α) (k : Nat) : Tbl α := t.filter (fun p => decide (p.1 ≠ k))

/-- The table with (k, v) put where the rising order has it; `k` is not listed. -/
def tinsert {α : Type} (t : Tbl α) (k : Nat) (v : α) : Tbl α :=
  match t with
  | [] => [(k, v)]
  | (j, w) :: r => if k < j then (k, v) :: (j, w) :: r else (j, w) :: tinsert r k v

/-- The table with key `k` reading `v`: an entry equal to the unlisted value is removed. -/
def tset {α : Type} [DecidableEq α] (d : Nat → α) (t : Tbl α) (k : Nat) (v : α) : Tbl α :=
  if v = d k then terase t k else tinsert (terase t k) k v

/-- The canonical form: keys strictly rising, no entry equal to what an unlisted key reads as. -/
def twf {α : Type} [DecidableEq α] (d : Nat → α) : Tbl α → Bool
  | [] => true
  | (k, v) :: r => decide (v ≠ d k) && r.all (fun p => decide (k < p.1)) && twf d r

/-- A table of optional entries: an unlisted key holds none. -/
def oget {α : Type} (t : Tbl (Option α)) (k : Nat) : Option α := tget (fun _ => none) t k

/-- Put or remove an optional entry. -/
def oset {α : Type} [DecidableEq α] (t : Tbl (Option α)) (k : Nat) (v : Option α) : Tbl (Option α) :=
  tset (fun _ => none) t k v

/-- Change what key `k` reads as by `f`. -/
def tmod {α : Type} [DecidableEq α] (d : Nat → α) (t : Tbl α) (k : Nat) (f : α → α) : Tbl α :=
  tset d t k (f (tget d t k))

/-- A table of `d` values, all unlisted keys alike. -/
def cget {α : Type} (d : α) (t : Tbl α) (k : Nat) : α := tget (fun _ => d) t k

/-- `tset` where all unlisted keys read alike. -/
def cset {α : Type} [DecidableEq α] (d : α) (t : Tbl α) (k : Nat) (v : α) : Tbl α := tset (fun _ => d) t k v

/-- `tmod` where all unlisted keys read alike. -/
def cmod {α : Type} [DecidableEq α] (d : α) (t : Tbl α) (k : Nat) (f : α → α) : Tbl α := tmod (fun _ => d) t k f

/-- The keys of a table that lie in [lo, lo + n), removed: they read as unlisted. -/
def tclear {α : Type} (t : Tbl α) (lo n : Nat) : Tbl α := t.filter (fun p => !(decide (lo ≤ p.1) && decide (p.1 < lo + n)))

end Sys2Proof.Machine
end

