-- ==== Sys2Proof/Machine/UnitsNet.lean ====
section
/-! DEFINITION. The state of the units that carry traffic: management port, epoch controller, maps and girdles,
routers, transport and tenants (chapters 00, 02, 03, 04, 13). -/

namespace Sys2Proof.Machine

/-- The management port: the held low word and the snapshot, each with its register's offset (R12, R13), the levels
of `MG_RST_N` and `FAB_PORST_N` (true: released), and the answer to the last access (R371, R372). -/
structure MgState where
  held  : Option (Nat × BitVec 32) := none
  snap  : Option (Nat × Word) := none
  rstN  : Bool := true
  porst : Bool := true
  rdata : BitVec 32 := 0
  err   : Bool := false
  deriving DecidableEq, Repr

/-- The states of the epoch controller (R107). -/
inductive EpPhase where
  | idle | flipping | draining | copying
  deriving DecidableEq, Repr

/-- The epoch controller (R107, R108, R110). `taken` names the stands that have taken FLIP, `acked` those whose
acknowledgement has reached the controller; the counts are keyed
(parity × 48 + stand) × 4 + plane: `inj`/`ej` by the stand itself, `nbFrom`/`nbTo` by its neighbours. -/
structure EpochState where
  phase   : EpPhase := .idle
  epoch   : BitVec 32 := 0
  pending : Bool := false
  stuck   : Bool := false
  lastUs  : BitVec 16 := 0
  reqAt   : Nat := 0
  taken   : List StandId := []
  acked   : List StandId := []
  inj     : Tbl Nat := []
  ej      : Tbl Nat := []
  nbFrom  : Tbl Nat := []
  nbTo    : Tbl Nat := []
  deriving DecidableEq, Repr

/-- Why an entry is being re-homed (R427, R428): by a swap or a move of an order, or by an operator's twin fill. -/
inductive RehomeKind where
  | swap | move
  deriving DecidableEq, Repr

/-- A re-home in progress at the fault collector (R427, R428). `held`: the entry is in hold; `confirmed`: step 2 is done. -/
structure Rehome where
  kind      : RehomeKind
  held      : Bool
  confirmed : Bool
  deriving DecidableEq, Repr

/-- The maps that the fault collector and the hubs hold (R56, R57, R419): the collector's coppice map, the hubs'
copies keyed hub × 1536 + entry, operator writes that wait for a REHOME of their entry, the re-homes in progress, the
girdle bits at the collector, and the girdles that each hub has applied, keyed hub × 424 + unit (R420). -/
structure MapState where
  coppice : Tbl Word := []
  hubCop  : Tbl Word := []
  waiting : List (Nat × Word) := []
  rehomes : Tbl (Option Rehome) := []
  gstand  : BitVec 48 := 0
  gport   : BitVec 48 := 0
  glink   : BitVec 384 := 0
  applied : Tbl Bool := []
  deriving DecidableEq, Repr

/-- A message that is open on a VC: the stem of its HEAD, its SEQ and the output it goes to (R84, R89). -/
structure OpenMsg where
  stem : BitVec 128
  seq  : BitVec 16
  outp : Fin 6
  deriving DecidableEq, Repr

/-- A frond in an input queue with the output its route gives it; `own`: an abort tail that the router itself made, which holds no credit of
the link (R89). -/
structure QFrond where
  f    : Frond
  outp : Fin 6
  own  : Bool := false
  deriving DecidableEq, Repr

/-- One VC of a plane input: its queue (at most 8), the received count modulo 16, skip state, the open message, the
moment of its last progress and whether its stall is reported (R85, R88, R89, R101). -/
structure InVc where
  q       : List QFrond := []
  recv    : Nat := 0
  skip    : Bool := false
  opened  : Option OpenMsg := none
  since   : Nat := 0
  stalled : Bool := false
  deriving DecidableEq, Repr

/-- Share-class arbitration of one VC at an output (R133). -/
structure ShareSt where
  sdef  : List Int := List.replicate 16 0
  cur   : Nat := 0
  fresh : Bool := true
  deriving DecidableEq, Repr

/-- A router output (R85, R88, R91 to R93): credits, sent counts and holding input per VC, the DRR state, the express
history of the last 80 handshakes, the express turns, the share state of VC 0 and VC 1, the share class of the message that holds
each VC (R131), the source slot of the skid message that holds VC 2 (R105), and what the last 99 handshakes carried on VC 6: 1 an
observation frond, 2 a cruise frond, else 0 (R477). -/
structure OutPort where
  credits : List Nat := List.replicate 8 8
  sent    : List Nat := List.replicate 8 0
  holder  : List (Option (Fin 6)) := List.replicate 8 none
  deficit : List Nat := List.replicate 8 0
  cur     : Nat := 0
  fresh   : Bool := true
  hist    : List Bool := []
  eturn   : Nat := 0
  rr      : Nat := 0
  sh0     : ShareSt := {}
  sh1     : ShareSt := {}
  hcls    : List Nat := List.replicate 8 0
  skid    : Option Nat := none
  bg      : List Nat := []
  deriving DecidableEq, Repr

/-- The routers: plane input VCs keyed ((stand × 4 + plane) × 6 + input) × 8 + VC, outputs keyed (stand × 4 + plane) ×
6 + output, plane-link directions under audit (R88), keyed as the input, the stands' copies of `GLB_SHARE_MAP` (R131), what the shapers of
the skids' source slots hold, in 1/64 frond, keyed stand × 64 + slot (R105), and the fronds of a message that a hub has taken so far,
keyed (stand × 4 + plane) × 8 + VC (R82), and the flow and SEQ of the messages that a hub has sent on under R60. -/
structure MeshState where
  inv    : Tbl InVc := []
  outs   : Tbl OutPort := []
  audit  : Tbl Bool := []
  shareMap : Tbl Word := []
  skid   : Tbl Nat := []
  asm    : Tbl (List Frond) := []
  fwds   : List (FlowKey × BitVec 16) := []
  deriving DecidableEq, Repr

/-- What an outstanding message belongs to, and so where its outcome is reported (R187, R188): a message that a unit
sends for a descriptor, the data at an offset of it, a message of a work item, the CTRL frond that hands one over, a
direct request, a polling read, the read of a source range, an MCAST message of an executor or of a member, a landing
write of a member, a write of a delivery, a stage message of a member, a posted SEND of a descriptor of an acceptor, TAG and index that is no longer
held, the registration of a WAIT at another die, or nothing that is reported. -/
inductive Owner where
  | desc (id : Nat) (off : Nat)
  | work (item : Nat) (off : Nat)
  | hand (item : Nat)
  | direct (k : StandId) (rid : BitVec 8)
  | poll (accNo : Nat) (desc : Nat) (word : Nat)
  | source (desc : Nat)
  | mcRead (c : Fin 64)
  | mcast (st : Option StandId) (c : Fin 64) (desc : Nat)
  | mcWrite (st : StandId) (c : Fin 64) (opid : Nat)
  | landing (st : StandId) (j : Fin 8)
  | stage (st : StandId) (g : Fin 64)
  | landed (a : Acceptor) (tag : Nat) (idx : Nat)
  | watch (accNo : Nat) (desc : Nat)
  | none_
  deriving DecidableEq, Repr

/-- A copy that a source unit holds of an unacknowledged or unanswered message (R113). -/
structure Copy where
  m     : Msg
  st    : StandId
  first : Nat
  last  : Nat
  acked : Bool
  owner : Owner
  deriving DecidableEq, Repr

/-- A message that waits behind its window, for a slot, or for an earlier ATOMIC (R112, R113, R117). -/
structure Waiting where
  m     : Msg
  st    : StandId
  owner : Owner
  deriving DecidableEq, Repr

/-- How far a message has come: its injection was refused, it is injected, it is acknowledged with its response still to
come, or it is done. -/
inductive Stage where
  | refused | sent | acked | final
  deriving DecidableEq, Repr

/-- What a source unit learns of one of its messages. `unknown`: an earlier copy may have taken effect (R501);
`answered`: the outcome is that of a response. -/
structure Done where
  owner    : Owner
  m        : Msg
  stage    : Stage
  status   : Status
  data     : List Byte
  unknown  : Bool
  answered : Bool
  deriving DecidableEq, Repr

/-- A flow of a source unit (R112, R113): the pair an implicit slot serves, or the member a chain slot last sent to,
the next SEQ, the window of copies, the
messages waiting, the last acknowledgement and whether the next message carries OPEN. -/
structure Flow where
  pair    : Option (Nat × PlaneId) := none
  next    : BitVec 16 := 0
  win     : List Copy := []
  wait    : List Waiting := []
  lastAck : Option Nat := none
  owed    : Bool := true
  deriving DecidableEq, Repr

/-- A receive-table entry (R114 to R117, R147): the flow key, the next expected SEQ, the last arrival, the refusal
mask, the last ATOMIC with its result, the accepted messages not yet acknowledged with the moment of the oldest, and
the moment of the last GAP NACK. -/
structure RecvEntry where
  key     : FlowKey
  e       : BitVec 16
  last    : Nat
  rmask   : BitVec 32
  atom    : Option (BitVec 16 × Status × List Byte)
  unacked : Nat
  oldest  : Nat
  gapAt   : Option Nat
  deriving DecidableEq, Repr

/-- The transport: flows keyed unit × 8192 + IMPL × 4096 + CHANNEL (unit numbers: `unitNo` in Machine/Flows.lean),
receive tables by stand, messages of a new pair that wait for an implicit slot, by unit (R112), the reads that are being made
again after `COLLIDE`, with the collisions in a row (R298), and, by flow, the posted SENDs that are acknowledged, the last of each SEQ:
one that was spilled may still fail to land (R183, R187); and the flow and SEQ of the requests whose EXPRESS a hall port has cleared
(R135); and the tiles that ended without an acknowledgement, as port unit and GROUP and OPID (R258). -/
structure TransState where
  flows  : Tbl Flow := []
  recv   : Tbl (List RecvEntry) := []
  noSlot : Tbl (List Waiting) := []
  colls  : List (Owner × Word × Nat) := []
  late   : List (Nat × Msg × Owner) := []
  cleared : List (FlowKey × BitVec 16) := []
  lostTiles : List (Nat × Nat) := []
  deriving DecidableEq, Repr

/-- A token bucket (R138): tokens in thousandths of a byte, so that the fraction is kept exactly. -/
structure Bucket where
  t    : Int := 0
  last : Nat := 0
  deriving DecidableEq, Repr

/-- A two-rate three-colour meter (R141, R142), in thousandths of a byte. -/
structure Meter where
  tc   : Int := 0
  tp   : Int := 0
  last : Nat := 0
  deriving DecidableEq, Repr

/-- An ACTIVE tenant entry (R123, R127): its fields, its host agent bucket and its meters (by hall port). -/
structure Tenant where
  tag    : BitVec 16
  expOk  : Bool := false
  burst  : Nat := 0
  rate   : Nat := 0
  police : Word := 0
  bucket : Bucket := {}
  ipol   : Meter := {}
  hpol   : Tbl Meter := []
  deriving DecidableEq, Repr

/-- A command register's result (R125, R166): the moment from which DONE is 1, OVERRUN, flag, INDEX, STATUS and value. -/
structure CmdResult where
  till    : Nat := 0
  overrun : Bool := false
  flag    : Bool := false
  index   : Nat := 0
  status  : Status := .ok
  value   : BitVec 32 := 0
  deriving DecidableEq, Repr

/-- Tenants and rate control (R123 to R147): the entries, the tenant command's result, the core ports' buckets and
injection meters, and the guest meters of the hall ports. -/
structure TntState where
  entries : Tbl (Option Tenant) := []
  result  : CmdResult := {}
  portBkt : Tbl Bucket := []
  portMtr : Tbl Meter := []
  guest   : Tbl Meter := []
  deriving DecidableEq, Repr

end Sys2Proof.Machine
end

