-- ==== Sys2Proof/Machine/UnitsWork.lean ====
section
/-! DEFINITION. The state of the units that take work: descriptors and rings, channels, core ports, slices (chapters 05, 09, 11). -/

namespace Sys2Proof.Machine

/-- Where a descriptor stands: fetched or submitted, held by a shaper or a busy chain, checked and dispatchable,
waiting (FENCE, WAIT, RUN, BUSY), running, complete with messages still unacknowledged. -/
inductive DPhase where
  | queued | held | ready | waiting | running | complete
  deriving DecidableEq, Repr

/-- A descriptor from its acceptance on (R150 to R161): its acceptor, its ring index or command-queue slot, its 64
bytes, its tenant tag, its phase, the status and record fields gathered so far, the messages or work items whose
completion point is outstanding, those not yet acknowledged, the work items not yet dispatched, the first member of
its chain, the counts of its TALLY record (R470, R471), the records reserved for it on its completion ring, its command
queue slot, the colour its next charge has been given, the data of a SEND, whether R154 refused it, whether its records
are to be discarded (R367), and of a SEND of a core port whose source is read from elsewhere, the colour of that READ_REQ and whether its
charge has passed the shaper (R137). -/
structure DescSt where
  acc    : Acceptor
  idx    : Nat
  raw    : List Byte
  tag16  : BitVec 16 := 0
  phase  : DPhase := .queued
  status : Status := .ok
  result : Word := 0
  addr   : Word := 0
  flags  : BitVec 8 := 0
  todo   : Nat := 0
  unack  : Nat := 0
  items  : List WorkItem := []
  chain  : Option Nat := none
  skip   : Bool := false
  start  : Nat := 0
  rd     : Nat := 0
  wr     : Nat := 0
  lvl    : BitVec 8 := 0
  pl     : BitVec 8 := 0
  fronds : Nat := 0
  since  : Nat := 0
  unknown : Bool := false
  resv   : Nat := 0
  slot   : Nat := 0
  colour : Option (BitVec 2) := none
  data   : List Byte := []
  refused : Bool := false
  planes : BitVec 4 := 0
  dead   : Bool := false
  rcol   : Option (BitVec 2) := none
  rpaid  : Bool := false
  deriving DecidableEq, Repr

/-- What a host-memory read of the host agent is for (R173): descriptors of entry `n` from index `first`, the answer
to a READ_REQ, the message at `off` of a work item, the source of a SEND or GROUP, or the next data of an MCAST. -/
inductive HostRead where
  | fetch (n : Nat) (first : Nat) (count : Nat)
  | answer (m : Msg)
  | item (item : Nat) (off : Nat)
  | source (desc : Nat)
  | mcast (c : Fin 64)
  deriving DecidableEq, Repr

/-- A work item at its executor (R155 to R159): the item, its executor, the CTRL message that brought it from another
die, the messages whose completion point is outstanding and those not yet acknowledged, the outcome so far: status and
lowest failing offset, bytes read and written, planes used, whether its executor has it, whether it is complete, whether an earlier copy of a failed message may have taken effect
(R501), how many source reads are outstanding, and the data messages, offset and bytes, kept until no read of an overlapping COPY is
(R158). -/
structure ItemSt where
  w      : WorkItem
  ex     : SrcUnit
  ctrl   : Option Msg := none
  todo   : Nat := 0
  unack  : Nat := 0
  status : Status := .ok
  fail   : Nat := 0
  rd     : Nat := 0
  wr     : Nat := 0
  planes : BitVec 4 := 0
  fronds : Nat := 0
  started : Bool := false
  ended  : Bool := false
  unknown : Bool := false
  reading : Nat := 0
  kept   : List (Nat × List Byte) := []
  deriving DecidableEq, Repr

/-- The host agent and the accepting units (R150 to R178): the ring command's result, the descriptors by number, the
acceptors' queues of descriptors (acceptor number: entry n, or 4096 + port), the work items by number, host reads
outstanding by tag, records in the holding with their entry and the RINGS bank that holds each, if any, dropped records by
entry (R176), and the channel
directory (R180). -/
structure HostState where
  ringRes : CmdResult := {}
  descs   : Tbl (Option DescSt) := []
  nextId  : Nat := 0
  queues  : Tbl (List Nat) := []
  items   : Tbl (Option ItemSt) := []
  nextItem : Nat := 0
  reads   : Tbl (Option HostRead) := []
  nextTag : Nat := 0
  holding : List (Nat × Option Nat × List Byte) := []
  lost    : Tbl Nat := []
  dir     : Tbl (Option StandId) := []
  deriving DecidableEq, Repr

/-- A land slot's counters and its spilled messages, oldest first (R183, R184). -/
structure ChanCnt where
  occ      : Nat := 0
  released : BitVec 32 := 0
  spill    : List Msg := []
  deriving DecidableEq, Repr

/-- The crossing state of a core port (R376 XSTATE). -/
inductive XState where
  | reset | syncing | up | down
  deriving DecidableEq, Repr

/-- A target request in the hub's table (R354): its message, whether it has been offered to the core, its place in the order of arrival
(R368), when it was offered, and whether an answer has shown that the core has taken it (R364; log 80). -/
structure Target where
  m : Msg
  offered : Bool
  no : Nat := 0
  since : Nat := 0
  taken : Bool := false
  deriving DecidableEq, Repr

/-- What a delivery message frees when the core takes it (R178, R351). -/
inductive DlFree where
  | slots (l : List Nat) | buf (n : Nat) | nothing
  deriving DecidableEq, Repr

/-- A message on a port's DL crossing (R352). -/
structure DlMsg where
  kind   : Nat
  status : Status
  rid    : BitVec 8
  data   : List Byte
  frees  : DlFree
  deriving DecidableEq, Repr

/-- A near-port read that has been returned (R358): data, `CPk_NP_ERR`, `CPk_DP_BUSY`. -/
structure NpRet where
  data : List Byte
  err  : Bool
  busy : Bool
  deriving DecidableEq, Repr

/-- The core ports (R347 to R376): outstanding RIDs with the response bytes each has reserved and
whether its response is to be discarded (R367) (port × 256 + RID),
command-queue slots (port × 16 + slot), target tables (port × 32 + TID), the DL crossing and the near port's return queue by port,
response-buffer bytes reserved, wake-pending, the hangs found, the crossing state, whether `CPk_RST_N` is asserted, the moment
of the last RESYNC step, the `RQ` messages that wait to be taken with the colour of the first, a direct request that its shaper holds, and
the tag under which the port accepted it (R130, R351), whether what arrives for
the core is discarded until RESYNC completes (R367), and whether the first waiting message is a request that a core-side reset found
held by the shaper (R367). -/
structure PortState where
  rids  : Tbl (Option (Nat × Bool)) := []
  slots : Tbl (Option Nat) := []
  tgts  : Tbl (Option Target) := []
  dl    : Tbl (List DlMsg) := []
  np    : Tbl (List NpRet) := []
  buf   : Tbl Nat := []
  wake  : Tbl Bool := []
  hung  : Tbl (List HangCond) := []
  xst   : Tbl XState := []
  inRst : Tbl Bool := []
  since : Tbl Nat := []
  rq    : Tbl (List RqMsg) := []
  rqCol : Tbl (Option (BitVec 2 × BitVec 16)) := []
  lossy : Tbl Bool := []
  gone  : Tbl Bool := []
  deriving DecidableEq, Repr

/-- The state of a slice word besides its 32 data bytes (R288, R289): a code word, check bits written raw, contents lost with the supply (R456), or the
poison marker. -/
inductive WordSt where
  | clean
  | coded (chk : BitVec 32)
  | poison
  | lost
  deriving DecidableEq, Repr

/-- The slices (chapter 09): the bytes of every bank and dual-port region, keyed (stand × 35 + bank) × 2^21 + byte with
bank 34 the dual-port region; the words that are not clean, keyed (stand × 35 + bank) × 2^16 + word; the zeroing of
mailbox and general memory (R296), the banks (stand × 35 + bank) whose contents a fall of `VDD_SLC` has left undefined, with the number of the loss (R456), the scrub position and the moment its pass began (R313) and the moment from which DONE of the raw
command is 1 (R315) by stand. -/
structure SliceState where
  mem    : Tbl Byte := []
  words  : Tbl WordSt := []
  zeroing : Tbl Bool := []
  vague  : Tbl Nat := []
  scrub  : Tbl Nat := []
  scrubAt : Tbl (Option Nat) := []
  raw    : Tbl Nat := []
  deriving DecidableEq, Repr

end Sys2Proof.Machine
end

