-- ==== Sys2Proof/Machine/Outputs.lean ====
section
/-! DEFINITION. What the block sends: rhizome messages between its units, and everything it puts on its interfaces
(R31, R32, R173, R352, R371 and the interface chapters). -/

namespace Sys2Proof.Machine

/-- A rhizome message (R32), by what it tells its receiver. -/
inductive Rhz where
  | flip
  | flipAck (st : StandId)
  | rehome (n : Nat) (v : Word)
  | hold (n : Nat) | unhold (n : Nat)
  | girdle (u : GUnit)
  | release (u : GUnit)
  | shareMap (v : Word)
  | sendSlot (ch : Nat) (st : Option StandId)
  | signal (obj : Nat) (inc : BitVec 32)
  | watch (obj : Nat) (target : Nat) (a : Acceptor)
  | watchReport (a : Acceptor)
  | watchNack (a : Acceptor)
  | watchRelease (obj : Nat) (a : Acceptor)
  | trigger (st : StandId) (g : Nat)
  | triggerRecord (obj : Nat) (g : Nat)
  | declare (st : StandId) (g : Nat)
  | allsumDone (st : StandId) (g : Nat)
  | doorbell (n : Nat) (byte : Nat) (v : Word)
  | notice (a : Acceptor)
  | liveness (st : StandId)
  | propose (round : Nat)
  | abort (round : Nat)
  | commit (round : Nat)
  | vote (w : Voter) (round : Nat) (yes : Bool)
  | exitDorm
  | bankCmd (st : StandId) (bank : Nat) (v : Word)
  | fillDone (n : Nat)
  | confirm (st : StandId)
  | snapshot
  | freeze
  | traceOn (on : Bool)
  deriving DecidableEq, Repr

/-- What the block has sent (log 7): `dl` and `tq` offer a message of a core port's channel, `ha` answers a read of the doorbell window;
`whole` is a message that a hub has put together of the fronds it took (R82). -/
inductive Out where
  | frond (st : StandId) (pl : PlaneId) (outp : Fin 6) (vc : Nat) (f : Frond)
  | credit (st : StandId) (pl : PlaneId) (inp : Fin 6) (vc : Nat)
  | flushed (st : StandId) (pl : PlaneId) (inp : Fin 6)
  | msg (st : StandId) (unit : BitVec 3) (m : Msg)
  | rhz (r : Rhz)
  | hostRead (tag : Nat) (addr : Word) (len : Nat)
  | hostWrite (addr : Word) (data : List Byte)
  | dl (k : StandId) (bytes : List Byte)
  | tq (k : StandId) (bytes : List Byte)
  | ha (v : Word)
  | slot (e : Fin 4) (m : Fin 16) (s : Slot)
  | retrain (e : Fin 4) (m : Fin 16)
  | hall (h : Fin 8) (dst : BitVec 48) (frame : List Byte)
  | sideband (e : Fin 4) (x : Byte) (y : Byte)
  | sec (op : BitVec 3) (words : List (BitVec 32))
  | resync (k : StandId)
  | whole (st : StandId) (m : Msg)
  deriving DecidableEq, Repr

end Sys2Proof.Machine
end

