-- ==== Sys2Proof/Machine/UnitsCanopy.lean ====
section
/-! DEFINITION. The state of the bridge edges (chapter 12, R379 to R390). -/

namespace Sys2Proof.Machine

/-- The states of a bridge module (R386). -/
inductive MState where
  | down | training | hello | up | retrain | failed
  deriving DecidableEq, Repr

/-- A bridge module (R386): its state, the training attempts made (`TRAINS`), when its state began, and whether a HELLO
wait or a retry wait runs. `shape`, `row` and `wcount` are those of the last valid HELLO received (R385). -/
structure ModSt where
  state  : MState := .down
  trains : Nat := 0
  since  : Nat := 0
  retry  : Bool := false
  heard  : Bool := false
  shape  : Nat := 0
  row    : Bool := false
  wcount : Nat := 0xFF
  deriving DecidableEq, Repr

/-- A VC of a plane at an edge (R381 to R383): `LENGTH` of the message open at the input, the 4-bit count of fronds sent, and the
credits this die holds at the facing input. -/
structure EdgeVc where
  len     : Nat := 0
  sent    : Nat := 0
  credits : Nat := 0
  deriving DecidableEq, Repr

/-- The barrier sideband of an edge (R390): whether it is up, the moment of the last valid update. -/
structure SbState where
  up   : Bool := false
  last : Nat := 0
  deriving DecidableEq, Repr

/-- The bridges: modules keyed edge × 16 + module; VCs keyed ((edge × 8 + position) × 4 + plane) × 8 + VC;
sidebands by edge; the TOPO hold (R387). -/
structure BrgState where
  mods   : Tbl ModSt := []
  vcs    : Tbl EdgeVc := []
  sb     : Tbl SbState := []
  topo   : Bool := false
  deriving DecidableEq, Repr

end Sys2Proof.Machine
end

