-- ==== Sys2Proof/Machine/UnitsFault.lean ====
section
/-! DEFINITION. The state of the fault collector (chapter 13). -/

namespace Sys2Proof.Machine

/-- A leaky bucket of a source (R409). -/
structure FltBucket where
  credit : Nat := 0
  last   : Nat := 0
  level  : Nat := 0
  step   : Nat := 0
  deriving DecidableEq, Repr

/-- A merge window of a source (R412): its class and escalation, when it opened, the occurrences counted, the first of them, and the
actions started for them. -/
structure Window where
  cls   : Nat
  esc   : Bool
  start : Nat
  count : Nat
  first : Nat
  detail : Word
  acts   : BitVec 16
  deriving DecidableEq, Repr

/-- An event record (R410), without the PHASE bit, which the drain to the host event ring sets (R414). -/
structure EvRec where
  time    : Nat
  family  : Fin 16
  cause   : Fin 16
  cls     : Nat
  loc     : BitVec 7
  sub     : BitVec 8
  count   : Nat
  actions : BitVec 16
  lost    : Nat
  rseq    : Nat
  detail  : Word
  deriving DecidableEq, Repr

/-- The first FATAL occurrence (R434). -/
structure FatalRec where
  family : Fin 16
  cause  : Fin 16
  loc    : BitVec 7
  time   : Nat
  deriving DecidableEq, Repr

/-- A unit a contingency set is keyed to: KIND 0 stand, 1 plane-link, 2 bridge module, 3 hall port (R424). -/
structure ContKey where
  kind : Nat
  unit : Nat
  deriving DecidableEq, Repr

/-- The fault collector (R408 to R435): events on their way, buckets and windows by source, the event FIFO (oldest
first) with its counters, the occurrence counters, the host event ring's indices, the fatal latch, `HEARTBEAT`, the
REROUTEs that wait, liveness (heard: stand × 4 + direction; NODE_LINK raised: the same key), the cruise sequences at
the sending and the receiving end (plane-link × 2 + direction), the contingency half-entries (index × 2 + half), and the
moments of the last pattern of a direction (plane-link × 2 + direction) and of the last self-check of a stand (R431). `sent` says of each
event in `inbox`, in the same order, when it was raised (R410, R434) and whether no rhizome path takes it to the collector (R421). -/
structure FltState where
  inbox   : List Ev := []
  sent    : List (Nat × Bool) := []
  buckets : Tbl (Option FltBucket) := []
  windows : Tbl (Option Window) := []
  fifo    : List EvRec := []
  rseq    : Nat := 0
  pendDrop : Nat := 0
  drops   : Nat := 0
  merges  : Nat := 0
  nFatal  : Nat := 0
  nCont   : Nat := 0
  nCorr   : Nat := 0
  ringEn  : Bool := false
  ringTail : BitVec 32 := 0
  ringHead : BitVec 32 := 0
  fatal   : Option FatalRec := none
  hb      : Bool := false
  hbRun   : Bool := false
  reroutes : List ContKey := []
  heard   : Tbl Nat := []
  silent  : Tbl (Option Nat) := []
  prbsTx  : Tbl (BitVec 31) := []
  prbsRx  : Tbl (BitVec 31) := []
  cont    : Tbl Word := []
  cruiseAt : Tbl (Option Nat) := []
  checkAt : Tbl (Option Nat) := []
  deriving DecidableEq, Repr

end Sys2Proof.Machine
end

