-- ==== Sys2Proof/Machine/UnitsLast.lean ====
section
/-! DEFINITION. The state of bring-up, the pace loop, the table store and the hall ports (chapters 12, 14, 15). -/

namespace Sys2Proof.Machine

/-- Bring-up (R439 to R449): the stages that have reported, which is also the stage running, or that halted; the halt with its
cause and place; when the stage began; and S5: its tier, phase (0 MARCH, 1 RETENTION, 2 REPAIR, 3 DONE), whether it is quick,
the retention passes done in the tier, the end of the pause, the failed banks of tier 0 that wait for the tier 1 report, the
stands girdled by the stage, the spares that failed, the counts of its STAGE record, and the released stands under re-test with
the moment each began (R423), and the stands that were girdled when S5 began (R445). -/
structure BupState where
  reported : Nat := 0
  halted   : Bool := false
  hcause   : Nat := 0
  hloc     : Nat := 0
  startAt  : Nat := 0
  tier     : Nat := 0
  sphase   : Nat := 0
  quick    : Bool := false
  passes   : Nat := 0
  pauseEnd : Nat := 0
  waiting  : List (StandId × Nat) := []
  gone     : List StandId := []
  failed   : List (StandId × Nat) := []
  det0     : Nat := 0
  det1     : Nat := 0
  retest   : List (StandId × Nat) := []
  away     : List StandId := []
  deriving DecidableEq, Repr

/-- The pace loop and the supply (R437, R450 to R456): the requests, the request held before COMMIT, p with its stand, sp, the
level of `PWR_DROOP_WARN` and whether droop handling runs, when the warning fell, the conditions of R451 with the periods
counted toward setting (by stand for MARGIN) and clearing them, the moment each stand's measured rail began to lag, the safe state of
R456, the stands whose WARN stands, and whose CRITICAL has been raised, and the moment of the last period. -/
structure PwrState where
  vfab    : Nat := 70
  vslc    : Nat := 70
  saved   : Nat := 70
  p       : Nat := 0
  slowest : Nat := 0
  sp      : Nat := 0
  warnPin : Bool := false
  droop   : Bool := false
  fellAt  : Nat := 0
  margin  : Bool := false
  below   : Bool := false
  lag     : Bool := false
  limit   : Bool := false
  marginN : Tbl Nat := []
  marginOff : Nat := 0
  belowOn : Nat := 0
  belowOff : Nat := 0
  lagAt   : Tbl (Option Nat) := []
  safe    : Bool := false
  hot     : Tbl Bool := []
  crit    : Tbl Bool := []
  stepAt  : Nat := 0
  deriving DecidableEq, Repr

/-- A slot record (R461): `SEQ`, `ACTIVE` (true: slot B), the slots' states: 0 EMPTY, 1 WRITTEN, 2 VERIFIED, 3 TRIAL,
4 TRIAL_BOOTED, 5 GOOD, 6 FAILED. -/
structure SlotRec where
  seq    : BitVec 32 := 0
  active : Bool := false
  stA    : Nat := 0
  stB    : Nat := 0
  deriving DecidableEq, Repr

/-- What the table store does next over `SEC_*` for the command that runs (R459, R464): read a page into the buffer, write the
buffer to a page, erase a slot from a page on, load a slot's image from a page on, have its signature verified, erase and then write the record
copy that is not current, or raise the version counter. -/
inductive SecStep where
  | readPage (slot : Bool) (page : Nat)
  | writePage (slot : Bool) (page : Nat)
  | eraseSlot (slot : Bool) (page : Nat)
  | load (slot : Bool) (page : Nat)
  | verify (slot : Bool)
  | recErase (r : SlotRec)
  | recWrite (r : SlotRec)
  | svnAdvance (v : BitVec 16)
  deriving DecidableEq, Repr

/-- The table store (R461 to R464): the current record and the copy that holds it, the running slot and `ORIGIN`, the result of the
last command, and the command that runs: its operation, its slot and what it still has to do; the image that runs, and what has been loaded of
the one under check (R458, R462). -/
structure TblState where
  rec_    : SlotRec := {}
  copy    : Nat := 0
  runB    : Bool := false
  origin  : Nat := 0
  done    : Bool := true
  overrun : Bool := false
  status  : Status := .ok
  detail  : Nat := 0
  op      : Nat := 0
  slot    : Bool := false
  steps   : List SecStep := []
  image   : List Byte := []
  work    : List Byte := []
  deriving DecidableEq, Repr

/-- A frond entry of a hall frame (R394). -/
structure HallFrond where
  stem    : BitVec 128
  payload : BitVec 512
  deriving DecidableEq, Repr

/-- A frame that a send context holds unacknowledged (R397, R399): its sequence, plane and fronds, how often it has been sent
and when last, whether an ACK has shown it held, and whether it has been given up, with the moment of its last SKIP. -/
structure TxFrame where
  lseq   : BitVec 32
  plane  : PlaneId
  fronds : List HallFrond
  sends  : Nat
  last   : Nat
  sacked : Bool := false
  gone   : Bool := false
  deriving DecidableEq, Repr

/-- The states of a send context but CLOSED, which is to have none (R397). -/
inductive SendPhase where
  | opening | isOpen | unseq
  deriving DecidableEq, Repr

/-- A send context (R397): its state, first and next sequence, the frames unacknowledged, oldest first, and the moment its state,
its last send or its last acknowledgement began. -/
structure SendCtx where
  phase  : SendPhase
  first  : BitVec 32
  next   : BitVec 32
  frames : List TxFrame := []
  since  : Nat
  deriving DecidableEq, Repr

/-- A frame held by a receive context: its fronds, or none for a slot that a SKIP has emptied (R398). -/
structure HeldFrame where
  lseq   : BitVec 32
  fronds : Option (PlaneId × List HallFrond)
  deriving DecidableEq, Repr

/-- A receive context (R398): E, the frames held, the last arrival, and the oldest arrival not yet acknowledged. -/
structure RecvCtx where
  e     : BitVec 32
  held  : List HeldFrame := []
  last  : Nat
  ackAt : Option Nat := none
  deriving DecidableEq, Repr

/-- A frond on its way through a hall port, with the peer it goes to or comes from. -/
structure PeerFrond where
  peer  : BitVec 48
  plane : PlaneId
  f     : HallFrond
  deriving DecidableEq, Repr

/-- A hall port (R392, R397 to R400): the MAC's link, UP, QUIESCED, the fronds that wait to be sent, the contexts by peer, the fronds
delivered that wait for another open message to close, the message that is open by plane × 8 + VC in this die, as peer × 8 + the VC
it arrives on, the VCs of a peer that are in skip state, by peer × 32 + plane × 8 + VC, and the peer of the message being sent by
plane × 8 + VC. -/
structure HallPort where
  link  : Bool := false
  up    : Bool := false
  quiet : Bool := false
  wait  : List PeerFrond := []
  send  : Tbl (Option SendCtx) := []
  recv  : Tbl (Option RecvCtx) := []
  later : List PeerFrond := []
  owner : Tbl (Option Nat) := []
  skip  : Tbl Bool := []
  dest  : Tbl (BitVec 48) := []
  deriving DecidableEq, Repr

/-- The hall ports. -/
structure HallState where
  ports : Tbl HallPort := []
  deriving DecidableEq, Repr

end Sys2Proof.Machine
end

