-- ==== Sys2Proof/Machine/Arith.lean ====
section
/-! DEFINITION. Exact reduction arithmetic: formats, decoding, the long accumulator with its residues, the single
rounding, carriers and escape records (chapter 07). -/

namespace Sys2Proof.Machine

/-- A format code's parameters (R216): element bits, exponent bits, fraction bits, bias; `mx` a block of 32 with a scale. -/
structure Fmt where
  bits : Nat
  ebits : Nat
  fbits : Nat
  bias : Nat
  inf  : Bool
  mx   : Bool
  int  : Bool
  deriving DecidableEq, Repr

/-- The formats of R216; none for the reserved codes 11 to 15. -/
def fmtOf (c : Nat) : Option Fmt :=
  ([⟨32, 8, 23, 127, true, false, false⟩, ⟨16, 5, 10, 15, true, false, false⟩, ⟨16, 8, 7, 127, true, false, false⟩,
    ⟨8, 4, 3, 7, false, false, false⟩, ⟨8, 5, 2, 15, true, false, false⟩, ⟨8, 4, 3, 7, false, true, false⟩,
    ⟨6, 3, 2, 3, false, true, false⟩, ⟨4, 2, 1, 1, false, true, false⟩, ⟨8, 0, 6, 0, false, true, true⟩,
    ⟨32, 0, 0, 0, false, false, true⟩, ⟨8, 0, 0, 0, false, false, true⟩] : List Fmt)[c]?

/-- E4M3, alone or in a block: S.1111.111 is NaN and there is no infinity (R216). -/
def isE4M3 (f : Fmt) : Bool := !f.int && f.ebits == 4 && f.fbits == 3

/-- A format code names an MX format. -/
def isMx (c : Nat) : Bool := match fmtOf c with | some f => f.mx | none => false

/-- What one element contributes (R218, R223): a non-zero value in units of 2^-149, a zero, or a special. -/
inductive Contrib where
  | val (a : Int)
  | zero (neg : Bool)
  | nan
  | inf (neg : Bool)
  deriving DecidableEq, Repr

/-- A number of units of 2^-149 as a contribution; 0 is +0. -/
def contribInt (a : Int) : Contrib := if a = 0 then .zero false else .val a

/-- The value of an element's code; `sc` is X - 127 of its block, 0 outside MX formats (R218, R219). -/
def decodeElem (f : Fmt) (sc : Int) (code : Nat) : Contrib :=
  if f.int then contribInt (toSigned f.bits code * 2 ^ (149 + sc - (f.fbits : Int)).toNat)
  else
    let neg := code.testBit (f.bits - 1)
    let e := code >>> f.fbits % 2 ^ f.ebits
    let m := code % 2 ^ f.fbits
    let top := 2 ^ f.ebits - 1
    if f.inf && e == top then (if m = 0 then .inf neg else .nan)
    else if isE4M3 f && e == top && m == 2 ^ f.fbits - 1 then .nan
    else
      let mant := if e = 0 then m else 2 ^ f.fbits + m
      let sh := (149 + sc + ((max e 1 : Nat) : Int) - (f.bias : Int) - (f.fbits : Int)).toNat
      if mant = 0 then .zero neg else .val ((if neg then -1 else 1) * ((mant * 2 ^ sh : Nat) : Int))

/-- The bytes of one block: 1 + 32 elements for MX; of one group of scalar elements, one element (R220). -/
def unitBytes (f : Fmt) : Nat := if f.mx then 1 + 4 * f.bits else f.bits / 8

/-- The elements of one unit. -/
def unitElems (f : Fmt) : Nat := if f.mx then 32 else 1

/-- The bytes of `n` elements in a format (R220, R254). -/
def fmtBytes (f : Fmt) (n : Nat) : Nat := n / unitElems f * unitBytes f

/-- Decode one unit (R219, R220). Six- and four-bit elements lie in little-endian order from bit 0. -/
def decodeUnit (f : Fmt) (b : List Byte) : List Contrib :=
  if f.mx then
    let x := (byteAt b 0).toNat
    let v := leNat (b.drop 1)
    if x = 255 then List.replicate 32 .nan
    else (List.range 32).map (fun i => decodeElem f ((x : Int) - 127) (v >>> (f.bits * i) % 2 ^ f.bits))
  else [decodeElem f 0 (leNat b)]

/-- Decode `n` units. -/
def decodeUnits (f : Fmt) (b : List Byte) : Nat → List Contrib
  | 0 => []
  | n + 1 => decodeUnit f (b.take (unitBytes f)) ++ decodeUnits f (b.drop (unitBytes f)) n

/-- Decode whole elements or blocks; none where the data is not whole (R220). -/
def decodeData (f : Fmt) (b : List Byte) : Option (List Contrib) :=
  if b.length % unitBytes f = 0 then some (decodeUnits f b (b.length / unitBytes f)) else none

/-- A long accumulator (R221): `a` the 320-bit integer, `res` the residues, limb i in [6i + 5:6i], and `fl` the flags as
WIN[7:0] of R237 lays them out: NAN, PINF, MINF, OVFP, OVFM, NEGZ, EMPTY, RESERR. A zeroed one is EMPTY. -/
structure Acc where
  a   : BitVec 320 := 0
  res : BitVec 24 := 0
  fl  : BitVec 8 := 0x40
  deriving DecidableEq, Repr

def fNAN : Nat := 0
def fPINF : Nat := 1
def fMINF : Nat := 2
def fOVFP : Nat := 3
def fOVFM : Nat := 4
def fNEGZ : Nat := 5
def fEMPTY : Nat := 6
def fRESERR : Nat := 7

/-- Limb `i` of a 320-bit integer. -/
def limb (a : BitVec 320) (i : Nat) : Nat := fld a (80 * i) 80

/-- The residue of limb `i`. -/
def resOf (r : BitVec 24) (i : Nat) : Nat := fld r (6 * i) 6

/-- Residues of a 320-bit integer, as the generator derives them (R225). -/
def resGen (a : BitVec 320) : BitVec 24 :=
  BitVec.ofNat 24 ((List.range 4).foldl (fun t i => t + (limb a i % 63) * 2 ^ (6 * i)) 0)

/-- The limbs whose residue differs from their stored one (R226). -/
def resCheck (x : Acc) : BitVec 4 :=
  BitVec.ofNat 4 ((List.range 4).foldl (fun t i => if limb x.a i % 63 = resOf x.res i then t else t + 2 ^ i) 0)

/-- The state of R225's loop: the sum, the residues, the limbs that mismatch, the carry. -/
structure AddSt where
  a : Nat := 0
  r : Nat := 0
  bad : Nat := 0
  c : Nat := 0
  deriving DecidableEq, Repr

/-- One turn of R225's loop for limb `i`; `flip` inverts bit 0 of the computed sum (R229). -/
def addLimb (x : Acc) (d : BitVec 320) (rd : BitVec 24) (flip : Bool) (t : AddSt) (i : Nat) : AddSt :=
  let s : Nat := limb x.a i + limb d i + t.c
  let co : Nat := s / 2 ^ 80
  let l : Nat := if flip then (s % 2 ^ 80) ^^^ 1 else s % 2 ^ 80
  let r := (((resOf x.res i + resOf rd i + t.c : Nat) : Int) - 4 * (co : Int)) % 63
  { a := t.a + l * 2 ^ (80 * i), r := t.r + r.toNat * 2 ^ (6 * i), bad := if ((l % 63 : Nat) : Int) = r then t.bad else t.bad + 2 ^ i, c := co }

/-- An accumulator in sticky overflow, to which no finite value is added (R222). -/
def isSticky (x : Acc) : Bool := bitAt x.fl fOVFP || bitAt x.fl fOVFM

/-- A sum lies outside the 320-bit range (R222). -/
def outOfRange (x : Acc) (d : BitVec 320) : Bool :=
  let sum := x.a.toInt + d.toInt
  decide (2 ^ 319 ≤ sum) || decide (sum < -(2 ^ 319))

/-- Add a 320-bit contribution (R225): the accumulator and the limbs that mismatch. A sum outside the 320-bit range is
not made and sets OVFP or OVFM by the true sign; after that no finite contribution is added (R222). -/
def addBits (x : Acc) (d : BitVec 320) (rd : BitVec 24) (test : Option Nat) : Acc × BitVec 4 :=
  if bitAt x.fl fOVFP || bitAt x.fl fOVFM then (x, 0)
  else
    let sum := x.a.toInt + d.toInt
    if 2 ^ 319 ≤ sum then ({ x with fl := setBit x.fl fOVFP true }, 0)
    else if sum < -(2 ^ 319) then ({ x with fl := setBit x.fl fOVFM true }, 0)
    else
      let t := (List.range 4).foldl (fun t i => addLimb x d rd (test == some i) t i) {}
      ({ x with a := BitVec.ofNat 320 t.a, res := BitVec.ofNat 24 t.r }, BitVec.ofNat 4 t.bad)

/-- An accumulator that a mismatch has marked (R227). -/
def markBad (x : Acc) (bad : BitVec 4) : Acc := if bad = 0 then x else { x with fl := setBit x.fl fRESERR true }

/-- A contribution's flags: EMPTY and, for anything but -0, NEGZ are cleared (R223). -/
def touched (x : Acc) : Acc := { x with fl := setBit (setBit x.fl fEMPTY false) fNEGZ false }

/-- Add one contribution (R223): the accumulator and the limbs that mismatch. -/
def addContrib (x : Acc) (c : Contrib) (test : Option Nat) : Acc × BitVec 4 :=
  match c with
  | .val v =>
    let d := BitVec.ofInt 320 v
    let (y, bad) := addBits x d (resGen d) test
    (markBad (touched y) bad, bad)
  | .zero false => (touched x, 0)
  | .zero true =>
    ({ x with fl := setBit (if bitAt x.fl fEMPTY then setBit x.fl fNEGZ true else x.fl) fEMPTY false }, 0)
  | .nan => ({ touched x with fl := setBit (touched x).fl fNAN true }, 0)
  | .inf neg => ({ touched x with fl := setBit (touched x).fl (if neg then fMINF else fPINF) true }, 0)

/-- A carrier or an escape record as a contribution (R236 to R239): value, residues, flags, and the limbs of a record that
fail its own check, or all limbs for a carrier with a reserved bit set. -/
structure Partial where
  d   : BitVec 320 := 0
  rd  : BitVec 24 := 0
  fl  : BitVec 8 := 0
  bad : BitVec 4 := 0
  deriving DecidableEq, Repr

/-- Merge a partial into an accumulator (R239): the accumulator, the limbs that mismatch on the addition, and those of the record. -/
def addPartial (x : Acc) (p : Partial) (test : Option Nat) : Acc × BitVec 4 × BitVec 4 :=
  let x := markBad x p.bad
  let special := fld p.fl 0 5 != 0 || bitAt p.fl fRESERR
  let (y, bad) := if special || bitAt p.fl fEMPTY || bitAt p.fl fNEGZ then (x, 0) else addBits x p.d p.rd test
  let y := markBad y bad
  let fl := y.fl ||| (p.fl &&& 0x9F)
  let fl :=
    if bitAt p.fl fEMPTY then fl
    else
      let nz := if bitAt y.fl fEMPTY then bitAt p.fl fNEGZ else bitAt y.fl fNEGZ && bitAt p.fl fNEGZ
      setBit (setBit fl fNEGZ nz) fEMPTY false
  ({ y with fl := fl }, bad, p.bad)

/-- A carrier as a partial; an ESC carrier takes its record from the message's records (R237, R238). -/
def carrierPartial (c : Word) (escs : List (List Byte)) : Partial :=
  let we := fld c 56 8
  if we < 255 then
    let d := BitVec.ofInt 320 (toSigned 56 (fld c 0 56) * 2 ^ we)
    { d := d, rd := resGen d }
  else if bitAt c 8 then
    match escs[fld c 16 16]? with
    | none => { bad := 0xF }
    | some r =>
      let a := bytesBv 320 (sub r 0 40)
      let rd := bytesBv 24 (sub r 40 3)
      let x : Acc := { a := a, res := rd }
      { d := a, rd := rd, fl := byteAt r 43, bad := if fld c 9 7 ≠ 0 ∨ fld c 32 24 ≠ 0 then 0xF else resCheck x }
  else { fl := BitVec.ofNat 8 (fld c 0 8), bad := if fld c 9 7 ≠ 0 ∨ fld c 32 24 ≠ 0 then 0xF else 0 }

/-- Trailing zero bits of a number above 0, at most `n`. -/
def trailing (v : Nat) : Nat → Nat
  | 0 => 0
  | n + 1 => if v % 2 = 1 then 0 else 1 + trailing (v / 2) n

/-- What an accumulator is sent as (R238): a carrier, or an escape record. -/
inductive Sent where
  | carrier (c : Word)
  | escape (r : List Byte)
  deriving DecidableEq, Repr

/-- Encode an accumulator (R238). -/
def encodeAcc (x : Acc) : Sent :=
  let special (f : BitVec 8) : Sent := .carrier (mk 56 8 255 ||| mk 0 8 f.toNat)
  if fld x.fl 0 5 ≠ 0 ∨ bitAt x.fl fRESERR then special (x.fl &&& 0x9F)
  else if bitAt x.fl fEMPTY then special 0x40
  else if bitAt x.fl fNEGZ then special 0x20
  else if x.a = 0 then .carrier 0
  else
    let t := trailing x.a.toInt.natAbs 254
    let w := x.a.toInt / 2 ^ t
    if -(2 ^ 55) ≤ w ∧ w < 2 ^ 55 then .carrier (mk 56 8 t ||| mk 0 56 (ofSigned 56 w))
    else .escape (leBytes 40 x.a.toNat ++ leBytes 3 x.res.toNat ++ [x.fl] ++ List.replicate 4 0)

/-- Nearest integer to n / d, ties to even. -/
def roundEven (n d : Nat) : Nat :=
  let q := n / d
  let r := n % d
  if 2 * r < d then q else if d < 2 * r then q + 1 else if q % 2 = 0 then q else q + 1

/-- The position of the leading bit of n / d > 0: floor(log2(n / d)). -/
def floorLog2 (n d : Nat) : Int :=
  let e : Int := (n.log2 : Int) - (d.log2 : Int)
  if (if 0 ≤ e then decide (d * 2 ^ e.toNat ≤ n) else decide (d ≤ n * 2 ^ (-e).toNat)) then e else e - 1

/-- n / d divided by 2^q, rounded to an integer, ties to even. -/
def roundAt (n d : Nat) (q : Int) : Nat :=
  if 0 ≤ q then roundEven n (d * 2 ^ q.toNat) else roundEven (n * 2 ^ (-q).toNat) d

/-- The magnitude code of n / d > 0 in a floating-point format, before overflow is looked at (R232). -/
def floatCode (f : Fmt) (n d : Nat) : Nat :=
  let emin : Int := 1 - (f.bias : Int)
  let e := max (floorLog2 n d) emin
  let m := roundAt n d (e - (f.fbits : Int))
  if m < 2 ^ f.fbits then m else (e + (f.bias : Int)).toNat * 2 ^ f.fbits + (m - 2 ^ f.fbits)

/-- The largest finite magnitude code of a floating-point format (R216). -/
def maxCode (f : Fmt) : Nat :=
  if f.inf then (2 ^ f.ebits - 1) * 2 ^ f.fbits - 1
  else if isE4M3 f then 2 ^ (f.bits - 1) - 2
  else 2 ^ (f.bits - 1) - 1

/-- What an element is written as, before the format (R231): V as sign and n / d. -/
inductive Res where
  | mark
  | nan
  | inf (neg : Bool)
  | ovf (neg : Bool)
  | zero (neg : Bool)
  | val (neg : Bool) (n d : Nat)
  deriving DecidableEq, Repr

/-- R231 with the scale exponent k and the divisor N (R230). -/
def resultOf (x : Acc) (k : Int) (n : Nat) : Res :=
  let b (i : Nat) := bitAt x.fl i
  if b fRESERR then .mark
  else if b fNAN || (b fPINF && b fMINF) || (b fOVFP && b fOVFM) then .nan
  else if b fPINF then .inf false
  else if b fMINF then .inf true
  else if b fOVFP then .ovf false
  else if b fOVFM then .ovf true
  else if b fEMPTY then .zero false
  else if x.a = 0 then .zero (b fNEGZ)
  else
    let e := k - 149
    .val (decide (x.a.toInt < 0)) (x.a.toInt.natAbs * 2 ^ (max e 0).toNat) (n * 2 ^ (max (-e) 0).toNat)

/-- A sign put on a magnitude code. -/
def signed (f : Fmt) (neg : Bool) (m : Nat) : Nat := (if neg then 2 ^ (f.bits - 1) else 0) + m

/-- The NaN code of an output format (R234). -/
def nanCode (f : Fmt) : Nat :=
  if f.int then 2 ^ (f.bits - 1)
  else if isE4M3 f then 0x7F
  else if f.inf then (2 ^ f.ebits - 1) * 2 ^ f.fbits + 2 ^ (f.fbits - 1)
  else 0

/-- A result in a scalar output format (R232 to R234). E5M2's NaN is 0x7E, as the table gives it. -/
def encodeScalar (f : Fmt) (r : Res) : Nat :=
  let top (neg : Bool) : Nat :=
    if f.int then (if neg then 2 ^ (f.bits - 1) else 2 ^ (f.bits - 1) - 1)
    else if f.inf then signed f neg ((2 ^ f.ebits - 1) * 2 ^ f.fbits)
    else signed f neg (maxCode f)
  match r with
  | .mark => nanCode f
  | .nan => nanCode f
  | .inf neg => if isE4M3 f then 0x7F else top neg
  | .ovf neg => top neg
  | .zero neg => if f.int then 0 else signed f neg 0
  | .val neg n d =>
    if f.int then
      let m := roundEven n d
      if neg then ofSigned f.bits (-((min m (2 ^ (f.bits - 1)) : Nat) : Int)) else min m (2 ^ (f.bits - 1) - 1)
    else
      let m := floatCode f n d
      if maxCode f < m then top neg else signed f neg m

/-- An element of an MX block at shared exponent x: rounded to nearest even and saturated (R235). -/
def encodeMxElem (f : Fmt) (x : Int) (r : Res) : Nat :=
  let sat (neg : Bool) : Nat := if f.int then (if neg then 0x80 else 0x7F) else signed f neg (maxCode f)
  match r with
  | .mark => nanCode f
  | .nan => nanCode f
  | .inf _ => nanCode f
  | .ovf neg => sat neg
  | .zero neg => if f.int then 0 else signed f neg 0
  | .val neg n d =>
    let n' := n * 2 ^ (max (-x) 0).toNat
    let d' := d * 2 ^ (max x 0).toNat
    if f.int then
      let m := roundEven (n' * 2 ^ f.fbits) d'
      if neg then ofSigned 8 (-((min m 128 : Nat) : Int)) else min m 127
    else
      let m := floatCode f n' d'
      if maxCode f < m then sat neg else signed f neg m

/-- emax of an MX element format (R235). -/
def emaxOf (f : Fmt) : Int := if f.int then 0 else if isE4M3 f then 8 else if f.ebits = 3 then 4 else 2

/-- An infinity, NaN or residue mark in a block (R235). -/
def blockSpecial (r : Res) : Bool :=
  match r with
  | .mark => true
  | .nan => true
  | .inf _ => true
  | _ => false

/-- floor(log2) of the largest finite magnitude of a block, none when it is 0 (R235). -/
def blockLog (rs : List Res) : Option Int :=
  rs.foldl (fun m r => match r with
    | .val _ n d => let e := floorLog2 n d; (match m with | none => some e | some x => some (max x e))
    | _ => m) none

/-- One MX block of 32 results (R235). -/
def encodeBlock (f : Fmt) (rs : List Res) : List Byte :=
  let pack (scale : Nat) (codes : List Nat) : List Byte :=
    BitVec.ofNat 8 scale :: leBytes (4 * f.bits) (codes.foldr (fun c t => c % 2 ^ f.bits + t * 2 ^ f.bits) 0)
  if !isE4M3 f && rs.any blockSpecial then pack 255 []
  else
    let x : Int := match blockLog rs with | none => -127 | some e => min 127 (max (-127) (e - emaxOf f))
    pack (x + 127).toNat (rs.map (encodeMxElem f x))

/-- Blocks of 32 results. -/
def encodeBlocks (f : Fmt) (rs : List Res) : Nat → List Byte
  | 0 => []
  | n + 1 => encodeBlock f (rs.take 32) ++ encodeBlocks f (rs.drop 32) n

/-- Results in an output format, packed under R220. -/
def encodeResults (f : Fmt) (rs : List Res) : List Byte :=
  if f.mx then encodeBlocks f rs (rs.length / 32)
  else (rs.map (fun r => leBytes (f.bits / 8) (encodeScalar f r))).flatten

/-- A node's binary32 partial (R240): an EMPTY accumulator gives +0, one with RESERR 0x7FC0_0000. -/
def orderedPartial (x : Acc) : Nat :=
  match fmtOf 0 with
  | none => 0
  | some f => encodeScalar f (resultOf x 0 1)

/-- A binary32 partial as a contribution (R240). -/
def orderedContrib (w : Nat) : Contrib :=
  match fmtOf 0 with
  | none => .nan
  | some f => decodeElem f 0 w

end Sys2Proof.Machine
end

