-- ==== Sys2Proof/Machine/UnitsMore.lean ====
section
/-! DEFINITION. The state of the units that serve collective work and observation: multicast and combining queues,
reducers, ALLSUM, sync objects, barriers, dormancy, tallies, trace and dumps (chapters 06 to 08, 10 and 16). -/

namespace Sys2Proof.Machine

/-- The executor of an MCAST, by its chain on the root die (R196, R197, R199, R205): its descriptor, the unit that
executes, OPID, the next data message, whether it sends to the alternate root or to no one, the report that has arrived,
and when its last close went. -/
structure McExec where
  desc   : Nat
  unit   : SrcUnit
  opid   : Nat
  next   : Nat := 0
  toAlt  : Bool := false
  dead   : Bool := false
  poison : Bool := false
  sent   : List Nat := [0, 0, 0, 0]
  closed : Option Nat := none
  deriving DecidableEq, Repr

/-- The operation state of a member, by stand and chain (R198 to R205): OPID, closes received, PLANES and MEMBERS of the
closes, data bytes received and `PBYTES` by plane, landing writes outstanding, a failed one, whom it forwards to (the
alternate, or no one), the lowest-plane close to answer, whether a report from below is awaited or has arrived, and when
its last close went on. -/
structure McMember where
  opid    : Nat
  closes  : BitVec 4 := 0
  planes  : BitVec 4 := 0
  members : Nat := 1
  rx      : List Nat := [0, 0, 0, 0]
  pbytes  : List Nat := [0, 0, 0, 0]
  writes  : Nat := 0
  failed  : Bool := false
  toAlt   : Bool := false
  dead    : Bool := false
  close   : Option Msg := none
  await   : Bool := false
  report  : Option (BitVec 128) := none
  lastAt  : Nat := 0
  deriving DecidableEq, Repr

/-- Multicast: executors by chain, the chains' operation counts, members by stand × 64 + chain. -/
structure McState where
  execs   : Tbl (Option McExec) := []
  ops     : Tbl Nat := []
  members : Tbl (Option McMember) := []
  deriving DecidableEq, Repr

/-- A landing position of a combining queue (R212): OPEN or DONE when it holds contributions, with its finals. -/
structure CmbPos where
  held   : Bool := false
  finals : Nat := 0
  deriving DecidableEq, Repr

/-- A delivery under way (R213): its status, the writes outstanding, a failed one, and whether the status has been sent. -/
structure CmbDel where
  status : Status
  finals : Nat
  todo   : Nat := 0
  failed : Bool := false
  tail   : Bool := false
  deriving DecidableEq, Repr

/-- A combining queue's state (R208, R212): `NEXT`, `SHORT`, `LATE`, its positions, the start of the timer of NEXT's
position, and the delivery under way. -/
structure CmbQ where
  next  : BitVec 16 := 0
  short : Nat := 0
  late  : Nat := 0
  pos   : Tbl CmbPos := []
  timer : Option Nat := none
  del   : Option CmbDel := none
  deriving DecidableEq, Repr

/-- The reducers: combining queues by stand × 8 + queue, accumulators by stand × 16384 + index, and the forced mismatch
armed at a stand: limb and accumulator (R229). -/
structure RedState where
  cmb  : Tbl CmbQ := []
  accs : Tbl Acc := []
  test : Tbl (Option (Nat × Nat)) := []
  deriving DecidableEq, Repr

/-- A group on this die (R244, R247): its record, the flags, the tag and `OPSEQ`. -/
structure Group where
  valid  : Bool := false
  run    : Bool := false
  armed  : Bool := false
  tag    : BitVec 16 := 0
  opseq  : BitVec 16 := 0
  record : List Byte := []
  deriving DecidableEq, Repr

/-- The operation of a group on this die (R254, R274 to R276): its descriptor, the member stands that have landed or
abandoned everything, the summary's totals, and the flags that have reached this die. -/
structure OpSt where
  desc    : Nat
  raw     : List Byte
  opseq   : BitVec 16
  fired   : Bool := false
  landed  : List Nat := []
  totals  : Option (Nat × Nat) := none
  sumGone : Bool := false
  lost    : Bool := false
  poison  : Bool := false
  reserr  : Bool := false
  deriving DecidableEq, Repr

/-- A share of a segment at a node of a stage (R266, R278, R282): the ranks whose LAST has arrived, the members counted,
the flags, the first arrival, and whether the node is complete or has replayed; the elements received by rank, the ranks whose earlier
partial a replay passes over, and whether the collector has been told of the replay. -/
structure ShSt where
  last   : List Nat := []
  got    : Tbl Nat := []
  skip   : List Nat := []
  told   : Bool := false
  mcount : Nat := 0
  lost   : Bool := false
  poison : Bool := false
  reserr : Bool := false
  since  : Option Nat := none
  done   : Bool := false
  replay : Bool := false
  deriving DecidableEq, Repr

/-- A segment at a member stand (R266, R269, R280): its own contribution is formed and sent, the shares at their stages
(share × 8 + stage), the shares landed, and when its stage-1 data went. -/
structure SegSt where
  own    : Bool := false
  shares : Tbl ShSt := []
  landed : List Nat := []
  sentAt : Nat := 0
  deriving DecidableEq, Repr

/-- The summary at a member stand (R271): by stage, the ranks received, MCOUNT and flags; the dropped counts summed so far;
and when its own SUMMARY went. -/
structure SumSt where
  sent    : Bool := false
  stages  : Tbl ShSt := []
  dropped : Nat := 0
  sentAt  : Nat := 0
  deriving DecidableEq, Repr

/-- A unit that is lost to a node: from which segment on, at which share there, its stage and rank (R278). -/
structure LostUnit where
  seg   : Nat
  share : Nat
  stage : Nat
  rank  : Nat
  deriving DecidableEq, Repr

/-- A staged tile (R259): its first element, and the place and the number of its data bytes in the staging bank. -/
structure Tile where
  first : Nat
  pos   : Nat
  len   : Nat
  deriving DecidableEq, Repr

/-- A staged operation at a member stand (R256 to R260, R269): the declaration as read, whether the member cannot
contribute, its start, its FINAL tile, the staged tiles, the staging bytes used, elements dropped, the
segments that its two banks are open for, the segments closed, the open segments, the units lost, the
summary, whether every result has landed or is abandoned, and whether any was abandoned. -/
structure MemSt where
  push    : Bool
  ifmt    : Nat
  ncount  : Nat
  cannot  : Bool := false
  started : Bool := false
  final   : Bool := false
  tiles   : List Tile := []
  used    : Nat := 0
  dropped : Nat := 0
  poison  : Bool := false
  reserr  : Bool := false
  open0   : Nat := 0
  open1   : Nat := 1
  closed  : Nat := 0
  segs    : Tbl SegSt := []
  lost    : List LostUnit := []
  sum     : SumSt := {}
  gone    : Bool := false
  missed  : Bool := false
  deriving DecidableEq, Repr

/-- ALLSUM: the groups, the operations by group, the members by stand × 64 + group. -/
structure AllState where
  groups : Tbl Group := []
  ops    : Tbl (Option OpSt) := []
  mems   : Tbl (Option MemSt) := []
  deriving DecidableEq, Repr

/-- A sync object (R319). -/
structure SyncObj where
  count  : BitVec 32 := 0
  target : BitVec 32 := 0
  alloc  : Bool := false
  ovf    : Bool := false
  unf    : Bool := false
  misuse : Bool := false
  deriving DecidableEq, Repr

/-- A unit of another die that waits (R32): its SRC, the number of its acceptor there, and its descriptor. -/
structure FarUnit where
  src : BitVec 26
  no  : Nat
  id  : Nat
  deriving DecidableEq, Repr

/-- A watch that a home holds (R326), for the WAIT of a descriptor of a unit of this die or of another. -/
structure Watch where
  obj    : Nat
  target : BitVec 32
  acc    : Acceptor
  desc   : Nat
  far    : Option FarUnit := none
  deriving DecidableEq, Repr

/-- How a WAIT waits: its registration is on its way, held as a watch, reported, or refused and polled (R326, R327). -/
inductive WaitMode where
  | asking | watched | reported (r : Status) | polling
  deriving DecidableEq, Repr

/-- A WAIT at its unit (R165): its descriptor, the object's address, `TARGET`, `TIMEOUT` in µs, its start, the count
that the last poll read, the colour of a poll that its shaper holds, and whether that is the read of the target, the count's having gone. -/
structure WaitSt where
  desc   : Nat
  addr   : Word
  target : BitVec 32
  tmo    : Nat
  start  : Nat
  mode   : WaitMode := .asking
  count  : Option (BitVec 32) := none
  colour : Option (BitVec 2) := none
  second : Bool := false
  deriving DecidableEq, Repr

/-- A barrier (R332, R334, R336): its registers, the moment of the phase's first arrival, and the dies known arrived. -/
structure Bar where
  mask    : BitVec 48 := 0
  en      : Bool := false
  pkg     : Bool := false
  dmask   : BitVec 4 := 0
  broken  : Bool := false
  phase   : Bool := false
  tmo     : BitVec 16 := 0
  tag     : BitVec 16 := 0
  arrived : BitVec 48 := 0
  first   : Option Nat := none
  vec     : BitVec 4 := 0
  deriving DecidableEq, Repr

/-- Sync objects, watches by home stand, triggers by group, WAITs by acceptor number, barriers (R318 to R336), what waits for SERVICE
(R343): the reports to other dies, with the home they come from, and the releases of ports from barriers; and the phase and vector
that this die passes on for a package barrier that is not its own, by barrier (R336). -/
structure SyncState where
  objs    : Tbl SyncObj := []
  watches : Tbl (List Watch) := []
  trigs   : Tbl (Option (Nat × BitVec 32)) := []
  waits   : Tbl (Option WaitSt) := []
  bars    : Tbl Bar := []
  held    : List (Nat × FarUnit × Status) := []
  rels    : List (StandId × Nat × Status) := []
  relay   : Tbl (Bool × BitVec 4) := []
  deriving DecidableEq, Repr

/-- The states of the dormancy controller (R338). -/
inductive DormPhase where
  | service | proposed | entering | dormant | exiting
  deriving DecidableEq, Repr

/-- The dormancy controller (R338 to R342): the round, the voters whose YES is on its way and those whose YES has arrived, the voters that
have sent NO for a wake request, with whether they had not voted before, the stands
that have taken COMMIT, the banks whose `RET` each stand set, and the last moment at which work that R339 names ended at a stand. -/
structure DormState where
  phase  : DormPhase := .service
  latched : Bool := false
  why    : Nat := 0
  round  : Nat := 0
  cast   : List Voter := []
  yes    : List Voter := []
  nos    : List (Voter × Bool) := []
  taken  : List StandId := []
  banks  : List (StandId × Nat) := []
  at_    : Nat := 0
  act    : Nat := 0
  exitNs : Nat := 0
  deriving DecidableEq, Repr

/-- Drops since the last LOSS record: how many, and the moment of the first (R481). -/
structure Drops where
  n     : Nat := 0
  since : Nat := 0
  deriving DecidableEq, Repr

/-- The states of a dump (R482). -/
inductive DumpPhase where
  | idle | freezing | capturing | frozen
  deriving DecidableEq, Repr

/-- Tallies, trace and dumps (R468 to R486): the snapshot and its moment, records held at sources (by SRCU), drops at
sources, the unit's staging (oldest first) with the moment of its oldest, drops at the unit and at the buffer, `WR`, and
the dump: its phase, refusal, start, duration, freeze instant and the areas captured. -/
structure ObsState where
  snap     : Tbl Word := []
  snapTime : Word := 0
  hold     : Tbl (List (List Byte)) := []
  srcDrop  : Tbl Drops := []
  stage    : List (List Byte) := []
  stageAt  : Nat := 0
  unitDrop : Drops := {}
  bufDrop  : Drops := {}
  wr       : BitVec 32 := 0
  dump     : DumpPhase := .idle
  refused  : Bool := false
  dumpAt   : Nat := 0
  durUs    : Nat := 0
  areas    : List Nat := []
  deriving DecidableEq, Repr

end Sys2Proof.Machine
end

