-- ==== Sys2Proof/Machine/State.lean ====
section
/-! DEFINITION. The state of the block: every register, buffer, table, counter and mode of the spec as plain data, the
queue of waiting commands, and the state after reset (log 1). -/

namespace Sys2Proof.Machine

/-- Why a step could stop. No command of this block raises one: every row of the table has an effect (NOTES.md,
'## Stops'). The constructor is the host's form; raising it would be safe, since the run would end. -/
inductive Fault where
  | none_
  deriving DecidableEq, Repr

/-- Why a command could be refused by the model. `notModelled` is raised only by an arm of `exec` that has no meaning
yet; that is safe, since the run ends there. -/
inductive Refusal where
  | notModelled (mnemonic : String)
  deriving DecidableEq, Repr

/-- The block. `regs` holds the registers that are plain storage, by byte offset in the set-up window, and `banked` the
double-banked ones, by parity × 2^24 + offset (R52, R97, R99, R102). `time` is `TIME[63:0]`, `free` counts the free
values drawn (log 4), `out` is what the block has sent, newest first (log 7), `todo` what the
step under way has still to report to its units (empty between steps), `pending` the commands that wait. -/
structure State where
  time    : Nat := 0
  mg      : MgState := {}
  regs    : Tbl Word := []
  banked  : Tbl Word := []
  epoch   : EpochState := {}
  map     : MapState := {}
  mesh    : MeshState := {}
  trans   : TransState := {}
  tnt     : TntState := {}
  host    : HostState := {}
  chan    : Tbl ChanCnt := []
  port    : PortState := {}
  slice   : SliceState := {}
  brg     : BrgState := {}
  mc      : McState := {}
  red     : RedState := {}
  all     : AllState := {}
  sync    : SyncState := {}
  dorm    : DormState := {}
  obs     : ObsState := {}
  flt     : FltState := {}
  bup     : BupState := {}
  pwr     : PwrState := {}
  tbl     : TblState := {}
  hall    : HallState := {}
  free    : Nat := 0
  out     : List Out := []
  todo    : List Done := []
  pending : List Instr := []
  deriving DecidableEq, Repr

/-- The machine right after `FAB_PORST_N` is released: every table lists nothing, so every register reads its reset
value, and no command waits (R374; log 1). -/
def State.reset : State := {}

end Sys2Proof.Machine
end

