-- ==== Sys2Proof/Machine/Ops.lean ====
section
/-! DEFINITION. The named operations over the state that every family uses: registers, the double-banked registers,
outputs, events, time, girdles and free values. -/

namespace Sys2Proof.Machine

/-- Every register of the window that is plain storage or a view (R494 to R498), by byte offset. -/
def regInfo (off : Nat) : Option RegInfo :=
  match standWindow off with
  | some (st, o) => stdReg st.val o
  | none =>
    if off < 0x1000 then glbReg off
    else if off < 0x2000 then fltReg off
    else if off < 0x4000 then pwrReg off
    else if off < 0x20000 then hstReg off
    else if off < 0xB0000 then arrayReg off
    else if off < 0xC0000 then canopyReg off
    else if off < 0xD0000 then obsReg off
    else if off < 0xE0000 then tblReg off
    else mapReg off

/-- What a register reads that nothing has written: its reset value; 0 where no register stands (R9). -/
def regReset (off : Nat) : Word := ((regInfo off).map RegInfo.reset).getD 0

/-- A stored register. -/
def regGet (s : State) (off : Nat) : Word := tget regReset s.regs off

/-- Store a register. -/
def regSet (s : State) (off : Nat) (v : Word) : State := { s with regs := tset regReset s.regs off v }

/-- Set the field of `len` bits from `lo` of a stored register. -/
def regPut (s : State) (off lo len v : Nat) : State := regSet s off (put lo len v (regGet s off))

/-- A field of a stored register. -/
def regFld (s : State) (off lo len : Nat) : Nat := fld (regGet s off) lo len

/-- A bit of a stored register. -/
def regBit (s : State) (off i : Nat) : Bool := bitAt (regGet s off) i

/-- Add to a saturating counter field of a stored register. -/
def regCount (s : State) (off lo len n : Nat) : State := regPut s off lo len (satAdd len (regFld s off lo len) n)

/-- The value of a register after a write of `v` under the masks of its type (R11); `wm` has the bits written. -/
def regWritten (i : RegInfo) (wm old v : Word) : Word := merge (i.rw &&& wm) old v &&& ~~~(v &&& i.w1c &&& wm)

/-- A write of a register without effects of its own (R11, R13). -/
def regWritePlain (wm : Word) (off : Nat) (v : Word) (s : State) : State :=
  match regInfo off with
  | none => s
  | some i => regSet s off (regWritten i wm (regGet s off) v)

/-- The value that a write of `v` would leave in the RW bits of a register. -/
def regNext (s : State) (wm : Word) (off : Nat) (v : Word) : Word :=
  match regInfo off with
  | none => 0
  | some i => regWritten i wm (regGet s off) v

/-- Add to a 64-bit tally, which wraps (R467). -/
def tally (s : State) (off n : Nat) : State := regSet s off (regGet s off + BitVec.ofNat 64 n)

/-- Number of a parity. -/
def parNo (b : Bool) : Nat := if b then 1 else 0

/-- The parity of the current epoch: EPOCH[0] (R110). The active bank is that of this parity, the staged bank the other. -/
def parity (s : State) : Bool := s.epoch.epoch.getLsbD 0

/-- Reset value of a double-banked register, the same in both banks; keyed parity × 2^24 + staged offset. -/
def bankedReset (key : Nat) : Word := regReset (key % 2 ^ 24)

/-- Key of a double-banked register in the bank of a parity. -/
def bkKey (par : Bool) (off : Nat) : Nat := if par then 16777216 + off else off

/-- A double-banked register of the bank of a parity. -/
def bkGet (s : State) (par : Bool) (off : Nat) : Word := tget bankedReset s.banked (bkKey par off)

/-- Store into the bank of a parity. -/
def bkSet (s : State) (par : Bool) (off : Nat) (v : Word) : State :=
  { s with banked := tset bankedReset s.banked (bkKey par off) v }

/-- A staged write of a double-banked register: the RW bits of its type. -/
def bkWrite (wm : Word) (off : Nat) (v : Word) (s : State) : State :=
  match regInfo off with
  | none => s
  | some i => bkSet s (!parity s) off (regWritten i wm (bkGet s (!parity s) off) v)

/-- The moment at which a tenant, ring or raw command that starts now is done: within 1 µs (R126, R316; log 18). -/
def cmdEnd (s : State) : Nat := s.time + min 1000 (Config.cmdTime s.time)

/-- `DONE` of a command register (R125, R166). -/
def cmdDone (s : State) (r : CmdResult) : Bool := decide (r.till ≤ s.time)

/-- Send something. -/
def emit (s : State) (o : Out) : State := { s with out := o :: s.out }

/-- Send a rhizome message (R32). -/
def sendRhz (s : State) (r : Rhz) : State := emit s (.rhz r)

/-- A stand is girdled at the fault collector (R419). -/
def girdled (s : State) (st : Nat) : Bool := bitAt s.map.gstand st

/-- The tags of the centre taps (R29, R168). -/
def centreTaps : List Nat := [19, 20, 27, 28]

/-- Mesh neighbours: the stand beyond an output 0 N, 1 E, 2 S, 3 W (R17, R97). -/
def neighbour (st : Nat) (dir : Nat) : Option Nat :=
  match dir with
  | 0 => if sy st = 0 then none else some (st - 8)
  | 1 => if sx st = 7 then none else some (st + 1)
  | 2 => if sy st = 5 then none else some (st + 8)
  | 3 => if sx st = 0 then none else some (st - 1)
  | _ => none

/-- The stands that rhizome paths through stands in service join to a set, `n` hops out (R421). -/
def reachN (s : State) : Nat → List Nat → List Nat
  | 0, l => l
  | n + 1, l => reachN s n ((List.range 48).filter (fun st => !girdled s st &&
      (l.contains st || (List.range 4).any (fun d => match neighbour st d with | some b => l.contains b | none => false))))

/-- The stands that a rhizome path from the collector reaches (R29, R421). -/
def reached (s : State) : List Nat := reachN s 48 (centreTaps.filter (fun t => !girdled s t))

/-- No rhizome path joins a stand in service to the collector: a message between them is discarded (R421). -/
def noPath (s : State) (st : Nat) : Bool :=
  decide (st < 48) && decide (s.map.gstand ≠ 0) && !girdled s st && !(reached s).contains st

/-- Raise an event: it travels to the fault collector from the moment at which it is raised (R32, R410, R411), or, with no path there, is
discarded on its way (R421). PARTITION and SILENT are the collector's own. -/
def raise (s : State) (c : Cause) (loc : Nat) (sub : Nat) (detail : Word) : State :=
  { s with flt := { s.flt with
      inbox := s.flt.inbox ++
        [{ family := c.family, cause := c.cause, loc := BitVec.ofNat 7 loc, sub := BitVec.ofNat 8 sub, detail := detail }]
      sent := s.flt.sent ++ [(s.time, decide (c ≠ cPartition) && decide (c ≠ cSilent) && noPath s loc)] } }

/-- Die-wide units as locations (R407). -/
def locHost : Nat := 48
def locMgmt : Nat := 49
def locFault : Nat := 50
def locTrace : Nat := 51
def locTable : Nat := 52
def locPace : Nat := 53
def locEdge (e : Nat) : Nat := 56 + e
def locHall (h : Nat) : Nat := 60 + h

/-- A register write that a rule refuses: no effect but a TABLE WRITE_REFUSED event, at the stand of a stand window,
else at the management port; DETAIL holds the register offset (R406, R407). -/
def refuseWrite (s : State) (off : Nat) : State :=
  match standWindow off with
  | some (st, _) => raise s cWriteRefused st.val 0 (BitVec.ofNat 64 off)
  | none => raise s cWriteRefused locMgmt 0 (BitVec.ofNat 64 off)

/-- Move `TIME` to a moment that is due; `TIME` never decreases (R361; log 3). -/
def advanceTo (s : State) (t : Nat) : State := { s with time := max s.time t }

/-- Work that keeps a stand from voting YES ends now (R338, R339; log 107). -/
def workEnds (s : State) : State := { s with dorm := { s.dorm with act := max s.dorm.act s.time } }

/-- Draw the next free byte (log 4). -/
def drawByte (s : State) : Byte × State := (Config.freeByte s.free, { s with free := s.free + 1 })

/-- Draw `n` free bytes (log 4). -/
def drawBytes (s : State) (n : Nat) : List Byte × State :=
  ((List.range n).map (fun i => Config.freeByte (s.free + i)), { s with free := s.free + n })

/-- Draw a free 32-bit value (log 4). -/
def drawWord32 (s : State) : BitVec 32 × State := (Config.freeWord32 s.free, { s with free := s.free + 1 })

/-- A core port is girdled (R419, R365). -/
def portGirdled (s : State) (k : Nat) : Bool := bitAt s.map.gport k

/-- A plane-link is girdled (R419). -/
def linkGirdled (s : State) (n : Nat) : Bool := bitAt s.map.glink n

/-- A core port of a fenced site (R492). -/
def fenced (s : State) (k : Nat) : Bool := regBit s 0x8 k

/-- The unit numbers of girdles: stands 0.., links 48.., ports 376.. -/
def gunitNo : GUnit → Nat
  | .stand s => s.val
  | .link n => 48 + n.val
  | .port k => 376 + k.val

/-- The fatal latch is set (R433). -/
def fatalLatched (s : State) : Bool := s.flt.fatal.isSome

/-- A unit that a dump has frozen: 0..47 the stand and its port, 48 the die-wide units (R483, R484). -/
def frozenAt (s : State) (n : Nat) : Bool := decide (s.obs.dump ≠ .idle) && decide (n ∈ s.obs.areas)

/-- From COMMIT until the exit is complete (R343). -/
def dormHeld (s : State) : Bool :=
  decide (s.dorm.phase = .entering) || decide (s.dorm.phase = .dormant) || decide (s.dorm.phase = .exiting)

/-- The centre tap that a die-wide unit uses: the first of 19, 20, 27, 28 that is not girdled (R29; log 10). -/
def centreTap (s : State) : StandId := standOf ((centreTaps.find? (fun t => !girdled s t)).getD 19)

/-- The tap stand of a hall port (R28). -/
def hallTap (h : Nat) : Nat := ([8, 32, 15, 39, 2, 5, 42, 45] : List Nat).getD h 8

/-- The hall port of a tap stand (R28). -/
def tapHall (st : Nat) : Option (Fin 8) := (List.finRange 8).find? (fun h => hallTap h.val == st)

/-- The core site of a port: s = (y ÷ 2) × 4 + x ÷ 2 (R21). -/
def siteOf (k : Nat) : Nat := (sy k / 2) * 4 + sx k / 2

/-- The four ports of a site in the order of R62. -/
def sitePorts (site : Nat) : List Nat :=
  let i := site % 4
  let j := site / 4
  [2 * j * 8 + 2 * i, 2 * j * 8 + 2 * i + 1, (2 * j + 1) * 8 + 2 * i, (2 * j + 1) * 8 + 2 * i + 1]

/-- The first port of `k`'s site, in the order of R62, whose stand is not girdled. -/
def siteFirst (s : State) (k : Nat) : Option StandId :=
  ((sitePorts (siteOf k)).find? (fun p => !girdled s p)).map standOf

/-- The first port of `k`'s site, in the order of R62, that serves target requests: neither its stand nor the port is girdled (R365). -/
def siteServing (s : State) (k : Nat) : Option StandId :=
  ((sitePorts (siteOf k)).find? (fun p => !girdled s p && !portGirdled s p)).map standOf

/-- The link of a stand in a direction, 0..81 (R419). -/
def linkOf (st dir : Nat) : Option Nat :=
  match dir with
  | 0 => if sy st = 0 then none else some (42 + (sy st - 1) * 8 + sx st)
  | 1 => if sx st = 7 then none else some (sy st * 7 + sx st)
  | 2 => if sy st = 5 then none else some (42 + sy st * 8 + sx st)
  | 3 => if sx st = 0 then none else some (sy st * 7 + (sx st - 1))
  | _ => none

/-- The plane-link of a stand's plane in a direction (R419): link × 4 + plane. -/
def planeLink (st pl dir : Nat) : Option Nat := (linkOf st dir).map (fun l => l * 4 + pl)

/-- The two stands of a link, the lower index first (R419). -/
def linkEnds (l : Nat) : Nat × Nat :=
  if l < 42 then (l / 7 * 8 + l % 7, l / 7 * 8 + l % 7 + 1) else ((l - 42) / 8 * 8 + (l - 42) % 8, (l - 42) / 8 * 8 + (l - 42) % 8 + 8)

/-- The ACTIVE entry that holds a tag (R127). -/
def tenantOf (s : State) (tag : BitVec 16) : Option (Nat × Tenant) :=
  s.tnt.entries.findSome? (fun (n, t) => t.bind (fun t => if t.tag = tag then some (n, t) else none))

/-- An ACTIVE entry. -/
def tenantAt (s : State) (n : Nat) : Option Tenant := oget s.tnt.entries n

/-- The entry bound to a core port, if the port is bound (R129). -/
def boundEntry (s : State) (k : StandId) : Option Nat :=
  if regBit s (stdOff k 0x1C0) 63 then some (regFld s (stdOff k 0x1C0) 0 12) else none

/-- The tag bound to a core port (R129). -/
def boundTag (s : State) (k : StandId) : Option (BitVec 16) :=
  if regBit s (stdOff k 0x1C0) 63 then some (BitVec.ofNat 16 (regFld s (stdOff k 0x1C0) 16 16)) else none

/-- This die's upper coordinates as address bits [59:40] (R41, R51): rack, tray, package, die. -/
def selfUpper (s : State) : Nat := regFld s 0x10 0 20

/-- The SRC of a stem from a stand of this die (R65, R74). -/
def srcOf (s : State) (st : Nat) : BitVec 26 := BitVec.ofNat 26 (selfUpper s * 64 + sy st * 8 + sx st)

/-- A bridge module. -/
def modAt (s : State) (e m : Nat) : ModSt := cget {} s.brg.mods (e * 16 + m)

/-- Set a bridge module. -/
def setMod (s : State) (e m : Nat) (x : ModSt) : State :=
  { s with brg := { s.brg with mods := cset {} s.brg.mods (e * 16 + m) x } }

/-- The module of an edge position that carries a plane: 2p for planes 0 and 1, 2p + 1 for planes 2 and 3 (R26). -/
def moduleOf (pos pl : Nat) : Nat := 2 * pos + pl / 2

/-- The edge that an outward port of a stand belongs to (R25): the direction is 0 N, 1 E, 2 S, 3 W and has no neighbour. -/
def outwardEdge (st dir : Nat) : Option Nat := if dir < 4 ∧ (neighbour st dir).isNone then some dir else none

/-- Key of a VC of a plane at an edge position. -/
def edgeKey (e pos pl vc : Nat) : Nat := ((e * 8 + pos) * 4 + pl) * 8 + vc

/-- A VC of a plane at an edge position. -/
def edgeVc (s : State) (e pos pl vc : Nat) : EdgeVc := cget {} s.brg.vcs (edgeKey e pos pl vc)

/-- Set a VC of a plane at an edge position. -/
def setEdgeVc (s : State) (e pos pl vc : Nat) (x : EdgeVc) : State :=
  { s with brg := { s.brg with vcs := cset {} s.brg.vcs (edgeKey e pos pl vc) x } }

/-- The outcome of a command that runs: a next state. -/
abbrev Step := Host.Outcome State Fault Refusal

/-- The step with no command waiting: `TIME` counts one nanosecond on (R361; log 2). -/
def idle (s : State) : Step := .next { s with time := s.time + 1 }

end Sys2Proof.Machine
end

