-- ==== Sys2Proof/Machine/Mgmt.lean ====
section
/-! DEFINITION. The management port: how a register write reaches its effect (R11 to R14, R371 to R375, R499). -/

namespace Sys2Proof.Machine

/-- What no command's effect changes: the queue of commands and the management port's own state; `TIME` never decreases
(R361), and nothing is left to report. -/
def keep (s t : State) : State := { t with pending := s.pending, mg := s.mg, time := max s.time t.time, todo := [] }

/-- A command's effect while the block is out of reset; `FAB_PORST_N` low holds the block in reset (R374). -/
def run (s : State) (f : State → State) : Step := .next (if s.mg.porst then keep s (f s) else s)

/-- The change of an input pin, or of a MAC's link: while `FAB_PORST_N` is low only its level changes, by `low` (R366, R374, R375; log 27). -/
def runPin (s : State) (low f : State → State) : Step := if s.mg.porst then run s f else .next (low s)

/-- An offset in the stand window of a girdled stand (R372). Its `STD_SLC_CTL` at 0x7A0 and its raw window at 0x7C0 to 0x7F0 are served: TEST,
RECOVERY and the raw window are for such a stand alone (R314 to R317; log 21). -/
def windowGirdled (s : State) (off : Nat) : Bool :=
  match standWindow off with
  | some (st, o) => girdled s st.val && o / 8 != 0x7A0 / 8 && !(decide (0x7C0 ≤ o) && decide (o < 0x7F8))
  | none => false

/-- The port's answer to an access. -/
def mgAnswer (s : State) (rdata : BitVec 32) (err : Bool) : State :=
  { s with mg := { s.mg with rdata := rdata, err := err } }

/-- The held low word goes (R13). -/
def dropLow (s : State) : State := { s with mg := { s.mg with held := none } }

/-- A 64-bit register write through the management port, low word then high word: `eff` is the register's effect under
the mask of the bits written (R13). While `FAB_PORST_N` is low the access is not served; while `MG_RST_N` is low none is
offered; in the window of a girdled stand it has no effect (R372 to R375). -/
def mgWrite64 (s : State) (off : Nat) (v : Word) (eff : Word → Word → State → State) : State :=
  if !s.mg.porst then mgAnswer s 0 true
  else if !s.mg.rstN then s
  else
    if windowGirdled s off then mgAnswer (dropLow s) 0 true
    else mgAnswer (keep (dropLow s) (eff allBits v (dropLow s))) 0 false

/-- The same as a step. -/
def mgStep (s : State) (off : Nat) (v : Word) (eff : Word → Word → State → State) : Step :=
  .next (mgWrite64 s off v eff)

/-- Stage S4 has reported (R375, R439). -/
def afterS4 (s : State) : Bool := decide (5 ≤ s.bup.reported)

/-- `FLT_CLASS[f][c]` (R408). -/
def classOff (f c : Nat) : Nat := 0x1100 + (f * 16 + c) * 8

/-- A source: family, cause, location, sub-location (R407, R409). -/
def srcKey (e : Ev) : Nat := ((e.family.val * 16 + e.cause.val) * 128 + e.loc.toNat) * 256 + e.sub.toNat

/-- The class of the next occurrence of a source, in static mode or by its leaky bucket (R409): its class, whether it is escalated, and
the bucket after it. A bucket begins empty at the source's first occurrence. -/
def classify (s : State) (e : Ev) : Nat × Bool × Option FltBucket :=
  let r := regGet s (classOff e.family.val e.cause.val)
  let cls := fld r 60 2
  if bitAt r 62 || !bitAt r 63 then (cls, false, oget s.flt.buckets (srcKey e))
  else
    let n := max 1 (fld r 32 16)
    let t := max 1 (fld r 0 32) * 1000
    let cap := if fld r 58 2 = 2 then 2 else 1
    let b := (oget s.flt.buckets (srcKey e)).getD { last := s.time }
    let credit := b.credit + (s.time - b.last) * n
    let level := b.level - credit / t + 1
    let up := decide (n ≤ level) && decide (cls + b.step < cap)
    let b' : FltBucket := { credit := credit % t, last := s.time, level := if up then 0 else level, step := if up then b.step + 1 else b.step }
    (cls + b'.step, decide (0 < b'.step), some b')

/-- An order of a family is armed and may act: from the end of S4, REHOME from S7 (R416, R442). -/
def armed (s : State) (f bit : Nat) : Bool :=
  regBit s (0x1080 + f * 8) bit && afterS4 s && !fatalLatched s && (bit != 3 || decide (7 ≤ s.bup.reported))

end Sys2Proof.Machine
end

