-- ==== Sys2Proof/Machine/Ecc.lean ====
section
/-! DEFINITION. The Reed–Solomon code of a slice word over GF(2^8) with x^8 + x^4 + x^3 + x^2 + 1: 32 data and 4 check symbols, minimum
distance 5, and the poison marker (R288, R289). -/

namespace Sys2Proof.Machine

/-- A product in GF(2)[x] of two polynomials of degree below 8. -/
def clMul (a b : Nat) : Nat := (List.range 8).foldl (fun p i => if b.testBit i then p ^^^ (a <<< i) else p) 0

/-- A polynomial of degree below 15 reduced by x^8 + x^4 + x^3 + x^2 + 1. -/
def gfReduce (p : Nat) : Nat := ([6, 5, 4, 3, 2, 1, 0] : List Nat).foldl (fun p i => if p.testBit (i + 8) then p ^^^ (0x11D <<< i) else p) p

/-- The product in GF(2^8) (R288). -/
def gfMul (a b : Nat) : Nat := gfReduce (clMul (a % 256) (b % 256))

/-- Powers of the root x of the primitive polynomial. -/
def gfAlpha : Nat → Nat
  | 0 => 1
  | n + 1 => gfMul (gfAlpha n) 2

/-- The inverse: the 254th power. -/
def gfInv (a : Nat) : Nat := (List.range 254).foldl (fun p _ => gfMul p a) 1

/-- The generator of distance 5: the product of x - α^i over four consecutive i, the first of which the spec does not give; its lower four
coefficients, the highest first (R288; log 6). -/
def rsGen : List Nat :=
  let g := (List.range 4).foldl (fun (p : List Nat) i =>
    let r := gfAlpha (Config.rsFirst.val + i)
    ((p ++ [0]).zip (0 :: p)).map (fun (q : Nat × Nat) => q.1 ^^^ gfMul r q.2)) [1]
  g.drop 1

/-- One symbol enters the division by the generator. -/
def rsStep (g r : List Nat) (d : Nat) : List Nat :=
  let f := r.headD 0 ^^^ d
  ((r.drop 1 ++ [0]).zip g).map (fun (q : Nat × Nat) => q.1 ^^^ gfMul f q.2)

/-- The order in which the data bytes are the coefficients, from the highest (log 6). -/
def rsOrder (data : List Byte) : List Byte := if Config.rsRising then data.reverse else data

/-- The 32 check bits of a word's data: the remainder of the data's polynomial by the generator (R288). -/
def eccCheck (data : List Byte) : BitVec 32 :=
  BitVec.ofNat 32 (leNat (((rsOrder data).foldl (fun r b => rsStep rsGen r b.toNat) [0, 0, 0, 0]).map (BitVec.ofNat 8)))

/-- The syndrome of 32 data and 4 check bytes: 0 for a code word. -/
def syndrome (data : List Byte) (chk : BitVec 32) : BitVec 32 := eccCheck data ^^^ chk

/-- The syndrome of the value 1 in one symbol alone: 0..31 data, 32..35 check. -/
def laneSyndrome (i : Nat) : List Nat :=
  let s := if i < 32 then eccCheck ((List.replicate 32 0).set i 1) else BitVec.ofNat 32 (2 ^ (8 * (i - 32)))
  (leBytes 4 s.toNat).map BitVec.toNat

/-- The value that an error in one symbol alone has, for a syndrome: none where no such error gives it. -/
def laneError (c s : List Nat) : Option Nat :=
  match ((c.zip s).find? (fun p => decide (p.1 ≠ 0))) with
  | none => none
  | some (a, b) =>
    let e := gfMul b (gfInv a)
    if e ≠ 0 ∧ c.map (gfMul e) = s then some e else none

/-- The bytes of a syndrome. -/
def synBytes (s : BitVec 32) : List Nat := (leBytes 4 s.toNat).map BitVec.toNat

/-- The error in one byte that a syndrome shows: its lane and value (R288). -/
def oneByteError (s : BitVec 32) : Option (Nat × Nat) :=
  (List.range 36).findSome? (fun i => (laneError (laneSyndrome i) (synBytes s)).map (fun e => (i, e)))

/-- Some error in two bytes has this syndrome (R288). -/
def twoByteError (s : BitVec 32) : Bool :=
  let cs := (List.range 36).map laneSyndrome
  cs.any (fun c => (List.range 255).any (fun k =>
    let t := (c.zip (synBytes s)).map (fun p => gfMul (k + 1) p.1 ^^^ p.2)
    cs.any (fun c => (laneError c t).isSome)))

/-- A syndrome that is at three bytes or more from every code word: a code word with one byte in error is then never taken for the marker,
itself read with one byte in error (R288, R289). -/
def farSyndrome (s : BitVec 32) : Bool := decide (s ≠ 0) && (oneByteError s).isNone && !twoByteError s

/-- The syndrome of the poison marker (R289; log 6): where the maker's does not serve, the first of three bytes that does. Of 65,025 with the
lowest byte 1, at most 528 are those of two bytes in error. -/
def markerSyndrome : BitVec 32 :=
  if farSyndrome Config.poisonSyndrome then Config.poisonSyndrome
  else (((List.range 65536).map (fun i => BitVec.ofNat 32 (1 + (i + 257) * 256))).find? farSyndrome).getD 0x010101

/-- The poison marker: data bytes and check bits (R289). -/
def markerData : List Byte := (List.finRange 32).map Config.poisonData
def markerCheck : BitVec 32 := eccCheck markerData ^^^ markerSyndrome

end Sys2Proof.Machine
end

