-- ==== Sys2Proof/Machine/SliceOps.lean ====
section
/-! DEFINITION. The memory of the slices: words, their error-correcting code, reads, writes and read-modify-writes of
a bank or of the dual-port region, and the owner register of a bank (R285 to R303). -/

namespace Sys2Proof.Machine

/-- The dual-port region's bank number here (R314, R407). -/
def dpBank : Nat := 34

/-- The number of a bank on the die. -/
def bankNo (st bank : Nat) : Nat := st * 35 + bank

/-- Key of a byte of memory. -/
def memKey (st bank byte : Nat) : Nat := bankNo st bank * 2 ^ 21 + byte

/-- Key of a 32-byte word. -/
def wordKey (st bank w : Nat) : Nat := bankNo st bank * 2 ^ 16 + w

/-- What a byte that nothing has written reads as: 0 (log 5). -/
def unwritten (_ : Nat) : Byte := 0

/-- The canonical form of memory. -/
def Memory.wf (m : List Host.Cell) : Bool := twf unwritten m

/-- One byte as stored. -/
def memByte (s : State) (st bank byte : Nat) : Byte := tget unwritten s.slice.mem (memKey st bank byte)

/-- `n` bytes as stored. -/
def memBytes (s : State) (st bank byte n : Nat) : List Byte := (List.range n).map (fun i => memByte s st bank (byte + i))

/-- Store bytes from a key upward. -/
def memStore (m : Tbl Byte) (key : Nat) : List Byte → Tbl Byte
  | [] => m
  | b :: r => memStore (tset unwritten m key b) (key + 1) r

/-- Store bytes of one bank. -/
def putBytes (s : State) (st bank byte : Nat) (data : List Byte) : State :=
  { s with slice := { s.slice with mem := memStore s.slice.mem (memKey st bank byte) data } }

/-- What an unlisted word is: clean, or lost with its bank's contents (R456). -/
def unlistedWord (s : State) (k : Nat) : WordSt := if cget 0 s.slice.vague (k / 2 ^ 16) = 0 then .clean else .lost

/-- The state of a word. -/
def wordSt (s : State) (st bank w : Nat) : WordSt := tget (unlistedWord s) s.slice.words (wordKey st bank w)

/-- Set the state of a word. -/
def setWordSt (s : State) (st bank w : Nat) (x : WordSt) : State :=
  { s with slice := { s.slice with words := tset (unlistedWord s) s.slice.words (wordKey st bank w) x } }

/-- The 32 stored data bytes of a word. -/
def wordData (s : State) (st bank w : Nat) : List Byte := memBytes s st bank (w * 32) 32

/-- What the decoder makes of a word (R288 to R290): its data; corrected data with the lane (0..31 data, 32..35 check);
uncorrectable; poisoned. -/
inductive EccOut where
  | clean (data : List Byte)
  | fixed (data : List Byte) (lane : Nat)
  | unc
  | poisoned
  deriving DecidableEq, Repr

/-- The 36 symbols of a word: 32 data bytes and 4 check bytes. -/
def symbols (data : List Byte) (chk : BitVec 32) : List Byte := data ++ leBytes 4 chk.toNat

/-- The symbols in which two words differ. -/
def symDiff (a b : List Byte) : Nat := ((a.zip b).filter (fun p => decide (p.1 ≠ p.2))).length

/-- The poison marker's symbols (R289). -/
def markerSyms : List Byte := symbols markerData markerCheck

/-- The decoder on raw symbols: the marker first, then no error, one byte, two bytes; beyond that the spec leaves the
outcome open (R288, R289; log 6). -/
def eccDecode (data : List Byte) (chk : BitVec 32) : EccOut :=
  let s := syndrome data chk
  if symDiff (symbols data chk) markerSyms ≤ 1 then .poisoned
  else if s = 0 then .clean data
  else match oneByteError s with
  | some (i, e) => .fixed (if i < 32 then data.set i (data.getD i 0 ^^^ BitVec.ofNat 8 e) else data) i
  | none =>
    if twoByteError s then .unc
    else match (Config.eccClass data chk).val with
    | 0 => .clean data
    | 1 =>
      let f := Config.eccFix data chk
      .fixed (if f.1.val < 32 then data.set f.1.val f.2 else data) f.1.val
    | _ => .unc

/-- The 36 symbols of a word whose contents are lost: free values, the same at every read (R456; log 122). -/
def lostSymbols (s : State) (st bank w : Nat) : List Byte :=
  (List.range 36).map (Config.lostSymbol (cget 0 s.slice.vague (bankNo st bank)) w)

/-- The contents of a bank are lost: nothing listed, every word undefined (R456). -/
def bankLost (s : State) (st bank : Nat) : State :=
  { s with free := s.free + 1, slice := { s.slice with
      mem := tclear s.slice.mem (memKey st bank 0) (2 ^ 21)
      words := tclear s.slice.words (wordKey st bank 0) (2 ^ 16)
      vague := cset 0 s.slice.vague (bankNo st bank) (s.free + 1) } }

/-- The decoder's outcome on a word of a bank (R288 to R290). -/
def wordOut (s : State) (st bank w : Nat) : EccOut :=
  match wordSt s st bank w with
  | .clean => .clean (wordData s st bank w)
  | .poison => .poisoned
  | .coded chk => eccDecode (wordData s st bank w) chk
  | .lost => let l := lostSymbols s st bank w; eccDecode (l.take 32) (bytesBv 32 (l.drop 32))

/-- How an error was found, as `STD_SLC_ELOG.HOW` codes it (R314). -/
inductive How where
  | service | scrub | merge | raw
  deriving DecidableEq, Repr

def howNo : How → Nat
  | .service => 0 | .scrub => 1 | .merge => 2 | .raw => 3

/-- Record an error in `STD_SLC_ELOG`, the first after VALID was 0 (R314). -/
def elog (s : State) (st : StandId) (unc twin : Bool) (how : How) (bank lane w : Nat) : State :=
  if regBit s (stdOff st 0x7B0) 63 then s
  else regSet s (stdOff st 0x7B0)
    (mkBit 63 true ||| mkBit 62 unc ||| mk 60 2 (howNo how) ||| mkBit 59 twin ||| mk 32 6 bank |||
      mkBit 31 (decide (32 ≤ lane) && !unc && !twin) ||| mk 16 5 (if 32 ≤ lane then lane - 32 else lane) ||| mk 0 16 w)

/-- The corrected-error event's cause. -/
def ceCause : How → Cause
  | .scrub => cCeScrub
  | _ => cCeService

/-- The uncorrectable-error event's cause (R406). -/
def ueCause : How → Cause
  | .scrub => cUeScrub
  | .merge => cUeMerge
  | _ => cUeService

/-- Write a whole word as a code word (R291). -/
def storeWord (s : State) (st bank w : Nat) (data : List Byte) : State :=
  setWordSt (putBytes s st bank (w * 32) data) st bank w .clean

/-- A read's action on a word with one byte in error: written back corrected, counted and logged, with a SLICE_CE
event; a raw read is not counted (R290, R314, R317). -/
def onFixed (s : State) (st : StandId) (bank w : Nat) (data : List Byte) (lane : Nat) (how : How) : State :=
  let s := elog (storeWord s st.val bank w data) st false false how bank lane w
  raise (if how = .raw then s else regCount s (stdOff st 0x7A8) 0 32 1) (ceCause how) st.val bank 0

/-- A read's action on an uncorrectable word: replaced by the poison marker, counted and logged, with a SLICE_UE event (R290). -/
def onUnc (s : State) (st : StandId) (bank w : Nat) (how : How) : State :=
  let s := elog (setWordSt s st.val bank w .poison) st true false how bank 0 w
  raise (if how = .raw then s else regCount s (stdOff st 0x7A8) 48 16 1) (ueCause how) st.val bank 0

/-- The coppice entry of the collector's map. -/
def coppice (s : State) (n : Nat) : Word := tget coppiceReset s.map.coppice n

/-- A hub's copy of a coppice entry (R57). -/
def hubCoppice (s : State) (st n : Nat) : Word := tget (fun k => coppiceReset (k % 1536)) s.map.hubCop (st * 1536 + n)

/-- Fields of a coppice entry (R56). -/
def copState (c : Word) : Nat := fld c 33 2
def copTwin (c : Word) : Bool := bitAt c 32
def copTBank (c : Word) : Nat := fld c 24 6
def copTStand (c : Word) : Nat := fld c 16 6
def copPBank (c : Word) : Nat := fld c 8 6
def copPStand (c : Word) : Nat := fld c 0 6

/-- The entry whose primary is a physical bank, if any (R56). -/
def entryOfPrimary (s : State) (st bank : Nat) : Option Nat :=
  (List.range 1536).find? (fun n => let c := coppice s n
    decide (copState c = 1) && decide (copPStand c = st) && decide (copPBank c = bank))

/-- The entry with `TWIN` = 1 whose twin is a physical bank, if any (R304). -/
def entryOfTwin (s : State) (st bank : Nat) : Option Nat :=
  (List.range 1536).find? (fun n => let c := coppice s n
    copTwin c && decide (copTStand c = st) && decide (copTBank c = bank))

/-- Offset of `STD_BANK_OWN[b]` of a stand (R300). -/
def ownOff (st bank : Nat) : Nat := stdOff (standOf st) (0x680 + bank * 8)

/-- The owner register of a bank (R300). -/
def ownReg (s : State) (st bank : Nat) : Word := regGet s (ownOff st bank)

def ownReleased (o : Word) : Bool := bitAt o 63
def ownBusy (o : Word) : Bool := bitAt o 62
def ownTsync (o : Word) : Bool := bitAt o 61
def ownTstale (o : Word) : Bool := bitAt o 60
def ownRstate (o : Word) : Nat := fld o 58 2
def ownRet (o : Word) : Bool := bitAt o 57
def ownKind (o : Word) : Nat := fld o 52 4
def ownTag (o : Word) : BitVec 16 := BitVec.ofNat 16 (fld o 0 16)

/-- The twin bank of an entry holds every acknowledged write: TSTALE and TSYNC 0, stand not girdled (R310, R311). -/
def twinClean (s : State) (c : Word) : Bool :=
  copTwin c && !ownTstale (ownReg s (copTStand c) (copTBank c)) && !ownTsync (ownReg s (copTStand c) (copTBank c)) &&
  !girdled s (copTStand c)

/-- Change the owner register of a bank. -/
def setOwn (s : State) (st bank : Nat) (f : Word → Word) : State := regSet s (ownOff st bank) (f (ownReg s st bank))

/-- Retention states of `RSTATE` (R300). -/
def rActive : Nat := 0
def rEntering : Nat := 1
def rRetained : Nat := 2
def rWaking : Nat := 3

/-- Set `RSTATE` and `RET`. -/
def setRet (s : State) (st bank rstate : Nat) (ret : Bool) : State :=
  setOwn s st bank (fun o => put 58 2 rstate (put 57 1 (if ret then 1 else 0) o))

/-- An access meets the retention state: ENTERING is aborted and it is served; RETAINED starts the wake, and like WAKING
refuses a fabric access with NACK BUSY (R306, R307). True: served. An internal user, `inn`, waits for ACTIVE instead of
being refused; its access takes effect in the step that begins the wake (log 14). -/
def bankTouch (s : State) (st bank : Nat) (inn : Bool) : Bool × State :=
  match ownRstate (ownReg s st bank) with
  | 0 => (true, s)
  | 1 => (true, setRet s st bank rActive false)
  | 2 => (inn, setRet s st bank rWaking false)
  | _ => (inn, s)

/-- Count bytes at a level of a stand in `OBS_LVL` (R467). -/
def lvl (s : State) (st l n : Nat) : State := tally s (0xC1000 + st * 64 + l * 8) n

/-- The clean word of a twin, when the primary's word at (st, bank) is uncorrectable (R311). The twin's bank is accessed for it (R306, R307). -/
def twinWord (s : State) (st bank w : Nat) : Option (List Byte) × State :=
  match entryOfPrimary s st bank with
  | none => (none, s)
  | some n =>
    let c := coppice s n
    if twinClean s c then
      let s := (bankTouch s (copTStand c) (copTBank c) true).2
      match wordOut s (copTStand c) (copTBank c) w with
      | .clean d => (some d, s)
      | _ => (none, s)
    else (none, s)

/-- Read a word of a bank with R290's and R311's actions: its data, none when uncorrectable or poisoned. -/
def readWord (s : State) (st : StandId) (bank w : Nat) (how : How) : Option (List Byte) × State :=
  match wordOut s st.val bank w with
  | .clean d => (some d, s)
  | .fixed d lane => (some d, onFixed s st bank w d lane how)
  | .poisoned => (none, s)
  | .unc =>
    match (if bank < dpBank ∧ how ≠ .raw then twinWord s st.val bank w else (none, s)) with
    | (some d, s) =>
      let s := elog (storeWord s st.val bank w d) st false true how bank 0 w
      (some d, raise (regCount s (stdOff st 0x7A8) 0 32 1) cTwinRepair st.val bank 0)
    | (none, s) => (none, onUnc s st bank w how)

/-- Read the words `w`, `w` + 1, … (`n` of them): all data, or none when one is uncorrectable or poisoned. Every word is read. -/
def readWords (s : State) (st : StandId) (bank w : Nat) (how : How) : Nat → Option (List Byte) × State
  | 0 => (some [], s)
  | n + 1 =>
    let (d, s) := readWord s st bank w how
    let (r, s) := readWords s st bank (w + 1) how n
    (match d, r with | some d, some r => some (d ++ r) | _, _ => none, s)

/-- The words that the range [byte, byte + n) covers. -/
def wordSpan (byte n : Nat) : Nat := if n = 0 then 0 else (byte + n - 1) / 32 - byte / 32 + 1

/-- Read `n` bytes at `byte` of a bank (R290): none is answered POISON. -/
def readBank (s : State) (st : StandId) (bank byte n : Nat) (how : How) : Option (List Byte) × State :=
  let (d, s) := readWords s st bank (byte / 32) how (wordSpan byte n)
  (d.map (fun l => (l.drop (byte % 32)).take n), s)

/-- Change bytes of one word: whole words are stored; a partial word is read and merged, and left as it is when it is
uncorrectable or poisoned (R291). Answers whether the write was made. -/
def writeWord (s : State) (st : StandId) (bank w lo : Nat) (data : List Byte) : Bool × State :=
  if data.length = 32 then (true, storeWord s st.val bank w data)
  else
    let (d, s) := readWord s st bank w .merge
    match d with
    | none => (false, s)
    | some old => (true, storeWord s st.val bank w (old.take lo ++ data ++ old.drop (lo + data.length)))

/-- Write bytes of a bank word by word, `n` words at most: every word is tried (R291). -/
def writeWords (s : State) (st : StandId) (bank byte : Nat) (data : List Byte) : Nat → Bool × State
  | 0 => (true, s)
  | n + 1 =>
    let k := 32 - byte % 32
    let (a, s) := writeWord s st bank (byte / 32) (byte % 32) (data.take k)
    let (b, s) := writeWords s st bank (byte + k) (data.drop k) n
    (a && b, s)

/-- Write bytes at `byte` of a bank (R291): false is answered REMOTE_WRITE_FAULT. -/
def writeBank (s : State) (st : StandId) (bank byte : Nat) (data : List Byte) : Bool × State :=
  writeWords s st bank byte data (wordSpan byte data.length)

/-- Read-modify-write of bytes of a bank, indivisible, used by aliases and atomics: a covered word that is
uncorrectable or poisoned changes no word (R299). Answers the bytes before. -/
def rmwBank (s : State) (st : StandId) (bank byte : Nat) (n : Nat) (f : List Byte → List Byte) : Option (List Byte) × State :=
  let (d, s) := readWords s st bank (byte / 32) .merge (wordSpan byte n)
  match d with
  | none => (none, s)
  | some l =>
    let old := (l.drop (byte % 32)).take n
    let new := l.take (byte % 32) ++ f old ++ l.drop (byte % 32 + n)
    (some old, (writeWords s st bank (byte / 32 * 32) new (wordSpan byte n)).2)

/-- OR of an alias write through bit-set (R44). -/
def bitSetOp (data old : List Byte) : List Byte := (old.zip data).map (fun p => p.1 ||| p.2)

/-- Clear of an alias write through bit-clear (R44). -/
def bitClearOp (data old : List Byte) : List Byte := (old.zip data).map (fun p => p.1 &&& ~~~p.2)

/-- The new bytes of an ATOMIC: OPX 0 bit-set, 1 bit-clear, 2 integer add (R78). -/
def atomicOp (opx : Nat) (data old : List Byte) : List Byte :=
  match opx with
  | 0 => bitSetOp data old
  | 1 => bitClearOp data old
  | _ => leBytes old.length (leNat old + leNat data)

/-- Every word of a bank as a clean zero (R303). -/
def wipeBank (s : State) (st bank : Nat) : State :=
  { s with slice := { s.slice with
      mem := tclear s.slice.mem (memKey st bank 0) (2 ^ 21)
      words := tclear s.slice.words (wordKey st bank 0) (2 ^ 16)
      vague := cset 0 s.slice.vague (bankNo st bank) 0 } }

/-- `n` bytes of a bank from `byte` on as clean zeros, whole words, whatever the bank held. -/
def clearRange (s : State) (st bank byte n : Nat) : State :=
  let words := tclear s.slice.words (wordKey st bank (byte / 32)) (n / 32)
  { s with slice := { s.slice with
      mem := tclear s.slice.mem (memKey st bank byte) n
      words := if cget 0 s.slice.vague (bankNo st bank) = 0 then words
        else (List.range (n / 32)).foldl (fun t i => tset (unlistedWord s) t (wordKey st bank (byte / 32 + i)) .clean) words } }

/-- Bytes `byte` to `byte + n - 1` of the dual-port region as clean zeros, whole words (R296). -/
def zeroDp (s : State) (st byte n : Nat) : State :=
  { s with slice := { s.slice with
      mem := tclear s.slice.mem (memKey st dpBank byte) n
      words := tclear s.slice.words (wordKey st dpBank (byte / 32)) (n / 32) } }

/-- The slice serves accesses: `STD_SLC_CTL.MODE` is SERVICE (R314). The TEST that the bring-up engine sets does not stop the banks that are
released and the dual-port region during S5: nursery service serves them (R445, R447; log 75). -/
def inService (s : State) (st : Nat) : Bool :=
  regFld s (stdOff (standOf st) 0x7A0) 0 2 == 0 || (s.bup.reported == 5 && !girdled s st)

end Sys2Proof.Machine
end

