-- ==== Sys2Proof/Machine/Address.lean ====
section
/-! DEFINITION. Fabric addresses: their fields, the checks of each space, the tier maps, the target of a message and
the resolution of R59 (chapter 02; R96, R99). -/

namespace Sys2Proof.Machine

/-- Fields of a fabric address (R41, R43). -/
def aLocal (a : Word) : Bool := bitAt a 63
def aSpace (a : Word) : Nat := fld a 60 3
def aUpper (a : Word) : Nat := fld a 40 20
def aRack (a : Word) : Nat := fld a 50 10
def aTray (a : Word) : Nat := fld a 45 5
def aPkg (a : Word) : Nat := fld a 42 3
def aDie (a : Word) : Nat := fld a 40 2
def aSy (a : Word) : Nat := fld a 37 3
def aStand (a : Word) : Nat := fld a 34 6
def aOffset (a : Word) : Nat := fld a 0 34
def aAlias (a : Word) : Nat := fld a 32 2
def aDp (a : Word) : Bool := bitAt a 26
def aBank (a : Word) : Nat := fld a 21 5
def aByte (a : Word) : Nat := fld a 0 21
def aDpByte (a : Word) : Nat := fld a 0 19
def aHostOff (a : Word) : Nat := fld a 0 40
def aDoorbell (a : Word) : Bool := bitAt a 24
def aMbox (a : Word) : Nat := fld a 0 16
def aObject (a : Word) : Nat := fld a 4 12
def aSyncWord (a : Word) : Nat := fld a 0 4

/-- The coppice entry an address names: logical stand × 32 + logical bank (R56). -/
def aEntry (a : Word) : Nat := aStand a * 32 + aBank a

/-- LOCAL resolved at the point of injection: bits [59:40] from `GLB_SELF`, LOCAL cleared (R48). -/
def resolveLocal (s : State) (a : Word) : Word :=
  if aLocal a then put 63 1 0 (put 40 20 (selfUpper s) a) else a

/-- LOCAL is 1 with bits [59:40] not 0 (R47). -/
def localBroken (a : Word) : Bool := aLocal a && decide (aUpper a ≠ 0)

/-- `GLB_SELF.SET` is 0 and the requester gave LOCAL = 0: refused (R49). -/
def selfUnset (s : State) (a : Word) : Bool := !regBit s 0x10 63 && !aLocal a

/-- This die's own upper coordinates (R41). -/
def namesThisDie (s : State) (a : Word) : Bool := aUpper a == selfUpper s

/-- A tier-map entry of the active bank of a parity (R52, R54). -/
def tierEntry (s : State) (par : Bool) (tier n : Nat) : Word := bkGet s par (tierOff false tier n)

/-- The index of an address in a tier map: 0 die, 1 package, 2 tray, 3 rack. -/
def tierIndex (a : Word) (tier : Nat) : Nat :=
  match tier with | 0 => aDie a | 1 => aPkg a | 2 => aTray a | _ => aRack a

/-- Every tier index of the address is VALID in the bank (R59 tier_valid). -/
def tierValid (s : State) (par : Bool) (a : Word) : Bool :=
  (List.range 4).all (fun t => bitAt (tierEntry s par t (tierIndex a t)) 63)

/-- The physical index of a tier of an address (R52). -/
def tierPhys (s : State) (par : Bool) (a : Word) (tier : Nat) : Nat :=
  fld (tierEntry s par tier (tierIndex a tier)) 0 10

/-- The exit index of a destination from its physical coordinates (R99). -/
def exitIndex (s : State) (par : Bool) (a : Word) : Nat :=
  let prack := tierPhys s par a 3
  let ptray := tierPhys s par a 2
  let ppkg := tierPhys s par a 1
  if prack ≠ regFld s 0x18 16 10 then 44
  else if ptray ≠ regFld s 0x18 11 5 then 12 + ptray % 32
  else if ppkg ≠ regFld s 0x18 8 3 then 4 + ppkg % 8
  else tierPhys s par a 0 % 4

/-- The `k`-th set bit of an 8-bit mask, from bit 0 (R96 pick). -/
def pickBit (m : Nat) (k : Nat) : Nat := ((List.range 8).filter m.testBit).getD k 0

/-- The edge stand at position p of an edge (R25). -/
def edgeStand (e p : Nat) : Nat :=
  match e with
  | 0 => p
  | 1 => p * 8 + 7
  | 2 => 40 + p
  | _ => p * 8

/-- The position of an edge stand along an edge (R25). -/
def edgePos (e st : Nat) : Nat := if e = 0 ∨ e = 2 then sx st else sy st

/-- The positions along an edge (R25). -/
def edgeLen (e : Nat) : Nat := if e = 0 ∨ e = 2 then 8 else 6

/-- PSTAND and EXIT toward another die: the exit entry of the parity's bank; none is refused with ADDR_RANGE (R96), and so is
everything while `GLB_SELF.SET` is 0, when no frond leaves the die (R49). -/
def exitTarget (s : State) (par : Bool) (a : Word) (src chan : Nat) : Option (Nat × Nat) :=
  let e := bkGet s par (0x200 + exitIndex s par a * 8)
  let m := fld e 0 8
  let n := popcount (BitVec.ofNat 8 m)
  if !bitAt e 63 || m == 0 || !regBit s 0x10 63 then none
  else
    let k := pickBit m ((src + chan) % n)
    if fld e 10 2 = 0 then
      let edge := fld e 8 2
      some (edgeStand edge k, if edge = 0 ∨ edge = 2 then 2 else 3)
    else some (hallTap k, 1)

/-- Reserved bits of a slice-memory offset (R43): ALIAS 11, [31:27], BANK or [20:19] with DP. -/
def sliceOffsetBad (a : Word) : Bool :=
  decide (aAlias a = 3) || decide (fld a 27 5 ≠ 0) || (aDp a && decide (fld a 19 7 ≠ 0))

/-- Whether an address keeps R42 and R43 for its space, whatever its coordinates (R71). -/
def addrFormOk (a : Word) : Bool :=
  match aSpace a with
  | 0 => decide (aSy a < 6) && !sliceOffsetBad a
  | 1 => decide (aSy a < 6)
  | 2 => decide (aStand a = 0) && decide (fld a 16 18 = 0) && (aSyncWord a == 0 || aSyncWord a == 4)
  | 3 => decide (fld a 25 9 = 0) &&
      (if aDoorbell a then decide (aStand a = 0) else decide (aSy a < 6) && decide (fld a 16 8 = 0))
  | 4 => true
  | _ => false

/-- The operation classes that a space accepts (R45). -/
def classOk (a : Word) (op : BitVec 4) : Bool :=
  match aSpace a with
  | 0 => op == opWrite || op == opReadReq || op == opAtomic
  | 1 => op == opWrite || op == opReadReq
  | 2 => op == opReadReq || (op == opSignal && aSyncWord a == 0)
  | 3 => if aDoorbell a then op == opWrite else op == opWrite || op == opReadReq || op == opAtomic
  | 4 => op == opWrite || op == opReadReq
  | _ => false

/-- The home stand of a sync object: n mod 48 (R318). -/
def objHome (n : Nat) : Nat := n % 48

/-- The nearer of primary and twin for a read from `st`; a tie goes to the primary (R59, R310, R311). -/
def nearer (s : State) (st : Nat) (c : Word) : Nat × Nat :=
  if twinClean s c && (girdled s (copPStand c) || decide (hops st (copTStand c) < hops st (copPStand c))) then
    (copTStand c, copTBank c)
  else (copPStand c, copPBank c)

/-- An entry is in hold for a swap: its reads are served by the twin (R428). -/
def heldEntry (s : State) (n : Nat) : Bool := match oget s.map.rehomes n with | some r => r.held | none => false

/-- Where a resolved access goes (R59). -/
inductive Home where
  | bank (st bank : Nat)
  | dp (st : Nat)
  | core (k : Nat)
  | sync (obj : Nat)
  | doorbell (page : Nat)
  | host
  | away
  | refuse (r : Status)
  deriving DecidableEq, Repr

/-- Resolution of an address with LOCAL = 0 at a stand, with the map copy `cop` (R59, R61 to R63): `w` says write or atomic, and `hit`
names the stands whose girdle refuses the access. -/
def resolveBy (hit : Nat → Bool) (s : State) (par : Bool) (cop : Nat → Word) (st : Nat) (a : Word) (w : Bool) : Home :=
  if 5 ≤ aSpace a then .refuse .addrRange
  else if aSpace a ≠ 4 ∧ 6 ≤ aSy a then .refuse .addrRange
  else if !tierValid s par a then .refuse .addrRange
  else if !namesThisDie s a then .away
  else if !addrFormOk a then .refuse .addrRange
  else
    let dead := if w then Status.remoteWriteFault else .poison
    match aSpace a with
    | 0 =>
      if aDp a then (if hit (aStand a) then .refuse dead else .dp (aStand a))
      else
        let c := cop (aEntry a)
        if copState c = 0 then .refuse .addrRange
        else if copState c = 2 then .refuse dead
        else if w then
          (if hit (copPStand c) then .refuse dead else .bank (copPStand c) (copPBank c))
        else
          let h := if heldEntry s (aEntry a) && copTwin c then (copTStand c, copTBank c) else nearer s st c
          if hit h.1 then .refuse dead else .bank h.1 h.2
    | 1 =>
      if fenced s (aStand a) then .refuse .addrRange
      else if girdled s (aStand a) || portGirdled s (aStand a) then
        (match siteServing s (aStand a) with | some k => .core k.val | none => .refuse .addrRange)
      else .core (aStand a)
    | 2 => .sync (aObject a)
    | 3 =>
      if aDoorbell a then .doorbell (fld a 12 12)
      else if hit (aStand a) then .refuse dead else .dp (aStand a)
    | _ => .host

/-- R59 with an access to a girdled stand refused. -/
def resolveWith (s : State) (par : Bool) (cop : Nat → Word) (st : Nat) (a : Word) (w : Bool) : Home :=
  resolveBy (girdled s) s par cop st a w

/-- Resolution at a stand with its hub's own copy of the map (R57, R59). -/
def resolve (s : State) (st : Nat) (a : Word) (w : Bool) : Home :=
  resolveWith s (parity s) (hubCoppice s st) st a w

/-- The resolution at a hub with its own copy of the map (R57, R59). -/
def hubResolve (st : Nat) (w : Bool) (s : State) (a : Word) : Home := resolveWith s (parity s) (hubCoppice s st) st a w

/-- The physical stand that is the home of a resolved access (R42, R62). -/
def homeStand (s : State) : Home → Nat
  | .bank st _ => st
  | .dp st => st
  | .core k => k
  | .sync o => objHome o
  | _ => (centreTap s).val

/-- The bytes of a range that a direct request may name (R69): inside its bank, region, area, window or word. -/
def directRangeOk (a : Word) (n : Nat) : Bool :=
  match aSpace a with
  | 0 => if aDp a then decide (aDpByte a + n ≤ 2 ^ 19) else decide (aByte a + n ≤ 2 ^ 21)
  | 1 => decide (aOffset a + n ≤ 2 ^ 34)
  | 2 => decide (n = 4)
  | 3 => if aDoorbell a then decide (fld a 0 12 + n ≤ 4096) else decide (aMbox a + n ≤ 65536)
  | 4 => decide (aHostOff a + n ≤ 2 ^ 40)
  | _ => false

/-- A slice-memory position on the range walk (R68): the byte number in the hall of the plain offsets, and back. -/
def walkPos (a : Word) : Nat := (aUpper a * 48 + aStand a) * 2 ^ 26 + aBank a * 2 ^ 21 + aByte a

/-- The address at a walk position, keeping ALIAS and SPACE of `a` (R68). -/
def walkAddr (a : Word) (p : Nat) : Word :=
  mk 40 20 (p / 2 ^ 26 / 48) ||| mk 34 6 (p / 2 ^ 26 % 48) ||| mk 32 2 (aAlias a) ||| mk 0 26 (p % 2 ^ 26)

/-- The address `n` bytes on in a range: the walk in slice memory with DP = 0, plain addition elsewhere (R68, R69). -/
def addrPlus (a : Word) (n : Nat) : Word :=
  if aSpace a = 0 ∧ !aDp a then walkAddr a (walkPos a + n) else a + BitVec.ofNat 64 n

/-- The dies a walk passes are VALID in the active bank (R70): first, last, and every die between. -/
def walkTiersOk (s : State) (a : Word) (n : Nat) : Bool :=
  let d0 := walkPos a / 2 ^ 26 / 48
  let d1 := (walkPos a + (n - 1)) / 2 ^ 26 / 48
  decide (d1 < 2 ^ 20) && (List.range (min (d1 - d0 + 1) (2 ^ 20))).all (fun i => tierValid s (parity s) (mk 40 20 (d0 + i)))

/-- The range checks of a descriptor at acceptance, on a resolved address (R70): false is ADDR_RANGE. A range of 0
bytes has its first address checked only. -/
def rangeOk (s : State) (a : Word) (n : Nat) : Bool :=
  addrFormOk a && tierValid s (parity s) a &&
  (if n = 0 then true
   else if aSpace a = 0 ∧ !aDp a then walkTiersOk s a n
   else directRangeOk a n)

end Sys2Proof.Machine
end

