-- ==== Sys2Proof/Machine/Flows.lean ====
section
/-! DEFINITION. Messages and flows: the shape of a message, its target, sequencing in a flow, the window, replays,
acknowledgements and timeouts at the source unit (R74 to R82, R112, R113, R116, R118, R119, R501). -/

namespace Sys2Proof.Machine

/-- The number of a source unit. -/
def unitNo : SrcUnit → Nat
  | .port k => k.val
  | .mover k => 48 + k.val
  | .hostAgent => 96
  | .reducer k => 97 + k.val
  | .hub k => 145 + k.val
  | .trace => 193

/-- The UNIT code of a source unit (R77). -/
def unitCode : SrcUnit → BitVec 3
  | .port _ => unitPort
  | .mover _ => unitMover
  | .hostAgent => unitHost
  | .reducer _ => unitReducer
  | .hub _ => unitHub
  | .trace => unitTrace

/-- The stand at which a source unit injects; a die-wide unit uses a centre tap (R29). -/
def unitStand (s : State) : SrcUnit → StandId
  | .port k => k
  | .mover k => k
  | .reducer k => k
  | .hub k => k
  | .hostAgent => centreTap s
  | .trace => centreTap s

/-- Key of a flow: 4,096 table channels, then the implicit and chain slots (R112). -/
def flowKey (u : SrcUnit) (impl : Bool) (chan : Nat) : Nat := unitNo u * 8192 + (if impl then 4096 else 0) + chan

/-- A flow. -/
def flowAt (s : State) (k : Nat) : Flow := cget {} s.trans.flows k

/-- Set a flow. -/
def setFlow (s : State) (k : Nat) (f : Flow) : State := { s with trans := { s.trans with flows := cset {} s.trans.flows k f } }

/-- The fronds of a message of `n` data bytes (R80). -/
def frondsOf (n : Nat) : Nat := if n ≤ 56 then 1 else 1 + (n - 56 + 63) / 64

/-- The shape of a message of `n` data bytes (R80). -/
def shapeOf (n : Nat) : Shape := if n ≤ 56 then .single else .multi

/-- The W byte of a request: OPX [7:6], AGE [5:2], [1:0] RKIND or OPID (R77, R78). -/
def reqW (opx age low : Nat) : BitVec 8 := BitVec.ofNat 8 (opx % 4 * 64 + age % 16 * 4 + low % 4)

/-- AGE: `TIME[24:21]` (R78). -/
def ageNow (s : State) : Nat := s.time / 2 ^ 21 % 16

/-- AGE of a request's W byte. -/
def msgAge (m : Msg) : Nat := fld m.w 2 4

/-- OPX of a request's W byte. -/
def msgOpx (m : Msg) : Nat := fld m.w 6 2

/-- RKIND or OPID of a request's W byte. -/
def msgLow (m : Msg) : Nat := fld m.w 0 2

/-- The data of a READ_REQ: the requested length (R81). -/
def readReqData (n : Nat) : List Byte := leBytes 2 n

/-- A message as its sender first forms it; the flow fills in SEQ, OPEN, AGE and the target. -/
def newMsg (s : State) (u : SrcUnit) (pl : PlaneId) (op : BitVec 4) (vc : BitVec 3) (tenant : BitVec 16) (dest : Word)
    (data : List Byte) (opx low : Nat) (express delivered : Bool) : Msg :=
  { plane := pl, shape := if op = opCtrl then .ctrl else shapeOf data.length, vc := vc, colour := 0,
    express := express && (vc == 0 || vc == 1), asks := express, tenant := tenant, dest := dest, src := srcOf s (unitStand s u).val,
    op := op, chan := 0, seq := 0, len := BitVec.ofNat 13 data.length, unit := unitCode u, delivered := delivered,
    impl := true, replay := false, openFl := false, pstand := 0, exit := 0, w := reqW opx (ageNow s) low, data := data,
    broken := false }

/-- A READ_REQ of `n` bytes, as its sender first forms it: the length is its data (R81). -/
def readMsg (s : State) (u : SrcUnit) (pl : PlaneId) (tenant : BitVec 16) (a : Word) (n : Nat) (express : Bool) : Msg :=
  newMsg s u pl opReadReq vcReq tenant a (readReqData n) 0 0 express false

/-- A request for which R113 holds the copy until its response: READ_REQ, ATOMIC, core-port space, DELIVERED other
than a SEND. -/
def needsResp (m : Msg) : Bool :=
  m.op == opReadReq || m.op == opAtomic || (aSpace m.dest == 1 && (m.op == opWrite || m.op == opReadReq)) ||
  (m.delivered && m.impl)

/-- A SEND: a WRITE on a table channel (R181). -/
def isSend (m : Msg) : Bool := m.op == opWrite && !m.impl

/-- The bytes that a message asks for or brings: the requested length of a READ_REQ, else LENGTH (R81). -/
def msgBytes (m : Msg) : Nat := if m.op = opReadReq then leNat (m.data.take 2) else m.len.toNat

/-- A request is a write or atomic for R59. -/
def isWriting (m : Msg) : Bool := m.op == opWrite || m.op == opAtomic

/-- A CTRL frond that is a leg of a WAIT or of a replay between dies: its data are shorter than a work item's 44 bytes (log 15, 41). -/
def farLeg (m : Msg) : Bool := m.op == opCtrl && decide (m.len.toNat < 44)

/-- The CTRL frond of a FILL: bit 0 of the last byte of its work item (R157; log 15). -/
def fillItem (m : Msg) : Bool := !farLeg m && (byteAt m.data 43).getLsbD 0

/-- A one-frond request that travels on the rhizome inside a die: a SIGNAL, a doorbell write, a leg of a WAIT (R32, R169, R323). -/
def rhizomeLeg (m : Msg) : Bool :=
  m.op == opSignal || (m.op == opWrite && aSpace m.dest == 3 && aDoorbell m.dest && m.shape == .single) || farLeg m

/-- Count fronds that a stand injects or admits in the current parity (R108). -/
def countInj (s : State) (par : Bool) (st : Nat) (pl n : Nat) : State :=
  { s with epoch := { s.epoch with inj := cmod 0 s.epoch.inj ((parNo par * 48 + st) * 4 + pl) (· + n) } }

/-- Count fronds that a stand delivers, discards or sends out of the die (R108). -/
def countEj (s : State) (par : Bool) (st : Nat) (pl n : Nat) : State :=
  { s with epoch := { s.epoch with ej := cmod 0 s.epoch.ej ((parNo par * 48 + st) * 4 + pl) (· + n) } }

/-- A message that a hub sends on under R60 is not delivered: its fronds are taken out of the count again (R60, R108; log 89). -/
def uncountEj (s : State) (par : Bool) (st : Nat) (pl n : Nat) : State :=
  { s with epoch := { s.epoch with ej := cmod 0 s.epoch.ej ((parNo par * 48 + st) * 4 + pl) (· - n) } }

/-- The parity a stand injects with: the new one from its acknowledgement of FLIP (R107). -/
def standParity (s : State) (st : StandId) : Bool :=
  if s.epoch.phase = .flipping ∧ st ∉ s.epoch.taken then !parity s else parity s

/-- PSTAND and EXIT of a message, or the status that refuses it (R59, R96), by the map copy of the stand's hub (R57). A response goes to the
stand that its DEST names without the map (R65). A target on a girdled stand is no reason not to send: the
last stand before the girdle answers (R61). The CTRL frond of a work item goes to the
primary of its source, or to a clean twin when the primary's stand is girdled; that of a FILL has no such fallback (R155). -/
def targetOf (s : State) (st : StandId) (m : Msg) : Except Status (BitVec 6 × BitVec 2) :=
  let par := standParity s st
  let chan := m.chan.toNat
  let away : Except Status (BitVec 6 × BitVec 2) :=
    match exitTarget s par m.dest st.val chan with
    | some (p, e) => .ok (BitVec.ofNat 6 p, BitVec.ofNat 2 e)
    | none => .error .addrRange
  if m.op = opReduce ∨ m.op = opMcast ∨ m.op = opReadRsp then
    if !tierValid s par m.dest then .error .addrRange
    else if namesThisDie s m.dest then .ok (BitVec.ofNat 6 (aStand m.dest), 0) else away
  else
  let res (w : Bool) : Home := resolveWith s par (hubCoppice s st.val) st.val m.dest w
  let home : Home :=
    if m.op = opCtrl then (match res true with
      | .refuse .remoteWriteFault => if fillItem m then .refuse .remoteWriteFault else res false
      | h => h)
    else resolveBy (fun _ => false) s par (hubCoppice s st.val) st.val m.dest (isWriting m)
  match home with
  | .away => away
  | .refuse r => .error r
  | h => .ok (BitVec.ofNat 6 (homeStand s h), 0)

/-- Place a message on the planes: a new entry of the die, with the stand's parity, counted in `OBS_PLANE` (R106, R467). What a hub forwards
under R60 keeps its parity, is no new injection and was not delivered (log 89). A SIGNAL, a doorbell write or a leg of a WAIT whose home is
on this die travels on the rhizome instead (R32, R169, R323). In the fatal safe state movers, reducers and the host agent inject nothing (R433); a frozen
stand accepts no injection (R483). -/
def inject (s : State) (u : SrcUnit) (st : StandId) (m : Msg) : State :=
  let n := frondsOf m.data.length
  if (fatalLatched s && (match u with | .hub _ => false | _ => true)) || frozenAt s st.val then s
  else if rhizomeLeg m && namesThisDie s m.dest then emit s (.msg st (unitCode u) m)
  else
  let par := if m.fwd then m.epoch else standParity s st
  let s := tally s (0xC0140 + m.plane.val * 8) n
  let s := if m.fwd then uncountEj s par st.val m.plane.val n else countInj s par st.val m.plane.val n
  emit s (.msg st (unitCode u) { m with epoch := par })

/-- A message of spill, trace or buffer traffic from a unit to a stand (R83, R183, R476): internal to the block, not sequenced; its DEST names
the stand alone (log 96). -/
def innerMsg (s : State) (u : SrcUnit) (pl : PlaneId) (op : BitVec 4) (vc : BitVec 3) (dst : Nat) (data : List Byte) : Msg :=
  { newMsg s u pl op vc 0 (mk 40 20 (selfUpper s) ||| mk 34 6 dst) data 0 0 false false with pstand := BitVec.ofNat 6 dst }

/-- Send such a message where it has a way to go: a spill area of the unit's own stand needs none (R183). -/
def sendInner (s : State) (u : SrcUnit) (pl : PlaneId) (op : BitVec 4) (vc : BitVec 3) (dst : Nat) (data : List Byte) : State :=
  if (unitStand s u).val = dst then s else inject s u (unitStand s u) (innerMsg s u pl op vc dst data)

/-- A message that ends without a response. -/
def ended (o : Owner) (m : Msg) (r : Status) (unknown : Bool) : Done := ⟨o, m, .final, r, [], unknown, false⟩

/-- A message that its target refuses before it is injected. -/
def turnedAway (o : Owner) (m : Msg) (r : Status) : Done := ⟨o, m, .refused, r, [], false, false⟩

/-- Report outcomes of messages; `settle` works them off in the same step. -/
def later (p : List Done × State) : State := { p.2 with todo := p.2.todo ++ p.1 }

/-- The copies that count in the window of 32 (R113): a SEND that is acknowledged counts no longer. -/
def windowCount (f : Flow) : Nat := (f.win.filter (fun c => !(c.acked && isSend c.m))).length

/-- A tile, and one with `FINAL` (R258). -/
def isTile (m : Msg) : Bool := m.op == opReduce && msgLow m == 2
def isFinalTile (m : Msg) : Bool := isTile m && bitAt m.dest 25

/-- GROUP and OPID of a tile (R258). -/
def tileOp (m : Msg) : Nat := fld m.dest 26 8

/-- A tile has ended without an acknowledgement: the FINAL of its group operation is never injected (R258). -/
def noteLostTile (s : State) (u : SrcUnit) (m : Msg) : State :=
  if isTile m then { s with trans := { s.trans with lostTiles := (unitNo u, tileOp m) :: s.trans.lostTiles } } else s

/-- An earlier tile of the same group operation ended without an acknowledgement (R258). -/
def tileLost (s : State) (u : SrcUnit) (m : Msg) : Bool := isFinalTile m && s.trans.lostTiles.contains (unitNo u, tileOp m)

/-- A tile goes: what is remembered of the group's other operations at the port is over, and a FINAL ends its own (R258). -/
def forgetTiles (s : State) (u : SrcUnit) (m : Msg) : State :=
  if isTile m then { s with trans := { s.trans with lostTiles := s.trans.lostTiles.filter (fun x =>
    !(x.1 == unitNo u && x.2 / 4 == tileOp m / 4 && (isFinalTile m || x.2 != tileOp m))) } }
  else s

/-- A core port holds a FINAL tile until every earlier tile that it sent to the same group operation has been acknowledged (R258). -/
def finalHeld (s : State) (u : SrcUnit) (m : Msg) : Bool :=
  let same (x : Msg) : Bool := isTile x && tileOp x == tileOp m
  let early (l : List Waiting) : Bool := (l.takeWhile (fun w => !(isFinalTile w.m && same w.m))).any (fun w => same w.m)
  isFinalTile m && (early (cget [] s.trans.noSlot (unitNo u)) || (List.range 256).any (fun i =>
    let f := flowAt s (flowKey u true i)
    f.win.any (fun c => !c.acked && same c.m) || early f.wait))

/-- Whether the next waiting message of a flow may be injected: window room, for an ATOMIC no earlier ATOMIC unanswered, for a FINAL tile
none before it on its way (R113, R117, R258). -/
def mayInject (s : State) (u : SrcUnit) (f : Flow) (m : Msg) : Bool :=
  decide (windowCount f < 32) && !(m.op == opAtomic && f.win.any (fun c => c.m.op == opAtomic)) && !finalHeld s u m

/-- 8.4 ms and the 1 ms of R119, in ns. -/
def ms8_4 : Nat := 8400000
def oneMs : Nat := 1000000

/-- The valid source slot of a stand that holds a skid number, as the bank that the stand injects with has it (R102, R106). -/
def skidSourceSlot (s : State) (st : StandId) (skid : Nat) : Option Word :=
  ((List.range 64).map (fun j => bkGet s (standParity s st) (stdOff st (0x800 + j * 32)))).find?
    (fun w => bitAt w 63 && bitAt w 60 && fld w 50 8 == skid)

/-- The VC of a SEND from its channel slot: VC 2 where the slot has `SKIDEN` and the skid that it names is not DOWN, else VC 0 in packet
mode (R104, R181). -/
def sendVc (s : State) (st : StandId) (word : Word) : BitVec 3 :=
  if bitAt word 57 && !((skidSourceSlot s st (fld word 49 8)).map (fun w => bitAt w 61)).getD false then vcSkid else vcReq

/-- The channel slot word 0 of a stand that a SEND goes by: its valid source slot of the channel, plane and unit (R181). -/
def sendWord (s : State) (st : StandId) (m : Msg) : Option Word :=
  ((List.range 128).map (fun j => regGet s (stdOff st (0x1000 + j * 32)))).find?
    (fun w => bitAt w 63 && !bitAt w 62 && fld w 0 12 == m.chan.toNat && fld w 60 2 == (if m.unit = unitMover then 1 else 0))

/-- A message as it goes out now: a SEND takes the VC that its skid has (R104), and on VC 0 the EXPRESS that was asked for (R75, R134). -/
def onSkid (s : State) (st : StandId) (m : Msg) : Msg :=
  if isSend m then
    (match sendWord s st m with
    | some w => let vc := sendVc s st w; { m with vc := vc, express := m.asks && vc == vcReq }
    | none => m)
  else m

/-- Send a message in its flow now: it takes the next SEQ, AGE, and OPEN where owed (R112, R113). A message that its
target refuses takes no SEQ and is done at once. So is a FINAL tile that may never be injected: DESIGN CHOICE, with TIMEOUT (R258;
log 120). -/
def sendNow (s : State) (u : SrcUnit) (k : Nat) (w : Waiting) : List Done × State :=
  let f := flowAt s k
  match (if tileLost s u w.m then .error .timeout else targetOf s w.st w.m) with
  | .error r => ([turnedAway w.owner w.m r], forgetTiles s u w.m)
  | .ok (p, e) =>
    let s := forgetTiles s u w.m
    let late := match f.lastAck with | none => true | some t => decide (t + ms8_4 ≤ s.time)
    let op := f.owed || late || w.m.openFl
    let m := { onSkid s w.st w.m with seq := f.next, openFl := op, pstand := p, exit := e, w := reqW (msgOpx w.m) (ageNow s) (msgLow w.m) }
    let c : Copy := { m := m, st := w.st, first := s.time, last := s.time, acked := false, owner := w.owner }
    let f := { f with next := f.next + 1, win := f.win ++ [c], owed := false,
                      lastAck := if op then some s.time else f.lastAck }
    ([⟨w.owner, m, .sent, .ok, [], false, false⟩], inject (setFlow s k f) u w.st m)

/-- Send waiting messages of a flow while its window allows, `n` at most. -/
def pump (s : State) (u : SrcUnit) (k : Nat) : Nat → List Done × State
  | 0 => ([], s)
  | n + 1 =>
    let f := flowAt s k
    match f.wait with
    | [] => ([], s)
    | w :: r =>
      if mayInject s u f w.m then
        let (d, s) := sendNow (setFlow s k { f with wait := r }) u k w
        let (e, s) := pump s u k n
        (d ++ e, s)
      else ([], s)

/-- A tile has been acknowledged or has ended: the FINAL tiles of its port that wait at the head of a flow may go (R258). -/
def pumpFinals (s : State) (u : SrcUnit) : List Done × State :=
  (List.range 256).foldl (fun (p : List Done × State) i =>
    let k := flowKey u true i
    match (flowAt p.2 k).wait with
    | w :: r =>
      if isFinalTile w.m then
        let (d, s) := pump p.2 u k (r.length + 1)
        (p.1 ++ d, s)
      else p
    | [] => p) ([], s)

/-- Hand a message to its flow: injected, or it waits behind those before it (R113). -/
def toFlow (s : State) (u : SrcUnit) (k : Nat) (w : Waiting) : List Done × State :=
  let f := flowAt s k
  let s := setFlow s k { f with wait := f.wait ++ [w] }
  pump s u k (f.wait.length + 1)

/-- The destination of an implicit flow (R112): the physical target stand on this die, else the upper coordinates and the stand of the
final destination: that of the address, the home of a sync object (R318), or 64 for the host agent. -/
def destKey (s : State) (st : StandId) (m : Msg) : Nat :=
  if namesThisDie s m.dest then
    (match targetOf s st m with | .ok (p, _) => p.toNat | .error _ => 64)
  else
    let a := m.dest
    let st := match aSpace a with
      | 2 => objHome (aObject a)
      | 3 => if aDoorbell a then 64 else aStand a
      | 4 => 64
      | _ => aStand a
    128 + aUpper a * 128 + st

/-- A copy that the transport has not acknowledged. -/
def unackedCopy (c : Copy) : Bool := !c.acked

/-- A slot holds no unacknowledged message and none waiting (R112). A request that is acknowledged and waits for its response does not
keep it. -/
def slotFree (f : Flow) : Bool := !f.win.any unackedCopy && f.wait.isEmpty

/-- The implicit slot that serves a pair, else the lowest-numbered free one (R112). -/
def findSlot (s : State) (u : SrcUnit) (pair : Nat × PlaneId) : Option (Nat × Bool) :=
  let at_ (i : Nat) := flowAt s (flowKey u true i)
  match (List.range 256).find? (fun i => let f := at_ i; !slotFree f && decide (f.pair = some pair)) with
  | some i => some (i, false)
  | none => ((List.range 256).find? (fun i => slotFree (at_ i))).map (fun i => (i, true))

/-- Send a message in the implicit slot of its destination and plane; with none free, or behind messages that wait for one, it waits at its
unit (R112). The first message of a newly assigned slot carries OPEN (R113). -/
def sendImplicit (s : State) (u : SrcUnit) (m : Msg) (o : Owner) : List Done × State :=
  let st := unitStand s u
  match targetOf s st m with
  | .error r => ([turnedAway o m r], s)
  | .ok _ =>
  let pair := (destKey s st m, m.plane)
  let wait : List Done × State :=
    ([], { s with trans := { s.trans with noSlot := cmod [] s.trans.noSlot (unitNo u) (· ++ [⟨m, st, o⟩]) } })
  match findSlot s u pair with
  | none => wait
  | some (i, fresh) =>
    if fresh && !(cget [] s.trans.noSlot (unitNo u)).isEmpty then wait
    else
    let k := flowKey u true i
    let m := { m with impl := true, chan := BitVec.ofNat 12 i }
    let s := if fresh then
        let f := flowAt s k
        setFlow s k { f with pair := some pair, owed := true }
      else s
    toFlow s u k ⟨m, st, o⟩

/-- Send a message on a table channel (IMPL 0), or on a chain slot (IMPL 1, CHANNEL 256 upward) (R112, R197). -/
def sendChannel (s : State) (u : SrcUnit) (m : Msg) (impl : Bool) (chan : Nat) (openNow : Bool) (o : Owner) : List Done × State :=
  let st := unitStand s u
  let k := flowKey u impl chan
  let s := if openNow then setFlow s k { flowAt s k with owed := true } else s
  toFlow s u k ⟨{ m with impl := impl, chan := BitVec.ofNat 12 chan }, st, o⟩

/-- `E − s` modulo 2^16: 1..32767 is behind (R114). -/
def isBehind (e s : BitVec 16) : Bool := let d := (e - s).toNat; decide (1 ≤ d) && decide (d ≤ 32767)

/-- The retransmission interval of a flow's span (R118). -/
def retransNs (s : State) (dest : Word) : Nat :=
  let a := selfUpper s
  let b := aUpper dest
  if a = b then 2000 else if a / 4 = b / 4 then 4000 else if a / 1024 = b / 1024 then 16000 else 32000

/-- Replay one copy: its target resolved again, REPLAY set; a refusal completes it at once with UNKNOWN (R118, R501). -/
def replayOne (s : State) (u : SrcUnit) (c : Copy) (op : Bool) : Except Done (Copy × State) :=
  match targetOf s c.st c.m with
  | .error r => .error (ended c.owner c.m r true)
  | .ok (p, e) =>
    let m := { onSkid s c.st c.m with replay := true, openFl := c.m.openFl || op, pstand := p, exit := e }
    .ok ({ c with m := m, last := s.time }, inject s u c.st m)

/-- Replay the copies of a window that `sel` picks, from the oldest; the first unacknowledged one sent carries OPEN where `op` says so. After a
refusal every later unacknowledged one is replayed too, and the first of them carries OPEN (R118, R501). -/
def replayCopies (s : State) (u : SrcUnit) (sel : Copy → Bool) (op : Bool) : List Copy → List Done × List Copy × State
  | [] => ([], [], s)
  | c :: r =>
    if sel c then
      match replayOne s u c (op && unackedCopy c) with
      | .error d =>
        let (ds, cs, s) := replayCopies (noteLostTile s u c.m) u (fun x => sel x || unackedCopy x) true r
        (d :: ds, cs, s)
      | .ok (c, s) =>
        let (ds, cs, s) := replayCopies s u sel (op && !unackedCopy c) r
        (ds, c :: cs, s)
    else
      let (ds, cs, s) := replayCopies s u sel op r
      (ds, c :: cs, s)

/-- Replay in a flow. -/
def replayFlow (s : State) (u : SrcUnit) (k : Nat) (sel : Copy → Bool) (op : Bool) : List Done × State :=
  let f := flowAt s k
  let (ds, cs, s) := replayCopies s u sel op f.win
  (ds, setFlow s k { f with win := cs })

/-- What an acknowledgement up to E makes of a copy (R113, R116, R147): unchanged, still held for its response, or done. -/
def ackCopy (a : AckMsg) (c : Copy) : Option Copy × Option Done :=
  if isBehind a.e c.m.seq && !c.acked then
    let i := (a.e - 1 - c.m.seq).toNat
    if decide (i < 32) && bitAt a.mask i then (none, some (ended c.owner c.m .rateExceeded false))
    else if needsResp c.m || (isSend c.m && c.m.delivered) then (some { c with acked := true }, some ⟨c.owner, c.m, .acked, .ok, [], false, false⟩)
    else (none, some (ended c.owner c.m .ok false))
  else (some c, none)

/-- A transport acknowledgement at the source unit (R116, R118, R147). -/
def ackReceive (s : State) (u : SrcUnit) (a : AckMsg) : List Done × State :=
  let k := flowKey u a.impl a.chan.toNat
  let f := flowAt s k
  let cover := a.reason = 0 ∨ a.reason = 1
  let res := f.win.map (ackCopy a)
  let win := if cover then res.filterMap Prod.fst else f.win
  let dn := if cover then res.filterMap Prod.snd else []
  let f := { f with win := win, lastAck := if cover then some s.time else f.lastAck }
  let s := setFlow s k f
  let (dr, s) :=
    if a.reason = 1 then replayFlow s u k unackedCopy false
    else if a.reason = 2 then replayFlow s u k unackedCopy true
    else if a.reason = 3 then
      ([], setFlow s k { f with win := f.win.map (fun c => if c.acked then c else { c with last := s.time }) })
    else ([], s)
  let (dp, s) := pump s u k (flowAt s k).wait.length
  (dn ++ dr ++ dp, s)

/-- Forget the acknowledged SEND of a SEQ of a flow. -/
def dropLate (s : State) (k : Nat) (q : BitVec 16) : State :=
  { s with trans := { s.trans with late := s.trans.late.filter (fun x => !(x.1 == k && x.2.1.seq == q)) } }

/-- Keep a posted SEND that is acknowledged, in place of an older one of its SEQ: it may have been spilled, and its landing fail (R187). -/
def keepLate (s : State) (k : Nat) (m : Msg) (o : Owner) : State :=
  let s := dropLate s k m.seq
  { s with trans := { s.trans with late := (k, m, o) :: s.trans.late } }

/-- The notice of a spilled SEND that fails to land after its acknowledgement (R183, R187). -/
def lateAnswer (s : State) (k : Nat) (m : Msg) : List Done :=
  match s.trans.late.find? (fun x => x.1 == k && x.2.1.seq == m.seq) with
  | some (_, x, o) => [⟨o, x, .final, statusOfW m.w, m.data, false, true⟩]
  | none => []

/-- A notice about a work item that its executor on another die sends while the item still runs there: the CTRL frond that handed it over
waits on for its answer (R155, R187; log 15). -/
def isInterim (c : Copy) (m : Msg) : Bool := c.m.op == opCtrl && byteAt m.data 34 != 0

/-- A response at its requester: it matches an outstanding request by flow and SEQ, or tells of a spilled SEND, else it is discarded (R113,
R187); so is one that came
damaged, and its request is replayed (R82, R118). -/
def responseReceive (s : State) (u : SrcUnit) (m : Msg) : List Done × State :=
  let k := flowKey u m.impl m.chan.toNat
  let f := flowAt s k
  match (if m.broken then none else f.win.find? (fun c => c.m.seq == m.seq)) with
  | none => if m.broken then ([], s) else (lateAnswer s k m, dropLate s k m.seq)
  | some c =>
    if isInterim c m then ([⟨c.owner, c.m, .acked, statusOfW m.w, m.data, false, true⟩], s)
    else
    let s := setFlow s k { f with win := f.win.filter (fun x => x.m.seq != m.seq), lastAck := some s.time }
    let (dp, s) := pump s u k f.wait.length
    (⟨c.owner, c.m, .final, statusOfW m.w, m.data, false, true⟩ :: dp, s)

/-- One retransmission interval after the oldest unacknowledged message was last sent, all unacknowledged messages are
replayed; a message held for its response is replayed alone (R118). Refused replays give their places in the window to messages that wait
(R113, R501). -/
def retransmit (s : State) (u : SrcUnit) (k : Nat) : List Done × State :=
  let f := flowAt s k
  let waits (c : Copy) : Bool := !c.acked || !isSend c.m
  let oldest := (f.win.filter unackedCopy).head?
  match oldest.toList ++ f.win.filter (fun x => x.acked && waits x) with
  | [] => ([], s)
  | c :: r =>
    let at_ (x : Copy) : Nat := x.last + retransNs s x.m.dest
    let s := advanceTo s (r.foldl (fun a x => min a (at_ x)) (at_ c))
    let due (x : Copy) : Bool := decide (at_ x ≤ s.time)
    let all := match oldest with | some x => due x | none => false
    let (dr, s) := replayFlow s u k (fun x => (all && unackedCopy x) || (x.acked && waits x && due x)) false
    let (dp, s) := pump s u k (flowAt s k).wait.length
    (dr ++ dp, s)

/-- 1 ms after the first injection of a message still unacknowledged or unanswered, it completes with TIMEOUT, and so
does every later unacknowledged message of its flow; the next message sent carries OPEN (R119). -/
def timeoutFlow (s : State) (u : SrcUnit) (k : Nat) : List Done × State :=
  let f := flowAt s k
  let waits (c : Copy) : Bool := !(c.acked && isSend c.m)
  match f.win.filter waits with
  | [] => ([], s)
  | c :: _ =>
    let s := advanceTo s (c.first + oneMs)
    let gone (x : Copy) : Bool := waits x && (decide (x.first + oneMs ≤ s.time) || !x.acked)
    let s := workEnds (setFlow s k { f with win := f.win.filter (fun x => !gone x), owed := true })
    let s := (f.win.filter (fun x => gone x && !x.acked)).foldl (fun s x => noteLostTile s u x.m) s
    let (dp, s) := pump s u k f.wait.length
    ((f.win.filter gone).map (fun x => ended x.owner x.m .timeout false) ++ dp, s)

/-- The messages that wait at a unit for a slot, in order: each goes that finds a free slot, or one that its pair has got meanwhile
(R112). -/
def noSlotPump (u : SrcUnit) (s : State) : List Waiting → List Done × State
  | [] => ([], s)
  | w :: r =>
    let pair := (destKey s w.st w.m, w.m.plane)
    match findSlot s u pair with
    | none =>
      noSlotPump u { s with trans := { s.trans with noSlot := cmod [] s.trans.noSlot (unitNo u) (· ++ [w]) } } r
    | some (i, fresh) =>
      let k := flowKey u true i
      let s := if fresh then setFlow s k { flowAt s k with pair := some pair, owed := true } else s
      let (d, s) := toFlow s u k { w with m := { w.m with impl := true, chan := BitVec.ofNat 12 i } }
      let (e, s) := noSlotPump u s r
      (d ++ e, s)

/-- An implicit slot is free: the oldest message waiting at the unit for a new pair takes it, and those that wait with its pair follow
(R112). -/
def slotFreed (s : State) (u : SrcUnit) : List Done × State :=
  let l := cget [] s.trans.noSlot (unitNo u)
  noSlotPump u { s with trans := { s.trans with noSlot := cset [] s.trans.noSlot (unitNo u) [] } } l

end Sys2Proof.Machine
end

