-- ==== Sys2Proof/Machine/Rate.lean ====
section
/-! DEFINITION. Buckets, meters and charges (R137 to R143), in thousandths of a byte so that a fraction is kept. -/

namespace Sys2Proof.Machine

/-- The charge of a message of `n` data bytes: 64 × its fronds (R137). -/
def chargeOf (n : Nat) : Nat := 64 * frondsOf n

/-- The charge of a work item: its messages of 4,096 bytes and the remainder (R137, R156). -/
def chargeItem (len : Nat) : Nat :=
  len / 4096 * chargeOf 4096 + (if len % 4096 = 0 then 0 else chargeOf (len % 4096))

/-- `BURST` in bytes: units of 64; 0 acts as 1 (R123). -/
def burstBytes (b : Nat) : Nat := 64 * max 1 b

/-- Refill toward a size at a rate in MB/s: a count at or above the size does not refill (R138). -/
def refillTo (t : Int) (size rate dt : Nat) : Int :=
  let cap : Int := (size * 1000 : Nat)
  if cap ≤ t then t else min cap (t + (rate * dt : Nat))

/-- Bring a bucket up to a moment (R138). -/
def refill (b : Bucket) (rate burst now : Nat) : Bucket :=
  if now ≤ b.last then b
  else { t := refillTo b.t (burstBytes burst) rate (now - b.last), last := now }

/-- Whether a charge may be dispatched, and the bucket after it (R138). -/
def mayDispatch (b : Bucket) (rate burst charge now : Nat) : Bool × Bucket :=
  if charge = 0 then (true, b)
  else if rate = 0 then (false, b)
  else if rate = 0xFFFFF then (true, b)
  else
    let b := refill b rate burst now
    if b.t < 0 then (false, b) else (true, { b with t := b.t - (charge * 1000 : Nat) })

/-- A bucket's tokens as its register reads: whole bytes toward minus infinity, two's complement (R125, R129). -/
def tokens (b : Bucket) : Nat := ofSigned 32 (b.t / 1000)

/-- The moment at which a held charge may go, for a bucket with a rate above 0: its tokens reach 0 (R138). -/
def refillDue (b : Bucket) (rate now : Nat) : Nat :=
  if b.t < 0 ∧ rate ≠ 0 then max now (b.last + ((-b.t).toNat + rate - 1) / rate) else now

/-- The parameters of a meter from a `TNT_POLICE` layout (R123, R143): CIR, PIR (not below CIR), CBS, PBS in bytes. -/
def polCir (p : Word) : Nat := fld p 0 20
def polPir (p : Word) : Nat := max (fld p 20 20) (fld p 0 20)
def polCbs (p : Word) : Nat := 4096 * max 1 (fld p 40 10)
def polPbs (p : Word) : Nat := 4096 * max 1 (fld p 50 10)

/-- A meter with full buckets (R143). -/
def fullMeter (p : Word) (now : Nat) : Meter :=
  { tc := (polCbs p * 1000 : Nat), tp := (polPbs p * 1000 : Nat), last := now }

/-- Bring a meter up to a moment (R142). -/
def refillMeter (m : Meter) (p : Word) (now : Nat) : Meter :=
  if now ≤ m.last then m
  else { tc := refillTo m.tc (polCbs p) (polCir p) (now - m.last), tp := refillTo m.tp (polPbs p) (polPir p) (now - m.last), last := now }

/-- The colours of a stem (R74). -/
def green : BitVec 2 := 0
def yellow : BitVec 2 := 1
def red : BitVec 2 := 2

/-- The two-rate three-colour marker (R142). -/
def markColour (m : Meter) (p : Word) (b : Nat) (c : BitVec 2) (aware : Bool) (now : Nat) : BitVec 2 × Meter :=
  let m := refillMeter m p now
  let k : Int := (b * 1000 : Nat)
  if (aware && c == red) || decide (m.tp < k) then (red, m)
  else if (aware && c == yellow) || decide (m.tc < k) then (yellow, { m with tp := m.tp - k })
  else (green, { m with tp := m.tp - k, tc := m.tc - k })

/-- Change an ACTIVE entry. -/
def setTenant (s : State) (n : Nat) (t : Option Tenant) : State :=
  { s with tnt := { s.tnt with entries := oset s.tnt.entries n t } }

/-- Meter a charge of a descriptor at the host agent (R141): green without a meter. -/
def meterHost (s : State) (n : Nat) (b : Nat) : BitVec 2 × State :=
  match tenantAt s n with
  | none => (green, s)
  | some t =>
    if !bitAt t.police 63 then (green, s)
    else
      let (c, m) := markColour t.ipol t.police b green false s.time
      (c, setTenant s n (some { t with ipol := m }))

/-- The `TNT_POLICE` of a port's bound entry. -/
def portPolice (s : State) (k : StandId) : Word :=
  match (boundEntry s k).bind (tenantAt s) with | some t => t.police | none => 0

/-- Meter a charge at a core port (R141). -/
def meterPort (s : State) (k : StandId) (b : Nat) : BitVec 2 × State :=
  let p := portPolice s k
  if !bitAt p 63 then (green, s)
  else
    let (c, m) := markColour (cget {} s.tnt.portMtr k.val) p b green false s.time
    (c, { s with tnt := { s.tnt with portMtr := cset {} s.tnt.portMtr k.val m } })

/-- Meter a charge at the injection point of an acceptor (R141, R145). -/
def meterAt (s : State) (a : Acceptor) (b : Nat) : BitVec 2 × State :=
  match a with | .ring n => meterHost s n.val b | .port k => meterPort s k b

/-- Try a charge on the bucket of an acceptor: the entry's at the host agent, or the port's at its bound entry's rate (R137, R138). What a
port accepted before its binding changed keeps its tag (R130); the spec does not say which rate and meter it then meets, and the model
takes those of the port's binding of the moment: while there is none it is held, and no meter marks it (log 99). -/
def shapeAt (s : State) (a : Acceptor) (charge : Nat) : Bool × State :=
  match a with
  | .ring n =>
    (match tenantAt s n.val with
    | none => (false, s)
    | some t =>
      let (ok, b) := mayDispatch t.bucket t.rate t.burst charge s.time
      (ok, setTenant s n.val (some { t with bucket := b })))
  | .port k =>
    match (boundEntry s k).bind (tenantAt s) with
    | none => (false, s)
    | some t =>
      let (ok, b) := mayDispatch (cget {} s.tnt.portBkt k.val) t.rate t.burst charge s.time
      (ok, { s with tnt := { s.tnt with portBkt := cset {} s.tnt.portBkt k.val b } })

/-- When the held item of an acceptor may go (R138). -/
def shapeDue (s : State) (a : Acceptor) : Nat :=
  match a with
  | .ring n => (match tenantAt s n.val with | none => s.time | some t => refillDue t.bucket t.rate s.time)
  | .port k =>
    match (boundEntry s k).bind (tenantAt s) with
    | none => s.time
    | some t => refillDue (cget {} s.tnt.portBkt k.val) t.rate s.time

/-- Number of an acceptor: its entry, or 4096 + its port. -/
def accNo : Acceptor → Nat
  | .ring n => n.val
  | .port k => 4096 + k.val

/-- The tenant tag an acceptor works for now (R128, R129). -/
def accTag (s : State) : Acceptor → Option (BitVec 16)
  | .ring n => (tenantAt s n.val).map Tenant.tag
  | .port k => boundTag s k

/-- The tenant entry an acceptor works for. -/
def accEntry (s : State) : Acceptor → Option Nat
  | .ring n => some n.val
  | .port k => boundEntry s k

/-- Whether an acceptor's tenant may use the express class (R134). -/
def accExpOk (s : State) (a : Acceptor) : Bool :=
  match (accEntry s a).bind (tenantAt s) with | some t => t.expOk | none => false

/-- The source unit of an acceptor. -/
def accUnit : Acceptor → SrcUnit
  | .ring _ => .hostAgent
  | .port k => .port k

end Sys2Proof.Machine
end

