-- ==== Sys2Proof/Machine/Operands.lean ====
section
/-! DEFINITION. The operands of the commands: the fields of a descriptor and what R10 and R153 reserve in it, the CTRL frond
of a work item, and how a range is cut into work items and messages (R150 to R160, R194, R244, R248, R253, R262, R473). -/

namespace Sys2Proof.Machine

/-- Fields of a descriptor's 64 bytes (R150). -/
def dOp (r : List Byte) : Nat := leAt r 0 1
def dFlags (r : List Byte) : Nat := leAt r 1 1
def dDelivered (r : List Byte) : Bool := (dFlags r).testBit 0
def dExpress (r : List Byte) : Bool := (dFlags r).testBit 1
def dTally (r : List Byte) : Bool := (dFlags r).testBit 2
def dChain (r : List Byte) : Bool := (dFlags r).testBit 3
def dFmt (r : List Byte) : Nat := leAt r 2 2
def dTag (r : List Byte) : Nat := leAt r 4 4
def dSrcRaw (r : List Byte) : Word := BitVec.ofNat 64 (leAt r 8 8)
def dDstRaw (r : List Byte) : Word := BitVec.ofNat 64 (leAt r 16 8)
def dLen (r : List Byte) : Nat := leAt r 24 5
def dLenHi (r : List Byte) : Nat := leAt r 29 3
def dLayer (r : List Byte) : Nat := leAt r 32 2
def dOperator (r : List Byte) : Nat := leAt r 34 2
def dHandle (r : List Byte) : Nat := leAt r 36 4
def dCsync (r : List Byte) : Word := BitVec.ofNat 64 (leAt r 56 4)
def dCrc (r : List Byte) : Nat := leAt r 60 4

/-- `CSYNC` fields (R152). -/
def csSv (r : List Byte) : Bool := bitAt (dCsync r) 31
def csInc (r : List Byte) : Nat := fld (dCsync r) 16 8
def csObj (r : List Byte) : Nat := fld (dCsync r) 0 12

/-- The opcodes (R153). -/
def opCopy : Nat := 1
def opFill : Nat := 2
def opSend : Nat := 3
def opMcastD : Nat := 4
def opAllsum : Nat := 5
def opSignalD : Nat := 6
def opWait : Nat := 7
def opMark : Nat := 8
def opAtomicD : Nat := 9
def opFence : Nat := 10
def opGroup : Nat := 11
def opArm : Nat := 12

/-- The pattern of a FILL, the operand of an ATOMIC, the blaze ID of a MARK (R153). -/
def dPattern (r : List Byte) : Word := BitVec.ofNat 64 (leAt r 40 8)
def dIncrement (r : List Byte) : BitVec 32 := BitVec.ofNat 32 (leAt r 40 4)
def dTarget (r : List Byte) : BitVec 32 := BitVec.ofNat 32 (leAt r 40 4)
def dTimeout (r : List Byte) : Nat := leAt r 44 4
def dOpx (r : List Byte) : Nat := leAt r 48 1 % 4
def dBlazeKind (r : List Byte) : Nat := leAt r 48 1

/-- ALLSUM and ARM fields (R253). -/
def aMode (r : List Byte) : Nat := leAt r 40 1
def aOrdered (r : List Byte) : Bool := (aMode r).testBit 0
def aMean (r : List Byte) : Bool := (aMode r).testBit 1
def aShift (r : List Byte) : Int := toSigned 8 (leAt r 41 1)
def aSeg (r : List Byte) : Nat := leAt r 42 2
def aAbase (r : List Byte) : Nat := leAt r 44 2 % 2 ^ 14
def aSbank (r : List Byte) : Nat := leAt r 46 1 % 32
def aTarget (r : List Byte) : BitVec 32 := BitVec.ofNat 32 (leAt r 48 4)
def aTobj (r : List Byte) : Nat := leAt r 52 2 % 4096
def aDisarm (r : List Byte) : Bool := (leAt r 52 2).testBit 15
def aMobj (r : List Byte) : Nat := leAt r 54 2 % 4096
def aMsig (r : List Byte) : Bool := (leAt r 54 2).testBit 15
def aGroup (r : List Byte) : Nat := dHandle r % 64

/-- Bytes `lo` to `hi` - 1 of a descriptor are 0. -/
def zeroes (r : List Byte) (lo hi : Nat) : Bool := (sub r lo (hi - lo)).all (· == 0)

/-- An address field is 0, as R153 gives for the opcode. -/
def noSrc (r : List Byte) : Bool := decide (leAt r 8 8 = 0)
def noDst (r : List Byte) : Bool := decide (leAt r 16 8 = 0)

/-- An address field names a reserved SPACE, or breaks R47: refused under R10 (R47, R71). -/
def addrReserved (a : Word) : Bool := decide (5 ≤ aSpace a) || localBroken a

/-- `CSYNC` keeps R152; in a member before a chain's last it is reserved (R177). -/
def csyncOk (r : List Byte) : Bool :=
  if dChain r then decide (dCsync r = 0)
  else if csSv r then csInc r != 0 && fld (dCsync r) 24 7 == 0 && fld (dCsync r) 12 4 == 0
  else fld (dCsync r) 0 31 == 0

/-- What R10, R47, R150 and R153 reserve is as it must be, for each opcode; a reserved opcode is not (R154 step 1). -/
def descFormOk (r : List Byte) : Bool :=
  let op := dOp r
  let common := decide (dFlags r < 16) && decide (dLenHi r = 0) && csyncOk r &&
    !addrReserved (dSrcRaw r) && !addrReserved (dDstRaw r)
  let plain := decide (dFmt r = 0)
  let noChain := !dChain r
  let noHandle := decide (dHandle r = 0)
  let onlyTally := decide (dFlags r = 0) || decide (dFlags r = 4)
  let noLen := decide (dLen r = 0)
  common &&
  (if op = opCopy then plain && noHandle && zeroes r 40 56
   else if op = opFill then plain && noHandle && noSrc r && zeroes r 48 56
   else if op = opSend then plain && noChain && decide (dHandle r < 4096) && zeroes r 40 56 &&
     (decide (dLen r ≠ 0) || (noSrc r && noDst r))
   else if op = opMcastD then plain && onlyTally && decide (dHandle r < 64) && zeroes r 40 56
   else if op = opAllsum then onlyTally && decide (dHandle r < 64) && decide (dFmt r < 256) &&
     (fmtOf (dFmt r % 16)).isSome && (fmtOf (dFmt r / 16 % 16)).isSome && decide (aMode r < 4) &&
     decide (1 ≤ aSeg r) && decide (aSeg r ≤ 256) && decide (leAt r 44 2 < 2 ^ 14) && decide (leAt r 46 1 < 32) &&
     zeroes r 47 48 && zeroes r 48 54 && decide (fld (BitVec.ofNat 16 (leAt r 54 2)) 12 3 = 0)
   else if op = opSignalD then plain && noChain && noHandle && noLen && noSrc r && zeroes r 44 56
   else if op = opWait then plain && noChain && noHandle && noLen && noDst r && zeroes r 48 56
   else if op = opMark then plain && noChain && noHandle && noLen && noSrc r && noDst r && decide (dBlazeKind r < 3) && zeroes r 49 56
   else if op = opAtomicD then plain && noChain && noHandle && noSrc r && decide (leAt r 48 1 < 4) && zeroes r 49 56
   else if op = opFence then plain && noChain && noHandle && noLen && noSrc r && noDst r && zeroes r 40 56
   else if op = opGroup then plain && onlyTally && decide (dHandle r < 64) && noDst r && zeroes r 40 56
   else if op = opArm then
     if aDisarm r then
       onlyTally && decide (dHandle r < 64) && plain && noSrc r && noDst r && noLen && zeroes r 32 36 && zeroes r 40 52 &&
       decide (leAt r 52 2 = 2 ^ 15) && zeroes r 54 56
     else onlyTally && decide (dHandle r < 64) && decide (dFmt r < 256) &&
       (fmtOf (dFmt r % 16)).isSome && (fmtOf (dFmt r / 16 % 16)).isSome && decide (aMode r < 4) &&
       decide (1 ≤ aSeg r) && decide (aSeg r ≤ 256) && decide (leAt r 44 2 < 2 ^ 14) && decide (leAt r 46 1 < 32) &&
       zeroes r 47 48 && decide (leAt r 52 2 < 4096) && decide (fld (BitVec.ofNat 16 (leAt r 54 2)) 12 3 = 0)
   else false)

/-- The CRC is right (R151). -/
def descCrcOk (r : List Byte) : Bool := decide (r.length = 64) && dCrc r == crc32c (sub r 0 60)

/-- A core port may submit the opcode (R153). -/
def coreMay (op : Nat) : Bool := op != opAllsum && op != opGroup && op != opArm

/-- The level of an address in a TALLY record (R470). -/
def levelOf (a : Word) : Nat :=
  match aSpace a with
  | 0 => if aDp a then 2 else 1
  | 1 => 5
  | 3 => 2
  | 4 => 4
  | _ => 0

/-- A space that COPY and FILL may name (R153): 0, 1, 3 as a mailbox, 4. -/
def copySpace (a : Word) : Bool :=
  aSpace a == 0 || aSpace a == 1 || (aSpace a == 3 && !aDoorbell a) || aSpace a == 4

/-- A SEND's source: any space that accepts READ_REQ (R153, R45). -/
def readSpace (a : Word) : Bool := copySpace a || aSpace a == 2

/-- A work item ends early where a range reaches a 2 MiB service-bank boundary (R155). -/
def bankRoom (a : Word) (n : Nat) : Nat := if aSpace a = 0 ∧ !aDp a then min n (2 ^ 21 - aByte a) else n

/-- The work items of a COPY (`fill` none) or FILL (R155): `k` bounds their number. -/
def cutItems (w : WorkItem) (n : Nat) : Nat → List WorkItem
  | 0 => []
  | k + 1 =>
    if n = 0 then []
    else
      let m := bankRoom w.dst (min 65536 n)
      let m := if w.fill.isNone then bankRoom w.src m else m
      let w' := { w with off := w.off + m, src := if w.fill.isNone then addrPlus w.src m else w.src, dst := addrPlus w.dst m }
      { w with len := m } :: cutItems w' (n - m) k

/-- A bound on the work items of a range: each but those at bank boundaries takes 65,536 bytes. -/
def itemBound (n : Nat) : Nat := n / 65536 + 2 * (n / 2 ^ 21) + 4

/-- The messages of a work item: (offset, length), 4,096 bytes each and the remainder (R156). -/
def itemMsgs (len : Nat) : List (Nat × Nat) :=
  (List.range ((len + 4095) / 4096)).map (fun k => (k * 4096, min 4096 (len - k * 4096)))

/-- A position for the overlap of R158: the walk in slice memory, plain addition elsewhere. -/
def spanPos (a : Word) : Nat × Nat :=
  if aSpace a = 0 ∧ !aDp a then (0, walkPos a) else (1, (put 32 2 (if aSpace a = 0 then 0 else aAlias a) a).toNat)

/-- Byte `i` of a work item's destination lies within its descriptor's source range (R158). -/
def overlaps (w : WorkItem) (i : Nat) : Bool :=
  let s := spanPos w.src
  let d := spanPos w.dst
  let lo := s.2 - w.off
  w.fill.isNone && s.1 == d.1 && decide (lo ≤ d.2 + i) && decide (d.2 + i < lo + w.total)

/-- The bytes that a FILL writes from an address on (R157). -/
def fillBytes (p : Word) (dst : Word) (n : Nat) : List Byte :=
  let b := leBytes 8 p.toNat
  (List.range n).map (fun i => b.getD ((dst.toNat + i) % 8) 0)

/-- A work item in the data of its CTRL frond; the spec leaves the frond's content to the block (log 15). -/
def itemBytes (w : WorkItem) : List Byte :=
  leBytes 4 w.desc ++ leBytes 5 w.off ++ leBytes 3 w.len ++ leBytes 5 w.total ++ leBytes 8 w.src.toNat ++ leBytes 8 w.dst.toNat ++
  leBytes 8 (w.fill.getD 0).toNat ++ leBytes 2 w.tenant.toNat ++
  leBytes 1 ((if w.fill.isSome then 1 else 0) + (if w.express then 2 else 0) + (if w.deliv then 4 else 0) + (if w.yellow then 8 else 0))

/-- A work item from its CTRL frond. -/
def itemOf (l : List Byte) : WorkItem :=
  let f := leAt l 43 1
  { desc := leAt l 0 4, off := leAt l 4 5, len := leAt l 9 3, total := leAt l 12 5, src := BitVec.ofNat 64 (leAt l 17 8),
    dst := BitVec.ofNat 64 (leAt l 25 8), fill := if f.testBit 0 then some (BitVec.ofNat 64 (leAt l 33 8)) else none,
    tenant := BitVec.ofNat 16 (leAt l 41 2), express := f.testBit 1, deliv := f.testBit 2, yellow := f.testBit 3 }

end Sys2Proof.Machine
end

