-- ==== Sys2Proof/Machine/Flags.lean ====
section
/-! DEFINITION. Records and the flags in them: completion records, TALLY records and trace records (R174, R175, R470 to R475). -/

namespace Sys2Proof.Machine

/-- `RFLAGS` of a record, without `PHASE` and `LOSS`, which the ring sets (R174). -/
def rfChained : BitVec 8 := 4
def rfPoisoned : BitVec 8 := 8
def rfUnknown : BitVec 8 := 16

/-- `TYPE` of a record (R174). -/
def recNormal : Nat := 0
def recDeferred : Nat := 1
def recTally : Nat := 2
def recStage : Nat := 3

/-- A completion record's 32 bytes (R174). -/
def record (typ : Nat) (flags : BitVec 8) (status : Status) (tag : Nat) (addr result : Word) (sqidx : Nat) : List Byte :=
  leBytes 1 typ ++ leBytes 1 flags.toNat ++ leBytes 2 (statusCode status) ++ leBytes 4 tag ++ leBytes 8 addr.toNat ++
  leBytes 8 result.toNat ++ leBytes 4 sqidx ++ leBytes 4 0

/-- Whether a record is a TALLY record, whose last bytes have a meaning of their own. -/
def isTally (r : List Byte) : Bool := leAt r 0 1 == recTally

/-- A record as a ring of 2^k entries at `tail` carries it: `PHASE` by the pass, `LOSS` with `lost` dropped records (R175, R176). -/
def ringRecord (r : List Byte) (tail k lost : Nat) : List Byte :=
  let phase := if tail / 2 ^ k % 2 = 0 then 1 else 0
  let loss := decide (lost ≠ 0) && !isTally r
  let r := r.set 1 (BitVec.ofNat 8 (leAt r 1 1 / 4 * 4 + phase + (if loss then 2 else 0)))
  if loss then r.take 28 ++ leBytes 2 lost ++ r.drop 30 else r

/-- The bytes 8–23 and 28–31 of a TALLY record (R470). -/
def tallyRecord (status : Status) (tag sqidx : Nat) (rd wr : Nat) (lv pl : BitVec 8) (fronds dur : Nat) : List Byte :=
  leBytes 1 recTally ++ leBytes 1 0 ++ leBytes 2 (statusCode status) ++ leBytes 4 tag ++
  leBytes 5 (min (2 ^ 40 - 1) rd) ++ leBytes 5 (min (2 ^ 40 - 1) wr) ++ leBytes 1 lv.toNat ++ leBytes 1 pl.toNat ++
  leBytes 4 (min (2 ^ 32 - 1) fronds) ++ leBytes 4 sqidx ++ leBytes 4 (min (2 ^ 32 - 1) dur)

/-- `TKIND` of a trace record (R474). -/
def tkStart : Nat := 0
def tkEnd : Nat := 1
def tkBlaze : Nat := 2
def tkLoss : Nat := 3

/-- A trace record that a descriptor causes (R474). -/
def traceRecord (time kind srcu status : Nat) (raw : List Byte) (tenant : BitVec 16) (arg : Nat) : List Byte :=
  leBytes 8 time ++ leBytes 1 kind ++ leBytes 1 srcu ++ leBytes 2 status ++ leBytes 4 (dTag raw) ++ leBytes 2 (dLayer raw) ++
  leBytes 2 (dOperator raw) ++ leBytes 2 tenant.toNat ++ leBytes 1 (dOp raw) ++ leBytes 1 0 ++ leBytes 8 arg

/-- A LOSS record (R474, R481): `place` 0 at the source, 1 at the unit, 2 buffer full. -/
def lossRecord (time srcu n place : Nat) : List Byte :=
  leBytes 8 time ++ leBytes 1 tkLoss ++ leBytes 1 srcu ++ leBytes 14 0 ++ leBytes 4 (min (2 ^ 32 - 1) n) ++ leBytes 4 place

end Sys2Proof.Machine
end

