-- ==== Sys2Proof/Machine/RingCtx.lean ====
section
/-! DEFINITION. Ring contexts, kept in the dual-port regions of the centre taps in two copies (R168), and what the
ring registers and doorbells need of them. -/

namespace Sys2Proof.Machine

/-- A ring context (R168): the four register images, the four indices modulo 2^32, the reserved records, the state. -/
structure RingCtx where
  sq     : Word := 0
  cq     : Word := 0
  hwin   : Word := 0
  hsize  : Word := 0
  sqTail : Nat := 0
  sqHead : Nat := 0
  cqTail : Nat := 0
  cqHead : Nat := 0
  resv   : Nat := 0
  isOpen : Bool := false
  deriving DecidableEq, Repr

/-- The 64 bytes of a context (R168). -/
def ctxBytes (c : RingCtx) : List Byte :=
  leBytes 8 c.sq.toNat ++ leBytes 8 c.cq.toNat ++ leBytes 8 c.hwin.toNat ++ leBytes 8 c.hsize.toNat ++
  leBytes 4 c.sqTail ++ leBytes 4 c.sqHead ++ leBytes 4 c.cqTail ++ leBytes 4 c.cqHead ++ leBytes 4 c.resv ++
  [if c.isOpen then 1 else 0] ++ List.replicate 11 0

/-- A context from its 64 bytes. -/
def ctxOf (l : List Byte) : RingCtx :=
  { sq := BitVec.ofNat 64 (leAt l 0 8), cq := BitVec.ofNat 64 (leAt l 8 8), hwin := BitVec.ofNat 64 (leAt l 16 8),
    hsize := BitVec.ofNat 64 (leAt l 24 8), sqTail := leAt l 32 4, sqHead := leAt l 36 4, cqTail := leAt l 40 4,
    cqHead := leAt l 44 4, resv := leAt l 48 4, isOpen := byteAt l 52 == 1 }

/-- The stand and DPBYTE of a copy of entry n's context: 0 primary, 1 secondary (R168). -/
def ctxPlace (s : State) (n copy : Nat) : Nat × Nat :=
  (centreTaps.getD ((n + copy) % 4) 19, regFld s 0x4000 17 2 * 0x20000 + copy * 0x10000 + n / 4 * 64)

/-- Read a context: the first copy whose stand is not girdled; none when both are (R168). -/
def ctxGet (s : State) (n : Nat) : Option RingCtx :=
  let p := ctxPlace s n 0
  let q := ctxPlace s n 1
  if !girdled s p.1 then some (ctxOf (memBytes s p.1 dpBank p.2 64))
  else if !girdled s q.1 then some (ctxOf (memBytes s q.1 dpBank q.2 64))
  else none

/-- Write one copy, where its stand can be reached. -/
def ctxPutAt (s : State) (n copy : Nat) (c : RingCtx) : State :=
  let p := ctxPlace s n copy
  if girdled s p.1 then s
  else
    let b := ctxBytes c
    storeWord (storeWord s p.1 dpBank (p.2 / 32) (b.take 32)) p.1 dpBank (p.2 / 32 + 1) (b.drop 32)

/-- Write both copies (R168). -/
def ctxPut (s : State) (n : Nat) (c : RingCtx) : State := ctxPutAt (ctxPutAt s n 0 c) n 1 c

/-- The rings of an entry close: the records held for them, and the count of those dropped, go with them (R167, R176; log 45). -/
def ringClosed (s : State) (n : Nat) (c : RingCtx) : State :=
  let s := ctxPut s n { c with isOpen := false }
  { s with host := { s.host with holding := s.host.holding.filter (fun h => h.1 != n), lost := cset 0 s.host.lost n 0 } }

/-- The rings of an entry are open. -/
def ringsOpen (s : State) (n : Nat) : Bool := match ctxGet s n with | some c => c.isOpen | none => false

/-- Differences of free-running 32-bit indices. -/
def idxDiff (a b : Nat) : Nat := (a + 2 ^ 32 - b % 2 ^ 32) % 2 ^ 32

/-- The submission ring holds unfetched descriptors (R127, R167). -/
def unfetched (s : State) (n : Nat) : Bool :=
  match ctxGet s n with | some c => c.isOpen && decide (c.sqTail ≠ c.sqHead) | none => false

/-- A descriptor of an entry has not completed (R127, R167). -/
def incomplete (s : State) (n : Nat) : Bool :=
  s.host.descs.any (fun (_, d) => match d with
    | some d => (match d.acc with | .ring m => m.val == n | .port _ => false) && decide (d.phase ≠ .complete)
    | none => false)

/-- A descriptor under a tenant tag has not completed. -/
def incompleteTag (s : State) (tag : BitVec 16) : Bool :=
  s.host.descs.any (fun (_, d) => match d with | some d => decide (d.tag16 = tag) && decide (d.phase ≠ .complete) | none => false)

/-- A DPBYTE range of a stand meets the ring context area: at the centre taps, the 128 KiB block `BASE` names (R168, R293). -/
def inCtxArea (s : State) (st byte n : Nat) : Bool :=
  let b := regFld s 0x4000 17 2 * 0x20000
  decide (st ∈ centreTaps) && decide (byte < b + 0x20000) && decide (b < byte + n)

/-- Any ring is open. -/
def anyRingOpen (s : State) : Bool := s.tnt.entries.any (fun (n, t) => t.isSome && ringsOpen s n)

end Sys2Proof.Machine
end

