-- ==== Sys2Proof/Machine/Frond.lean ====
section
/-! DEFINITION. Stems and headers as bits: fields, reserved values, abort tails, and the message that a one-frond
message or a HEAD spells (R72, R74, R76, R77, R80, R89). -/

namespace Sys2Proof.Machine

def stKind (x : BitVec 128) : Nat := fld x 125 3
def stVc (x : BitVec 128) : Nat := fld x 122 3
def stEpoch (x : BitVec 128) : Bool := bitAt x 121
def stColour (x : BitVec 128) : Nat := fld x 119 2
def stExpress (x : BitVec 128) : Bool := bitAt x 118
def stTenant (x : BitVec 128) : BitVec 16 := BitVec.ofNat 16 (fld x 102 16)
def stDest (x : BitVec 128) : Word := BitVec.ofNat 64 (fld x 38 64)
def stSeq (x : BitVec 128) : BitVec 16 := BitVec.ofNat 16 (fld x 86 16)
def stValid (x : BitVec 128) : Nat := fld x 79 7
def stSrc (x : BitVec 128) : BitVec 26 := BitVec.ofNat 26 (fld x 12 26)
def stOp (x : BitVec 128) : Nat := fld x 8 4

/-- The payload's bytes. -/
def payloadBytes (f : Frond) : List Byte := leBytes 64 f.payload.toNat

/-- The 8-byte message header of a SINGLE, HEAD or CTRL frond (R77). -/
def header (f : Frond) : Word := BitVec.ofNat 64 (fld f.payload 0 64)

/-- A frond starts a message: SINGLE, HEAD or CTRL. -/
def startsMsg (x : BitVec 128) : Bool := stKind x == 0 || stKind x == 1 || stKind x == 4

/-- CHECK is right (R72). -/
def checkOk (f : Frond) : Bool := fld f.stem 0 8 == crc8 f.stem

/-- `PCHECK` is right (R72). -/
def pcheckOk (f : Frond) : Bool := f.pcheck.toNat == crc16 (payloadBytes f)

/-- A reserved KIND, COLOUR or OPCLASS, or a HEAD or SINGLE whose PSTAND exceeds 47 (R76, R79). R79 does not name CTRL; routers route it by
PSTAND too, and the model discards one whose PSTAND exceeds 47 in the same way (log 111). -/
def reservedStem (f : Frond) : Bool :=
  decide (5 ≤ stKind f.stem) || decide (stColour f.stem = 3) || decide (8 ≤ stOp f.stem) ||
  (startsMsg f.stem && decide (47 < fld (header f) 48 6))

/-- A stem of the given top bits [127:8], with its CHECK (R72). -/
def sealStem (x : BitVec 128) : BitVec 128 :=
  let y := BitVec.ofNat 128 (x.toNat / 256 * 256)
  BitVec.ofNat 128 (y.toNat + crc8 y)

/-- The stem of a BODY or TAIL of an open message (R74): `vb` VALID_BYTES. -/
def bodyStem (head : BitVec 128) (kind vb : Nat) (seq : BitVec 16) : BitVec 128 :=
  sealStem (BitVec.ofNat 128 (kind * 2 ^ 125 + fld head 102 23 * 2 ^ 102 + seq.toNat * 2 ^ 86 + vb * 2 ^ 79 + fld head 8 30 * 2 ^ 8))

/-- An abort tail: a TAIL with VALID_BYTES 127 and the message's SEQ (R89). -/
def abortTail (head : BitVec 128) (seq : BitVec 16) : Frond :=
  { stem := bodyStem head 3 127 seq, payload := 0, pcheck := BitVec.ofNat 16 (crc16 (List.replicate 64 0)) }

/-- An abort tail (R74, R89). -/
def isAbort (f : Frond) : Bool := stKind f.stem == 3 && stValid f.stem == 127

/-- The SEQ of a message's header (R77). -/
def headSeq (f : Frond) : BitVec 16 := BitVec.ofNat 16 (fld (header f) 12 16)

/-- The message that a SINGLE, HEAD or CTRL frond begins, with the data of that frond (R77, R80). -/
def headMsg (pl : PlaneId) (f : Frond) : Msg :=
  let h := header f
  let len := fld h 28 13
  { plane := pl, shape := match stKind f.stem with | 0 => .single | 4 => .ctrl | _ => .multi,
    vc := BitVec.ofNat 3 (stVc f.stem), colour := BitVec.ofNat 2 (stColour f.stem), express := stExpress f.stem,
    tenant := stTenant f.stem, dest := stDest f.stem, src := stSrc f.stem, op := BitVec.ofNat 4 (stOp f.stem),
    chan := BitVec.ofNat 12 (fld h 0 12), seq := BitVec.ofNat 16 (fld h 12 16), len := BitVec.ofNat 13 len,
    unit := BitVec.ofNat 3 (fld h 41 3), delivered := bitAt h 44, impl := bitAt h 45, replay := bitAt h 46,
    openFl := bitAt h 47, pstand := BitVec.ofNat 6 (fld h 48 6), exit := BitVec.ofNat 2 (fld h 54 2),
    w := BitVec.ofNat 8 (fld h 56 8), data := ((payloadBytes f).drop 8).take (min len 56), broken := false, epoch := stEpoch f.stem }

/-- The message that a hub makes of its fronds, the first of which starts it. `broken`: they disagree with LENGTH, a SEQ of a BODY or TAIL
is not the header's, or an abort tail ends it (R82). A LENGTH that R82 refuses is left to that check. -/
def assemble (pl : PlaneId) (l : List Frond) : Option Msg :=
  match l with
  | [] => none
  | h :: r =>
    let m := headMsg pl h
    let data := m.data ++ r.flatMap (fun f => (payloadBytes f).take (stValid f.stem))
    let n := m.len.toNat
    let bad := r.any (fun f => isAbort f || stSeq f.stem != m.seq) ||
      (m.shape == .multi && decide (57 ≤ n) && decide (n ≤ 4096) && decide (data.length ≠ n))
    if startsMsg h.stem then some { m with data := data.take n, broken := bad } else none

/-- The header of a message as 8 bytes (R77). -/
def headerOf (m : Msg) : Nat :=
  m.chan.toNat + m.seq.toNat * 2 ^ 12 + m.len.toNat * 2 ^ 28 + m.unit.toNat * 2 ^ 41 +
  (if m.delivered then 2 ^ 44 else 0) + (if m.impl then 2 ^ 45 else 0) + (if m.replay then 2 ^ 46 else 0) +
  (if m.openFl then 2 ^ 47 else 0) + m.pstand.toNat * 2 ^ 48 + m.exit.toNat * 2 ^ 54 + m.w.toNat * 2 ^ 56

/-- The stem of the first frond of a message (R74). -/
def stemOf (m : Msg) : BitVec 128 :=
  let kind := match m.shape with | .single => 0 | .multi => 1 | .ctrl => 4
  sealStem (BitVec.ofNat 128 (kind * 2 ^ 125 + m.vc.toNat * 2 ^ 122 + (if m.epoch then 2 ^ 121 else 0) + m.colour.toNat * 2 ^ 119 +
    (if m.express then 2 ^ 118 else 0) + m.tenant.toNat * 2 ^ 102 + m.dest.toNat * 2 ^ 38 + m.src.toNat * 2 ^ 12 + m.op.toNat * 2 ^ 8))

/-- A frond of a stem and its 64 payload bytes, with `PCHECK` (R72). -/
def sealFrond (stem : BitVec 128) (bytes : List Byte) : Frond :=
  let b := sub bytes 0 64
  { stem := stem, payload := bytesBv 512 b, pcheck := BitVec.ofNat 16 (crc16 b) }

/-- The BODY and TAIL fronds of the data after the first 56 bytes (R80). -/
def restFronds (head : BitVec 128) (seq : BitVec 16) (data : List Byte) : Nat → List Frond
  | 0 => []
  | n + 1 =>
    let last := decide (data.length ≤ 64)
    sealFrond (bodyStem head (if last then 3 else 2) (if last then data.length else 64) seq) (data.take 64) ::
    restFronds head seq (data.drop 64) n

/-- A message as fronds (R80). -/
def frondList (m : Msg) : List Frond :=
  let st := stemOf m
  sealFrond st (leBytes 8 (headerOf m) ++ m.data.take 56) :: restFronds st m.seq (m.data.drop 56) (frondsOf m.data.length - 1)

/-- The key of a message's receive entry (R114). -/
def keyOf (m : Msg) : FlowKey := { src := m.src, unit := m.unit, impl := m.impl, chan := m.chan, plane := m.plane }

/-- A request whose EXPRESS a hall port of this die has cleared has it again, so that its response carries it; the note of it is used up
(R135; log 85). -/
def regain (s : State) (m : Msg) : Msg × State :=
  if s.trans.cleared.contains (keyOf m, m.seq) then
    ({ m with express := true },
      { s with trans := { s.trans with cleared := s.trans.cleared.filter (fun x => decide (x ≠ (keyOf m, m.seq))) } })
  else (m, s)

/-- The response to a request (R75, R78, R116): a READ_RSP on VC 1 of the request's plane, addressed to its SRC, with
the request's flow, SEQ, requester unit and EXPRESS (R135; log 85). -/
def response (s : State) (st : StandId) (m : Msg) (r : Status) (data : List Byte) : Msg :=
  { m with
    shape := shapeOf data.length, vc := vcRsp, colour := 0, dest := BitVec.ofNat 64 (m.src.toNat * 2 ^ 34),
    src := srcOf s st.val, op := opReadRsp, len := BitVec.ofNat 13 data.length, delivered := false, replay := false,
    openFl := false, pstand := BitVec.ofNat 6 (fld m.src 0 6), exit := 0, w := statusW r, data := data, broken := false, fwd := false }

/-- Place a response on the planes from the hub of `st`: a new entry, not sequenced (R106, R112). A response toward
another die takes its exit (R96); one that no exit serves, or that `GLB_SELF.SET` 0 keeps on the die (R49), is lost. -/
def sendRsp (s : State) (st : StandId) (m : Msg) : State :=
  let par := standParity s st
  if namesThisDie s m.dest then inject s (.hub st) st m
  else match exitTarget s par m.dest st.val m.chan.toNat with
  | some (p, e) => inject s (.hub st) st { m with pstand := BitVec.ofNat 6 p, exit := BitVec.ofNat 2 e }
  | none => s

/-- Send a transport acknowledgement: a CTRL frond of the response opclass on VC 1, with the flow key (R74, R116, R147). Reasons: 0 ACK, 1 GAP,
2 NO_FLOW, 3 BUSY. Its TENANT is that of the message it answers at once (log 90). -/
def sendAck (s : State) (st : StandId) (k : FlowKey) (tenant : BitVec 16) (e : BitVec 16) (reason : Nat) (rmask : BitVec 32) : State :=
  sendRsp (workEnds s) st
    { plane := k.plane, shape := .ctrl, vc := vcRsp, colour := 0, express := false, tenant := tenant,
      dest := BitVec.ofNat 64 (k.src.toNat * 2 ^ 34), src := srcOf s st.val, op := opReadRsp, chan := k.chan, seq := e, len := 8,
      unit := k.unit, delivered := false, impl := k.impl, replay := false, openFl := false, pstand := BitVec.ofNat 6 (fld k.src 0 6),
      exit := 0, w := statusW (if reason = 0 then .ok else .notReady), data := leBytes 4 reason ++ leBytes 4 rmask.toNat, broken := false }

/-- Answer a request from the hub of `st`. -/
def answer (s : State) (st : StandId) (m : Msg) (r : Status) (data : List Byte) : State := sendRsp s st (response s st m r data)

/-- A message is fresh (R115). -/
def isFresh (s : State) (m : Msg) : Bool := decide ((ageNow s + 16 - msgAge m) % 16 < 3)

/-- The home of an address as a stand serves it: a clean twin here serves reads (R59, R310). -/
def serveHome (st : StandId) (w : Bool) (s : State) (a : Word) : Home :=
  let h := hubResolve st.val w s a
  if !w && aSpace a == 0 && !aDp a then
    let c := hubCoppice s st.val (aEntry a)
    match h with
    | .bank _ _ =>
      if heldEntry s (aEntry a) then h
      else if copPStand c = st.val then .bank st.val (copPBank c)
      else if copTwin c && copTStand c == st.val && twinClean s c then .bank st.val (copTBank c)
      else h
    | h => h
  else h

/-- The other stand of the die that is the home of a message's first address by a hub's copy of the map (R60). -/
def strayTo (s : State) (st : StandId) (m : Msg) : Option Nat :=
  let other (b : Nat) : Option Nat := if b = st.val then none else some b
  if m.op = opReduce ∨ m.op = opMcast ∨ m.op = opCtrl ∨ m.op = opSignal then none
  else match serveHome st (isWriting m) s m.dest with
  | .bank b _ => other b
  | .dp b => other b
  | .core k => other k
  | _ => none

/-- A request that a hub may take: of a die awake or of this die, whole, for this die, and fresh (R64, R82, R115, R343). -/
def hubMayTake (s : State) (m : Msg) : Bool :=
  !(dormHeld s && decide (fld m.src 6 20 ≠ selfUpper s)) && namesThisDie s m.dest && !m.broken && isFresh s m

/-- A hub sends a message on to its home once (R60). -/
def forwardHome (s : State) (st : StandId) (m : Msg) (b : Nat) : State :=
  let s := { s with mesh := { s.mesh with fwds := (keyOf m, m.seq) :: s.mesh.fwds.filter (fun x => decide (x ≠ (keyOf m, m.seq))) } }
  inject s (.hub st) st { m with fwd := true, pstand := BitVec.ofNat 6 b, exit := 0 }

/-- A message put together at a hub, marked where a hub has sent it on before (R60). -/
def markFwd (s : State) (m : Msg) : Msg × State :=
  let k := (keyOf m, m.seq)
  if s.mesh.fwds.contains k then
    ({ m with fwd := true }, { s with mesh := { s.mesh with fwds := s.mesh.fwds.filter (fun x => decide (x ≠ k)) } })
  else (m, s)

end Sys2Proof.Machine
end

