-- ==== Sys2Proof/Machine/Wire.lean ====
section
/-! DEFINITION. The headers of a core port's four channels, byte by byte (R347, R348, R352, R353). -/

namespace Sys2Proof.Machine

/-- The request message that the bytes of an `RQ` message spell (R348): `express`, `beats` and `nbytes` come with its beats (R346, R347).
`resv` says that a reserved bit or byte of the header is 1. -/
def rqOfBytes (b : List Byte) (express : Bool) (beats nbytes : Nat) : RqMsg :=
  let h (off n lo w : Nat) : Nat := leAt b off n / 2 ^ lo % 2 ^ w
  { kind := byteAt b 0, deliv := (leAt b 1 1).testBit 0, plane := planeOf (h 1 1 1 2), opx := BitVec.ofNat 2 (h 1 1 3 2),
    rkind := BitVec.ofNat 2 (h 1 1 5 2), len := BitVec.ofNat 13 (leAt b 2 2), rid := byteAt b 4, bar := BitVec.ofNat 6 (leAt b 5 1),
    rlen := BitVec.ofNat 13 (leAt b 6 2), addr := BitVec.ofNat 64 (leAt b 8 8),
    resv := (leAt b 1 1).testBit 7 || h 2 2 13 3 != 0 || h 5 1 6 2 != 0 || h 6 2 13 3 != 0 || leAt b 16 16 != 0,
    express := express, beats := beats, nbytes := nbytes, data := b.drop 32 }

/-- The bytes of an `RQ` message without a reserved bit (R348). -/
def rqBytes (r : RqMsg) : List Byte :=
  leBytes 1 r.kind.toNat ++
  leBytes 1 ((if r.deliv then 1 else 0) + r.plane.val * 2 + r.opx.toNat * 8 + r.rkind.toNat * 32) ++ leBytes 2 r.len.toNat ++
  leBytes 1 r.rid.toNat ++ leBytes 1 r.bar.toNat ++ leBytes 2 r.rlen.toNat ++ leBytes 8 r.addr.toNat ++ List.replicate 16 0 ++ r.data

/-- The command that an `RQ` message at a port is, by its `KIND` (R348, R349); a reserved one is refused by whichever takes it (R350). -/
def rqCommand (k : StandId) (r : RqMsg) : Instr :=
  match r.kind.toNat with
  | 0 => .corePortDesc k r
  | 2 => .corePortRead k r
  | 3 => .corePortAtomic k r
  | 4 => .corePortSignal k r
  | 5 => .corePortReduce k r
  | 6 => .barrierArrival k r
  | 7 => .wakeAck k
  | _ => .corePortWrite k r

/-- A WAKE_ACK (R349). -/
def wakeAckMsg : RqMsg :=
  { kind := 7, deliv := false, plane := planeOf 0, opx := 0, rkind := 0, len := 0, rid := 0, bar := 0, rlen := 0, addr := 0, resv := false,
    express := false, beats := 1, nbytes := 32, data := [] }

/-- The bytes of a `DL` message (R352). -/
def dlBytes (d : DlMsg) : List Byte :=
  leBytes 1 d.kind ++ [0] ++ leBytes 2 (statusCode d.status) ++ leBytes 1 d.rid.toNat ++ [0] ++ leBytes 2 d.data.length ++
  List.replicate 24 0 ++ d.data

/-- The bytes of a `TQ` message (R353): a WRITE brings its data, a READ the length it asks for. -/
def tqBytes (tid : Nat) (m : Msg) : List Byte :=
  let rd := m.op == opReadReq
  leBytes 1 (if rd then 2 else 1) ++ [0] ++ leBytes 2 (if rd then 0 else m.data.length) ++ leBytes 1 tid ++ [0] ++
  leBytes 2 (if rd then msgBytes m else 0) ++ leBytes 8 (aOffset m.dest) ++ leBytes 2 m.tenant.toNat ++ leBytes 4 m.src.toNat ++
  List.replicate 10 0 ++ (if rd then [] else m.data)

/-- The command that the bytes of a `TR` message are (R353). -/
def trCommand (k : StandId) (b : List Byte) : Instr :=
  .trAnswer k (byteAt b 4) (BitVec.ofNat 16 (leAt b 2 2)) (sub (b.drop 32) 0 (leAt b 6 2))

end Sys2Proof.Machine
end

