-- ==== Sys2Proof/Machine/Records.lean ====
section
/-! DEFINITION. Where records go: completion rings with the holding, the delivery crossing of a core port, the trace holds of
the source units; host memory reads (R168, R173 to R178, R352, R355, R475, R476, R481). -/

namespace Sys2Proof.Machine

/-- K of the completion ring and of the submission ring of a context (R166). -/
def cqK (c : RingCtx) : Nat := fld c.cq 0 5
def sqK (c : RingCtx) : Nat := fld c.sq 0 5

/-- The bus address of a ring's entry i of `size` bytes (R168). -/
def ringAddr (base : Word) (k size i : Nat) : Word := (base &&& ~~~(mask 0 12)) + BitVec.ofNat 64 (i % 2 ^ k * size)

/-- A host-memory write of a space-4 access (R173), counted in `OBS_HOST` (R467). -/
def hostWrite (s : State) (addr : Word) (data : List Byte) : State :=
  emit (tally s 0xC0108 data.length) (.hostWrite addr data)

/-- A host-memory read of the host agent (R173): what it is for is kept under its tag. -/
def hostRead (s : State) (p : HostRead) (addr : Word) (n : Nat) : State :=
  let t := s.host.nextTag
  let s := tally s 0xC0100 n
  emit { s with host := { s.host with nextTag := t + 1, reads := oset s.host.reads t (some p) } } (.hostRead t addr n)

/-- Records dropped of a ring (R176). -/
def lostOf (s : State) (n : Nat) : Nat := cget 0 s.host.lost n

/-- Count a dropped record of a ring, saturating at 65,535. -/
def dropRecord (s : State) (n : Nat) : State :=
  { s with host := { s.host with lost := cset 0 s.host.lost n (satAdd 16 (lostOf s n) 1) } }

/-- Write one record at the tail of a completion ring, with `PHASE` and `LOSS` (R173, R175, R176); it counts in no tally (R467; log 46). -/
def ringPut (s : State) (n : Nat) (c : RingCtx) (r : List Byte) : RingCtx × State :=
  let s' := emit s (.hostWrite (ringAddr c.cq (cqK c) 32 c.cqTail) (ringRecord r c.cqTail (cqK c) (lostOf s n)))
  ({ c with cqTail := (c.cqTail + 1) % 2 ^ 32 },
   if isTally r then s' else { s' with host := { s'.host with lost := cset 0 s'.host.lost n 0 } })

/-- Write records of a descriptor and release the `rel` records reserved for it (R171, R175). Without a context that can
be read, they are dropped (R168). -/
def ringRecords (s : State) (n rel : Nat) (rs : List (List Byte)) : State :=
  match ctxGet s n with
  | none => rs.foldl (fun s _ => dropRecord s n) s
  | some c =>
    if !c.isOpen then s
    else
      let (c, s) := rs.foldl (fun (c, s) r => ringPut s n c r) ({ c with resv := c.resv - rel }, s)
      ctxPut s n c

/-- A completion ring has room for an unsolicited record in its held-back slots (R171, R176). -/
def ringRoom (c : RingCtx) : Bool := c.isOpen && decide (idxDiff c.cqTail c.cqHead + c.resv < 2 ^ cqK c)

/-- The RINGS banks in ascending order of stand and bank, as stand × 34 + bank (R176, R301). -/
def ringsBanks (s : State) : List Nat :=
  (List.range (48 * 34)).filter (fun i =>
    let o := ownReg s (i / 34) (i % 34)
    ownKind o == 7 && ownReleased o && !ownBusy o && !girdled s (i / 34))

/-- A place in the holding: the host agent's own 256 first, then the RINGS banks (R176). -/
def holdingPlace (s : State) : Option (Option Nat) :=
  let used (p : Option Nat) : Nat := (s.host.holding.filter (fun h => decide (h.2.1 = p))).length
  if used none < 256 then some none
  else ((ringsBanks s).find? (fun b => decide (used (some b) < 65536))).map some

/-- A place of the holding is written or read: a RINGS bank is accessed for it (R306, R307), 32 bytes at the level `l` (R467). -/
def holdingTouch (s : State) (p : Option Nat) (l : Nat) : State :=
  match p with
  | none => s
  | some b => lvl (bankTouch s (b / 34) (b % 34) true).2 (b / 34) l 32

/-- An unsolicited record of a ring: written where the ring has room and none waits before it, else held, else dropped
(R176). A record for closed rings has no ring (log 45). -/
def unsolicited (s : State) (n : Nat) (r : List Byte) : State :=
  match ctxGet s n with
  | none => dropRecord s n
  | some c =>
    if !c.isOpen then s
    else if ringRoom c && !s.host.holding.any (fun h => h.1 == n) then ringRecords s n 0 [r]
    else match holdingPlace s with
    | some p =>
      let s := holdingTouch s p 1
      { s with host := { s.host with holding := s.host.holding ++ [(n, p, r)] } }
    | none => dropRecord s n

/-- The oldest held record whose ring has room is written (R176): the records of a ring in the order they arose. -/
def holdingWrite (s : State) : State :=
  match s.host.holding.find? (fun h => match ctxGet s h.1 with | some c => ringRoom c | none => false) with
  | none => s
  | some h =>
    let s := holdingTouch s h.2.1 0
    ringRecords { s with host := { s.host with holding := s.host.holding.erase h } } h.1 0 [h.2.2]

/-- The records held in a RINGS bank whose stand is girdled are dropped and counted (R176). -/
def holdingLost (s : State) (st : Nat) : State :=
  let gone (h : Nat × Option Nat × List Byte) : Bool := match h.2.1 with | some b => b / 34 == st | none => false
  let l := s.host.holding.filter gone
  let s := { s with host := { s.host with holding := s.host.holding.filter (fun h => !gone h) } }
  l.foldl (fun s h => dropRecord s h.1) s

/-- Free what a delivery message holds (R178, R351). -/
def applyFree (s : State) (k : StandId) (f : DlFree) : State :=
  match f with
  | .nothing => s
  | .buf n => { s with port := { s.port with buf := cmod 0 s.port.buf k.val (· - n) } }
  | .slots l => { s with port := { s.port with slots := l.foldl (fun t j => oset t (k.val * 16 + j) none) s.port.slots } }

/-- Count discarded items in `STD_CP_STATUS.LOSTS` (R367). -/
def countLost (s : State) (k : StandId) (n : Nat) : State := regCount s (stdOff k 0x1D8) 0 32 n

/-- What arrives for the core is discarded: its port is girdled, or has seen a core reset and not completed RESYNC (R365, R367). -/
def portLossy (s : State) (k : StandId) : Bool :=
  cget false s.port.lossy k.val || portGirdled s k.val || girdled s k.val

/-- A message on the port's `DL` crossing (R352), or its discard. -/
def dlPush (s : State) (k : StandId) (d : DlMsg) : State :=
  if portLossy s k then countLost (applyFree s k d.frees) k 1
  else
    let l := cget [] s.port.dl k.val
    let s := if l.isEmpty then { s with port := { s.port with since := cset 0 s.port.since (k.val * 8 + 2) s.time } } else s
    let s := { s with port := { s.port with dl := cset [] s.port.dl k.val (l ++ [d]) } }
    if frozenAt s k.val || decide (cget .reset s.port.xst k.val ≠ .up) then s else emit s (.dl k (dlBytes d))

/-- A RESPONSE on a port's delivery bundle (R352): its `RID` is no longer outstanding. The response to a request that a
core reset found outstanding is discarded at arrival (R367). -/
def dlResponse (s : State) (k : StandId) (rid : Nat) (r : Status) (data : List Byte) : State :=
  let e := (oget s.port.rids (k.val * 256 + rid)).getD (0, false)
  let f := if e.1 = 0 then DlFree.nothing else .buf e.1
  let s := { s with port := { s.port with rids := oset s.port.rids (k.val * 256 + rid) none } }
  if e.2 then countLost (applyFree s k f) k 1
  else dlPush s k { kind := 0, status := r, rid := BitVec.ofNat 8 rid, data := data, frees := f }

/-- A RECORD on a port's delivery bundle (R352). -/
def dlRecord (s : State) (k : StandId) (rec : List Byte) (f : DlFree) : State :=
  dlPush s k { kind := 1, status := statusOfCode (leAt rec 2 2), rid := 0, data := rec, frees := f }

/-- A DEFERRED record for a port: a girdled stand's goes to the first port of its core site that is not girdled, or is
dropped (R178). -/
def dlDeferred (s : State) (k : StandId) (rec : List Byte) : State :=
  if girdled s k.val then
    (match siteFirst s k.val with | some j => dlRecord s j rec .nothing | none => s)
  else dlRecord s k rec .nothing

/-- The wake-pending flag is set; `CPk_WAKE` follows it (R331, R355). A fenced site never wakes (R23). -/
def setWake (s : State) (k : StandId) : State :=
  if fenced s k.val || portLossy s k then s
  else if cget false s.port.wake k.val then s
  else { s with port := { s.port with
    wake := cset false s.port.wake k.val true, since := cset 0 s.port.since (k.val * 8 + 5) s.time } }

/-- A hang that a port's watchdog reported ends with its condition (R364). -/
def hungEnd (s : State) (k : StandId) (c : HangCond) : State :=
  if (cget [] s.port.hung k.val).contains c then
    { s with port := { s.port with hung := cmod [] s.port.hung k.val (fun l => l.filter (· != c)) } }
  else s

/-- Count a dropped trace record (R481). -/
def dropTrace (s : State) : State := regCount s 0xC0030 32 32 1

/-- A further record is dropped; the count of a LOSS record that is dropped, and the `TIME` of its first drop, join the next (R481; log 70). -/
def Drops.more (d : Drops) (t : Nat) (r : List Byte) : Drops :=
  let loss := decide (leAt r 8 1 = tkLoss)
  { n := d.n + (if loss then leAt r 24 4 else 1), since := if loss then (if d.n = 0 then leAt r 0 8 else min d.since (leAt r 0 8)) else if d.n = 0 then t else d.since }

/-- A record enters its source's hold of 16, a LOSS record before it where records have been dropped (R476, R481). With
`CAP` 0 no trace record leaves its source and every one is dropped (R477). -/
def sourceTrace (s : State) (srcu : Nat) (r : List Byte) : State :=
  let u : SrcUnit := if h : srcu < 48 then .port ⟨srcu, h⟩ else .hostAgent
  let send (s : State) (r : List Byte) : State :=
    inject s u (unitStand s u) (innerMsg s u (planeOf 0) opWrite vcBackground (centreTap s).val r)
  let drop (s : State) : State :=
    dropTrace { s with obs := { s.obs with srcDrop := cmod {} s.obs.srcDrop srcu (fun d => d.more s.time r) } }
  if regFld s 0xC0000 56 2 = 0 then drop s
  else
    let d := cget {} s.obs.srcDrop srcu
    let l := cget [] s.obs.hold srcu
    if 16 ≤ l.length then drop s
    else if d.n = 0 then send { s with obs := { s.obs with hold := cset [] s.obs.hold srcu (l ++ [r]) } } r
    else
      let x := lossRecord d.since srcu d.n 0
      let l := l ++ [x]
      let s := send { s with obs := { s.obs with hold := cset [] s.obs.hold srcu l, srcDrop := cset {} s.obs.srcDrop srcu {} } } x
      if 16 ≤ l.length then drop s
      else send { s with obs := { s.obs with hold := cset [] s.obs.hold srcu (l ++ [r]) } } r

/-- Trace runs for a tenant entry and a kind of record: bit 0 descriptors, 1 blazes (R475, R478). -/
def traced (s : State) (entry : Option Nat) (kind : Nat) : Bool :=
  regBit s 0xC0000 63 && regBit s 0xC0020 (56 + kind) &&
  (match entry with | some n => regBit s (0xC0400 + n / 64 * 8) (n % 64) | none => false)

/-- `SRCU` of an accepting unit (R474). -/
def accSrcu : Acceptor → Nat
  | .ring _ => 48
  | .port k => k.val

/-- A descriptor by its number. -/
def descAt (s : State) (id : Nat) : Option DescSt := oget s.host.descs id

/-- Change a descriptor. -/
def modDesc (s : State) (id : Nat) (f : DescSt → DescSt) : State :=
  { s with host := { s.host with descs := tmod (fun _ => none) s.host.descs id (fun d => d.map f) } }

/-- The start latch of a descriptor, with its DSTART; a chain has that of its first member (R470, R475). -/
def traceStart (s : State) (id : Nat) : State :=
  match descAt s id with
  | none => s
  | some d =>
    let s := modDesc s id (fun d => { d with start := s.time })
    if traced s (accEntry s d.acc) 0 && (d.chain.isNone || d.chain == some id) then
      sourceTrace s (accSrcu d.acc) (traceRecord s.time tkStart (accSrcu d.acc) 0 d.raw d.tag16 (dLen d.raw))
    else s

end Sys2Proof.Machine
end

