-- ==== Sys2Proof/Machine/Slice.lean ====
section
/-! DEFINITION. Accesses of the fabric to a bank or to the dual-port region: the checks of R302, retention, twins, the
areas of R292 (chapter 09; R44, R67, R467). -/

namespace Sys2Proof.Machine

/-- What serving an access gives: data, a refusal or failure with the data it returns, or NACK BUSY. -/
inductive Served where
  | ok (data : List Byte)
  | fail (r : Status) (data : List Byte)
  | busy
  deriving DecidableEq, Repr

/-- Steps 1 to 3 of R302, for any user of a bank. -/
def bankNotReady (s : State) (st bank : Nat) : Bool :=
  !inService s st || !ownReleased (ownReg s st bank) || ownBusy (ownReg s st bank)

/-- Steps 1 to 4 of R302 for a fabric access of a tenant. -/
def bankRefuse (s : State) (st bank : Nat) (tag : BitVec 16) : Option Status :=
  if bankNotReady s st bank then some .notReady
  else if ownKind (ownReg s st bank) == 1 && ownTag (ownReg s st bank) == tag then none
  else some .owner

/-- The twin of a primary bank that takes its writes: entry, stand and bank. A twin that is stale takes none (R310). -/
def twinOf (s : State) (st bank : Nat) : Option (Nat × StandId × Nat) :=
  (entryOfPrimary s st bank).bind (fun n =>
    let c := coppice s n
    if copTwin c && !ownTstale (ownReg s (copTStand c) (copTBank c)) then some (n, standOf (copTStand c), copTBank c) else none)

/-- A twin is marked TSTALE, and an event names the entry (R310). -/
def markStale (s : State) (n st bank : Nat) (c : Cause) : State :=
  raise (setOwn s st bank (fun o => put 60 1 1 o)) c st bank (BitVec.ofNat 64 n)

/-- What the primary applied is passed to the twin (R67). A twin on a girdled stand, or one whose write-back finds an
uncorrectable word, becomes TSTALE (R310). A hub that FREEZE has stopped takes nothing (R484). -/
def twinWrite (s : State) (st bank byte : Nat) (data : List Byte) : State :=
  match twinOf s st bank with
  | none => s
  | some (n, ts, tb) =>
    if girdled s ts.val then markStale s n ts.val tb cTwinStale
    else if frozenAt s ts.val then s
    else
      let s := (bankTouch s ts.val tb true).2
      let (ok, s) := writeBank s ts tb byte data
      let s := lvl s ts.val 1 data.length
      if ok then s else markStale s n ts.val tb cTwinWriteback

/-- What the primary stored of a write, read off the state after it: not a partial first or last word that was left poisoned
(R291). Its place and its bytes. -/
def storedPart (s : State) (st bank byte : Nat) (data : List Byte) : Nat × List Byte :=
  let n := data.length
  let last := (byte + n - 1) / 32
  let h := if wordOut s st bank (byte / 32) = .poisoned then min (32 - byte % 32) n else 0
  let e := if last ≠ byte / 32 ∧ wordOut s st bank last = .poisoned then (byte + n) % 32 else 0
  (byte + h, (data.take (n - e)).drop h)

/-- The bytes read when a word of the range is poisoned are undefined: free bytes (R290; log 4). -/
def poisonData (s : State) (n : Nat) : Served × State :=
  let (d, s) := drawBytes s n
  (.fail .poison d, s)

/-- A fabric read of a bank (R302, R290). -/
def bankRead (s : State) (st : StandId) (bank : Nat) (tag : BitVec 16) (inn : Bool) (byte n : Nat) : Served × State :=
  match bankRefuse s st.val bank tag with
  | some r => (.fail r [], s)
  | none =>
    match bankTouch s st.val bank inn with
    | (false, s) => (.busy, s)
    | (true, s) =>
      match readBank s st bank byte n .service with
      | (some d, s) => (.ok d, lvl s st.val 0 n)
      | (none, s) => poisonData s n

/-- A fabric write of a bank through an alias, 0 plain, 1 bit-set, 2 bit-clear (R44, R291, R299, R302, R67). -/
def bankWrite (s : State) (st : StandId) (bank : Nat) (tag : BitVec 16) (inn : Bool) (byte : Nat) (data : List Byte) (al : Nat) : Served × State :=
  match bankRefuse s st.val bank tag with
  | some r => (.fail r [], s)
  | none =>
    match bankTouch s st.val bank inn with
    | (false, s) => (.busy, s)
    | (true, s) =>
      if al = 0 then
        let (ok, s) := writeBank s st bank byte data
        let (at_, kept) := storedPart s st.val bank byte data
        let s := lvl s st.val 1 data.length
        let s := if kept.isEmpty then s else twinWrite s st.val bank at_ kept
        (if ok then .ok [] else .fail .remoteWriteFault [], s)
      else
        let op := if al = 1 then bitSetOp data else bitClearOp data
        match rmwBank s st bank byte data.length op with
        | (none, s) => (.fail .remoteWriteFault [], s)
        | (some old, s) => (.ok [], twinWrite (lvl s st.val 1 data.length) st.val bank byte (op old))

/-- A fabric ATOMIC of a bank: the old value (R299, R67). -/
def bankAtomic (s : State) (st : StandId) (bank : Nat) (tag : BitVec 16) (inn : Bool) (byte : Nat) (opx : Nat) (data : List Byte) : Served × State :=
  match bankRefuse s st.val bank tag with
  | some r => (.fail r [], s)
  | none =>
    match bankTouch s st.val bank inn with
    | (false, s) => (.busy, s)
    | (true, s) =>
      match rmwBank s st bank byte data.length (atomicOp opx data) with
      | (none, s) => (.fail .remoteWriteFault [], s)
      | (some old, s) =>
        let s := lvl (lvl s st.val 0 data.length) st.val 1 data.length
        (.ok old, twinWrite s st.val bank byte (atomicOp opx data old))

/-- The status that a bank's checks give an access now, without writing (R117). -/
def bankStatus (s : State) (st bank : Nat) (tag : BitVec 16) : Status := (bankRefuse s st bank tag).getD .ok

/-- A DPBYTE range meets an area. -/
def meets (byte n lo hi : Nat) : Bool := decide (byte < hi) && decide (lo < byte + n)

/-- The zeroing of mailbox and general memory runs at a stand (R296). -/
def zeroing (s : State) (st : Nat) : Bool := cget false s.slice.zeroing st

/-- Why the dual-port region refuses a fabric access (R168, R292 to R296, R302 step 1): an internal unit comes under the
fabric tag 0. -/
def dpRefuse (s : State) (st : StandId) (tag : BitVec 16) (byte n : Nat) : Option Status :=
  if !inService s st.val || !afterS4 s then some .notReady
  else if inCtxArea s st.val byte n then some .owner
  else if meets byte n 0x10000 0x10800 || meets byte n 0xFC00 0x10000 then some .addrRange
  else if zeroing s st.val then some .notReady
  else if tag = 0 || boundTag s st == some tag then none
  else some .owner

/-- A fabric read of the dual-port region. -/
def dpRead (s : State) (st : StandId) (tag : BitVec 16) (byte n : Nat) : Served × State :=
  match dpRefuse s st tag byte n with
  | some r => (.fail r [], s)
  | none =>
    match readBank s st dpBank byte n .service with
    | (some d, s) => (.ok d, lvl s st.val 2 n)
    | (none, s) => poisonData s n

/-- A fabric write of the dual-port region through an alias. -/
def dpWrite (s : State) (st : StandId) (tag : BitVec 16) (byte : Nat) (data : List Byte) (al : Nat) : Served × State :=
  match dpRefuse s st tag byte data.length with
  | some r => (.fail r [], s)
  | none =>
    let s := lvl s st.val 3 data.length
    if al = 0 then
      let (ok, s) := writeBank s st dpBank byte data
      (if ok then .ok [] else .fail .remoteWriteFault [], s)
    else
      match rmwBank s st dpBank byte data.length (if al = 1 then bitSetOp data else bitClearOp data) with
      | (none, s) => (.fail .remoteWriteFault [], s)
      | (some _, s) => (.ok [], s)

/-- A fabric ATOMIC of the dual-port region: the old value. -/
def dpAtomic (s : State) (st : StandId) (tag : BitVec 16) (byte opx : Nat) (data : List Byte) : Served × State :=
  match dpRefuse s st tag byte data.length with
  | some r => (.fail r [], s)
  | none =>
    match rmwBank s st dpBank byte data.length (atomicOp opx data) with
    | (none, s) => (.fail .remoteWriteFault [], s)
    | (some old, s) => (.ok old, lvl (lvl s st.val 2 data.length) st.val 3 data.length)

/-- A piece of a slice-memory range that lies in one bank or in the dual-port region. -/
structure Piece where
  addr : Word
  off  : Nat
  len  : Nat
  deriving DecidableEq, Repr

/-- The pieces of a range, cut at bank boundaries in the walk of R68; `k` bounds them. -/
def pieces (a : Word) (off n : Nat) : Nat → List Piece
  | 0 => []
  | k + 1 =>
    if n = 0 then []
    else
      let room := if aSpace a = 0 ∧ !aDp a then 2 ^ 21 - aByte a else n
      let m := min n room
      ⟨a, off, m⟩ :: pieces (addrPlus a m) (off + m) (n - m) k

/-- One piece read at a resolved home on this die (R59); a second mismatch of the map copies is NOT_READY, which the transport retries (R60). -/
def readPiece (s : State) (tag : BitVec 16) (inn : Bool) (h : Home) (p : Piece) : Served × State :=
  match h with
  | .bank st b => bankRead s (standOf st) b tag inn (aByte p.addr) p.len
  | .dp st => dpRead s (standOf st) tag (if aSpace p.addr = 0 then aDpByte p.addr else aMbox p.addr) p.len
  | .refuse .poison => poisonData s p.len
  | .refuse .notReady => (.busy, s)
  | .refuse r => (.fail r [], s)
  | _ => (.fail .addrRange [], s)

/-- One piece written at a resolved home on this die. -/
def writePiece (s : State) (tag : BitVec 16) (inn : Bool) (h : Home) (p : Piece) (data : List Byte) : Served × State :=
  let d := (data.drop p.off).take p.len
  match h with
  | .bank st b => bankWrite s (standOf st) b tag inn (aByte p.addr) d (aAlias p.addr)
  | .dp st =>
    if aSpace p.addr = 0 then dpWrite s (standOf st) tag (aDpByte p.addr) d (aAlias p.addr)
    else dpWrite s (standOf st) tag (aMbox p.addr) d 0
  | .refuse .notReady => (.busy, s)
  | .refuse r => (.fail r [], s)
  | _ => (.fail .addrRange [], s)

/-- The first failure of two outcomes; data joined. -/
def joinServed (a b : Served) : Served :=
  match a, b with
  | .busy, _ => .busy
  | _, .busy => .busy
  | .ok x, .ok y => .ok (x ++ y)
  | .fail r x, .ok y => .fail r (x ++ y)
  | .fail r x, .fail _ y => .fail r (x ++ y)
  | .ok x, .fail r y => .fail r (x ++ y)

/-- Read every piece; `res` resolves an address at the serving stand (R59). -/
def readPieces (tag : BitVec 16) (inn : Bool) (res : State → Word → Home) (s : State) : List Piece → Served × State
  | [] => (.ok [], s)
  | p :: r =>
    let (a, s) := readPiece s tag inn (res s p.addr) p
    let (b, s) := readPieces tag inn res s r
    (joinServed a b, s)

/-- Write every piece: a range that meets a RETAINED or WAKING bank in any part is refused whole, though the bytes in its
other banks stay written (R307). -/
def writePieces (tag : BitVec 16) (inn : Bool) (res : State → Word → Home) (data : List Byte) (s : State) : List Piece → Served × State
  | [] => (.ok [], s)
  | p :: r =>
    let (a, s) := writePiece s tag inn (res s p.addr) p data
    let (b, s) := writePieces tag inn res data s r
    (joinServed a b, s)

/-- The pieces of a message's range: 4,096 bytes meet at most two banks. -/
def msgPieces (a : Word) (n : Nat) : List Piece := pieces a 0 n 3

/-- The home of a piece as the hub that it reaches has it (R60): a bank of another stand counts only where that stand's own copy of the map
assigns the address to it; else that hub forwards once, to the home its copy gives, and a second mismatch is NOT_READY. -/
def settledHome (s : State) (w : Bool) (a : Word) (h : Home) : Home :=
  let own (st bank : Nat) : Bool :=
    let c := hubCoppice s st (aEntry a)
    (copPStand c == st && copPBank c == bank) || (!w && copTwin c && copTStand c == st && copTBank c == bank)
  match h with
  | .bank st b =>
    if own st b then h
    else match resolveWith s (parity s) (hubCoppice s st) st a w with
    | .bank st2 b2 => if own st2 b2 then .bank st2 b2 else .refuse .notReady
    | h2 => h2
  | h => h

/-- Read a range in slice memory or a mailbox. -/
def memRead (s : State) (tag : BitVec 16) (inn : Bool) (res : State → Word → Home) (a : Word) (n : Nat) : Served × State :=
  readPieces tag inn (fun s a => settledHome s false a (res s a)) s (msgPieces a n)

/-- Write a range in slice memory or a mailbox. -/
def memWrite (s : State) (tag : BitVec 16) (inn : Bool) (res : State → Word → Home) (a : Word) (data : List Byte) : Served × State :=
  writePieces tag inn (fun s a => settledHome s true a (res s a)) data s (msgPieces a data.length)

/-- The status that the checks give a write of a range now, without writing (R117). -/
def writeStatus (s : State) (tag : BitVec 16) (res : State → Word → Home) (a : Word) (n : Nat) : Status :=
  (msgPieces a n).foldl (fun r p =>
    if r ≠ .ok then r
    else match settledHome s true p.addr (res s p.addr) with
    | .bank st b => bankStatus s st b tag
    | .dp st => (dpRefuse s (standOf st) tag (if aSpace p.addr = 0 then aDpByte p.addr else aMbox p.addr) p.len).getD .ok
    | .refuse x => x
    | _ => .ok) .ok

/-- The bytes of a piece that are left undefined are free, the same in its bank and in the twin (R67, R187, R206; log 4): only those that the
home would have written. -/
def freePiece (tag : BitVec 16) (s : State) (p : Piece) : State :=
  let home (w : Bool) (a : Word) : Home := settledHome s w a (resolve s (aStand p.addr) a w)
  if writeStatus s tag (fun s a => resolve s (aStand p.addr) a true) p.addr p.len ≠ .ok then s
  else match home true p.addr with
  | .bank st b =>
    let (d, s) := drawBytes s p.len
    let s := putBytes s st b (aByte p.addr) d
    (match twinOf s st b with
    | some (_, t, tb) => putBytes s t.val tb (aByte p.addr) d
    | none => s)
  | .dp st =>
    let (d, s) := drawBytes s p.len
    putBytes s st dpBank (if aSpace p.addr = 0 then aDpByte p.addr else aMbox p.addr) d
  | _ => s

/-- The bytes of a message's range are left undefined. -/
def freeRange (s : State) (tag : BitVec 16) (a : Word) (n : Nat) : State := (msgPieces a n).foldl (freePiece tag) s

end Sys2Proof.Machine
end

