-- ==== Sys2Proof/Machine/Wake.lean ====
section
/-! DEFINITION. Wake requests at the dormancy controller, and retention as a register or the dormancy protocol requests it
(R306, R340 to R342). -/

namespace Sys2Proof.Machine

/-- `RET` is written 0 at a bank (R306): an entry is aborted, a retained bank starts its wake. -/
def retClear (s : State) (st bank : Nat) : State :=
  match ownRstate (ownReg s st bank) with
  | 1 => setRet s st bank rActive false
  | 2 => setRet s st bank rWaking false
  | r => setRet s st bank r false

/-- `RET` is written 1 at a bank (R306): a FREE bank takes none; an ACTIVE bank begins its entry, or, with `BUSY` or `TSYNC`, does
so once the wipe or fill is complete. -/
def retSet (s : State) (st bank : Nat) : State :=
  let o := ownReg s st bank
  if ownKind o = 0 then s
  else if ownRstate o = 0 ∧ !ownBusy o ∧ !ownTsync o then setRet s st bank rEntering true
  else setOwn s st bank (fun o => put 57 1 1 o)

/-- A bank whose wipe or fill is complete begins the entry that `RET` asks for (R306). -/
def retDue (s : State) (st bank : Nat) : State :=
  let o := ownReg s st bank
  if bitAt o 57 ∧ ownRstate o = 0 ∧ !ownBusy o ∧ !ownTsync o then setRet s st bank rEntering true else s

/-- A stand has stopped cruise and scrubbing: from its COMMIT until the exit is complete (R342, R343). -/
def standDormant (s : State) (st : StandId) : Bool :=
  dormHeld s && (decide (s.dorm.phase ≠ .entering) || decide (st ∈ s.dorm.taken))

/-- The exit from dormancy starts (R341, R342): the request held before COMMIT is restored, and each stand clears `RET` on the
banks it recorded. In the safe state of a brown-out or of TCRIT the request stays VBOOT and every `RET` set (R456). -/
def dormExit (s : State) : State :=
  let s := sendRhz { s with dorm := { s.dorm with phase := .exiting, at_ := s.time },
                            pwr := if s.pwr.safe then s.pwr else { s.pwr with vfab := s.pwr.saved } } .exitDorm
  if s.pwr.safe then s else s.dorm.banks.foldl (fun s b => retClear s b.1.val b.2) s

/-- A round is aborted (R341): ABORT is broadcast, `WHY` kept, `ABORTS` counts on. -/
def dormAbort (s : State) (why : Nat) : State :=
  regCount (sendRhz { s with dorm := { s.dorm with phase := .service, why := why, cast := [], yes := [], nos := [], taken := [], at_ := s.time } } (.abort s.dorm.round))
    0xA28 16 16 1

/-- The voters: every stand that is not girdled, the host agent, the collector (R339). -/
def voters (s : State) : List Voter := ((stands.filter (fun st => !girdled s st.val)).map Voter.stand) ++ [.hostAgent, .collector]

/-- A wake request, seen by a voter (R340, R341): in a round the voter sends NO once, and so withdraws a YES that it has sent; after COMMIT the
request is latched, and it ends dormancy. -/
def wakeRequest (s : State) (w : Voter) : State :=
  match s.dorm.phase with
  | .service => s
  | .proposed =>
    if w ∈ s.dorm.nos.map Prod.fst ∨ w ∉ voters s then s
    else sendRhz { s with dorm := { s.dorm with nos := (w, !decide (w ∈ s.dorm.cast)) :: s.dorm.nos } } (.vote w s.dorm.round false)
  | .entering => { s with dorm := { s.dorm with latched := true } }
  | .dormant => dormExit { s with dorm := { s.dorm with latched := true } }
  | .exiting => s

end Sys2Proof.Machine
end

