-- ==== Sys2Proof/Machine/Barrier.lean ====
section
/-! DEFINITION. Barriers and their sidebands (R332 to R336, R389, R390). -/

namespace Sys2Proof.Machine

/-- A barrier. -/
def barAt (s : State) (n : Nat) : Bar := cget {} s.sync.bars n

/-- Set a barrier. -/
def setBar (s : State) (n : Nat) (b : Bar) : State := { s with sync := { s.sync with bars := cset {} s.sync.bars n b } }

/-- The die's physical position, and whether the package is a row (R51). -/
def pdie (s : State) : Nat := regFld s 0x18 0 2
def packageRow (s : State) : Bool := regBit s 0x18 2

/-- An edge with a module in UP (R387). -/
def edgeLive (s : State) (e : Nat) : Bool := (List.range (edgeMods e)).any (fun m => decide ((modAt s e m).state = .up))

/-- The sideband of an edge (R390). -/
def sbAt (s : State) (e : Nat) : SbState := cget {} s.brg.sb e

/-- Set the sideband of an edge. -/
def setSb (s : State) (e : Nat) (x : SbState) : State := { s with brg := { s.brg with sb := cset {} s.brg.sb e x } }

/-- A sideband is up: a module of its edge is UP and a valid update has come within 10 µs (R390). -/
def sbUp (s : State) (e : Nat) : Bool := edgeLive s e && (sbAt s e).up

/-- A sideband path to the die at position `d` remains, over the relays (R334, R336, R390): in a row along its side, else over
any edge. Links between other dies are taken to be up (log 22). -/
def sbPath (s : State) (d : Nat) : Bool :=
  if packageRow s then (if pdie s < d then sbUp s 1 else sbUp s 3) else (List.range 4).any (sbUp s)

/-- CRC-3: x^3 + x + 1, initial value 7, over A[6:0] then B[6:3] (R389). -/
def crc3 (x y : Nat) : Nat := (msbBits 7 x ++ msbBits 4 (y / 8)).foldl (crcStep 3 0x3) 7

/-- The phase and vector that this die sends for a barrier: its own where the barrier is enabled here in package scope, else what it has
heard and passes on (R336). -/
def sbState (s : State) (n : Nat) : Bool × BitVec 4 :=
  let b := barAt s n
  if b.en && b.pkg then (b.phase, b.vec) else cget (false, 0) s.sync.relay n

/-- The two bytes of an update of a phase and vector (R389). -/
def sbBytes (n : Nat) (x : Bool × BitVec 4) : Byte × Byte :=
  let y := x.2.toNat * 8
  let x := 128 + (if x.1 then 64 else 0) + n
  (BitVec.ofNat 8 x, BitVec.ofNat 8 (y + crc3 (x % 128) y))

/-- Send a barrier's state on one edge. -/
def sbSend (s : State) (n : Nat) (e : Nat) : State :=
  let p := sbBytes n (sbState s n)
  emit s (.sideband ⟨e % 4, Nat.mod_lt _ (by decide)⟩ p.1 p.2)

/-- Send a barrier's state on every trained edge (R336, R390). -/
def sbSendAll (s : State) (n : Nat) : State := ((List.range 4).filter (edgeLive s)).foldl (fun s e => sbSend s n e) s

/-- The AND of the die's own leaves: a leaf outside the mask is 1 (R336). -/
def barOwn (b : Bar) : Bool := b.mask &&& ~~~b.arrived == 0

/-- A release or an answer on the port's delivery bundle (R334, R352). -/
def dlRelease (s : State) (k : StandId) (n : Nat) (r : Status) : State :=
  dlPush s k { kind := 2, status := r, rid := BitVec.ofNat 8 n, data := [], frees := .nothing }

/-- A port is released from a barrier and woken (R331, R334): at once, or once the die is in SERVICE (R343). -/
def barRelease (s : State) (n : Nat) (r : Status) (k : StandId) : State :=
  if dormHeld s then { s with sync := { s.sync with rels := s.sync.rels ++ [(k, n, r)] } } else setWake (dlRelease s k n r) k

/-- The ports that have arrived are released with a status. -/
def barReleaseAll (s : State) (n : Nat) (r : Status) : State :=
  (stands.filter (fun k => bitAt (barAt s n).arrived k.val)).foldl (fun s k => barRelease s n r k) s

/-- The releases that waited for SERVICE are offered (R343). -/
def barFlush (s : State) : State :=
  s.sync.rels.foldl (fun s x => setWake (dlRelease s x.1 x.2.1 x.2.2) x.1) { s with sync := { s.sync with rels := [] } }

/-- What breaks a gathering barrier: a participant girdled or fenced, or no sideband path to a die; with the event's location (R334,
R407). -/
def barLoss (s : State) (b : Bar) : Option Nat :=
  match stands.find? (fun k => bitAt b.mask k.val && (girdled s k.val || portGirdled s k.val || fenced s k.val)) with
  | some k => some k.val
  | none =>
    if b.pkg && (List.range 4).any (fun d => bitAt b.dmask d && d != pdie s && !sbPath s d) then some locFault else none

/-- A barrier breaks (R334); where its vector changes, the update goes out (R390). -/
def barBreak (s : State) (n : Nat) (r : Status) (loc : Nat) : State :=
  let s := barReleaseAll s n r
  let b := barAt s n
  let s := raise (setBar s n { b with broken := true, arrived := 0, first := none, vec := 0 }) cBarrierBroken loc 0 0
  if b.pkg && b.vec != 0 then sbSendAll s n else s

/-- The vector of a barrier with the die's own arrival, sent where it has changed (R336, R390). -/
def barVec (s : State) (n : Nat) : State :=
  let b := barAt s n
  let v := if b.pkg && barOwn b then setBit b.vec (pdie s) true else b.vec
  if v = b.vec then s else sbSendAll (setBar s n { b with vec := v }) n

/-- The barrier of the phase is complete (R334). -/
def barFull (b : Bar) : Bool :=
  barOwn b && (if b.pkg then b.dmask &&& ~~~b.vec == 0 else b.mask != 0)

/-- A barrier in GATHER: it breaks, is released, or waits (R334), in dormancy as in service: only the releases are offered later (R343). -/
def barCheck (s : State) (n : Nat) : State :=
  let b := barAt s n
  if !b.en || b.broken then s
  else
    let s := barVec s n
    match barLoss s (barAt s n) with
    | some loc => barBreak s n .memberLost loc
    | none =>
      if barFull (barAt s n) then
        let s := barReleaseAll s n .ok
        let b := barAt s n
        let s := setBar s n { b with arrived := 0, first := none, phase := !b.phase, vec := 0 }
        if b.pkg then barVec (sbSendAll s n) n else s
      else s

/-- Every barrier is checked: after a girdle, a change of a sideband, or dormancy. -/
def barCheckAll (s : State) : State := (List.range 64).foldl barCheck s

/-- A port arrives at a barrier: R335, then R334. The arrival is a wake request (R340). -/
def barArrive (k : StandId) (n : Nat) (s : State) : State :=
  let s := wakeRequest s (.stand k)
  let b := barAt s n
  if !b.en || !bitAt b.mask k.val then dlRelease s k n .addrRange
  else if boundTag s k ≠ some b.tag then dlRelease s k n .owner
  else if bitAt b.arrived k.val then dlRelease s k n .notReady
  else if b.broken then barRelease s n .memberLost k
  else barCheck (setBar s n { b with arrived := setBit b.arrived k.val true, first := some (b.first.getD s.time) }) n

/-- The arrivals of a port are withdrawn (R367), and the releases that it has not been offered: the timer stops with the last of a phase
(R334). -/
def barWithdraw (k : StandId) (s : State) : State :=
  let s := { s with sync := { s.sync with rels := s.sync.rels.filter (fun x => decide (x.1 ≠ k)) } }
  (List.range 64).foldl (fun s n =>
    let b := barAt s n
    if bitAt b.arrived k.val then
      let a := setBit b.arrived k.val false
      let v := if b.pkg && barOwn b then setBit b.vec (pdie s) false else b.vec
      let s := setBar s n { b with arrived := a, first := if a = 0 then none else b.first, vec := v }
      if v = b.vec then s else sbSendAll s n
    else s) s

/-- `BAR_CTL` and `BAR_MASK` as words (R332). -/
def barCtlWord (b : Bar) : Word :=
  mkBit 63 b.en ||| mkBit 62 b.pkg ||| mk 58 4 b.dmask.toNat ||| mkBit 57 b.broken ||| mkBit 56 b.phase |||
    mk 32 16 b.tmo.toNat ||| mk 0 16 b.tag.toNat
def barMaskWord (b : Bar) : Word := BitVec.ofNat 64 b.mask.toNat

/-- A rewrite of a barrier, word 0 `BAR_MASK`, word 1 `BAR_CTL` (R333, R334). -/
def barRewrite (n word : Nat) (wm v : Word) (s : State) : State :=
  let off := 0x90000 + n * 32 + word * 8
  let b := barAt s n
  let w := merge wm (if word = 0 then barMaskWord b else barCtlWord b) v
  let c : Bar := if word = 0 then { b with mask := BitVec.ofNat 48 (fld w 0 48) }
    else { b with en := bitAt w 63, pkg := bitAt w 62, dmask := BitVec.ofNat 4 (fld w 58 4), tmo := BitVec.ofNat 16 (fld w 32 16),
                  tag := BitVec.ofNat 16 (fld w 0 16) }
  let busy := b.en && !b.broken && b.arrived != 0
  if (busy && (word == 0 || c.en)) || (word == 1 && c.pkg && !bitAt c.dmask (pdie s)) || (c.mask == 0 && c.en && !c.pkg) then
    refuseWrite s off
  else
    let s := if word = 1 ∧ !c.en then barReleaseAll s n .addrRange else s
    let s := setBar s n { c with broken := false, phase := false, arrived := 0, first := none, vec := 0 }
    let s := if c.en && c.pkg then { s with sync := { s.sync with relay := cset (false, 0) s.sync.relay n (false, 0) } } else s
    barCheck (if c.pkg && c.en then sbSendAll s n else s) n

def execBarrierRewrite (b : Fin 64) (word : Fin 2) (v : Word) (s : State) : Step :=
  mgStep s (0x90000 + b.val * 32 + word.val * 8) v (barRewrite b.val word.val)

/-- The timer of a barrier's phase expires: a wake request, and the barrier breaks with TIMEOUT (R334, R340). -/
def barTimeout (n : Nat) (s : State) : State :=
  let b := barAt s n
  match b.first with
  | none => s
  | some t =>
    if !b.en || b.broken || b.tmo == 0 then s
    else
      barBreak (wakeRequest (advanceTo s (t + b.tmo.toNat * 1000)) .collector) n .timeout locFault

def execBarrierTimeout (b : Fin 64) (s : State) : Step := run s (barTimeout b.val)

/-- An update of a package barrier that is not this die's own: its vector joins those heard of the phase and is passed on on every trained
edge; another phase takes the place of the last (R336, R390; log 22). -/
def sbRelay (s : State) (n : Nat) (p : Bool) (v : BitVec 4) : State :=
  let x := cget (false, 0) s.sync.relay n
  let y := (p, if x.1 = p then x.2 ||| v else v)
  if y = x then s else sbSendAll { s with sync := { s.sync with relay := cset (false, 0) s.sync.relay n y } } n

/-- A sideband update arrives at an edge: byte A, where one came, and byte B (R389, R390). An update of another phase than the
barrier's own does nothing (log 22). -/
def sbReceive (e : Fin 4) (x : Option Byte) (y : Byte) (s : State) : State :=
  let ok := match x with
    | some x => bitAt x 7 && !bitAt y 7 && fld y 0 3 == crc3 (fld x 0 7) y.toNat
    | none => false
  if !ok then raise (regCount s (0xB0010 + e.val * 8) 32 16 1) cSideband (locEdge e.val) 0 0
  else
    let x := x.getD 0
    let n := fld x 0 6
    let s := setSb s e.val { up := true, last := s.time }
    let b := barAt s n
    if !(b.en && b.pkg) then sbRelay s n (bitAt x 6) (BitVec.ofNat 4 (fld y 3 4))
    else if !b.broken && b.phase == bitAt x 6 then
      let v := b.vec ||| BitVec.ofNat 4 (fld y 3 4)
      let s := if v = b.vec then s else sbSendAll (setBar s n { b with vec := v }) n
      barCheck s n
    else s

def execSidebandUpdateReceive (e : Fin 4) (x : Option Byte) (y : Byte) (s : State) : Step := run s (sbReceive e x y)

/-- Every 1 µs: the state of every enabled package-scope barrier on every trained edge, or of barrier 0 (R390). -/
def sbResend (s : State) : State :=
  let l := (List.range 64).filter (fun n => (barAt s n).en && (barAt s n).pkg)
  (if l.isEmpty then [0] else l).foldl sbSendAll s

def execSidebandResend (s : State) : Step := run s sbResend

/-- 10 µs pass on an edge without a valid update (R390, R334). -/
def sbLoss (e : Fin 4) (s : State) : State :=
  let x := sbAt s e.val
  if !x.up then s else barCheckAll (setSb (advanceTo s (x.last + 10000)) e.val { x with up := false })

def execSidebandLoss (e : Fin 4) (s : State) : Step := run s (sbLoss e)

end Sys2Proof.Machine
end

