-- ==== Sys2Proof/Machine/Complete.lean ====
section
/-! DEFINITION. Completion: descriptors and chains from their outcome to their records, work items at their executors, the
notices of posted failures (R152, R155 to R160, R174, R177, R187, R188, R470 to R475). -/

namespace Sys2Proof.Machine

/-- A work item by its number. -/
def itemAt (s : State) (i : Nat) : Option ItemSt := oget s.host.items i

/-- Change a work item. -/
def modItem (s : State) (i : Nat) (f : ItemSt → ItemSt) : State :=
  { s with host := { s.host with items := tmod (fun _ => none) s.host.items i (fun x => x.map f) } }

/-- Remove a work item. -/
def dropItem (s : State) (i : Nat) : State := { s with host := { s.host with items := oset s.host.items i none } }

/-- The queue of descriptors of an acceptor, in submission order (R161). -/
def queueOf (s : State) (a : Acceptor) : List Nat := cget [] s.host.queues (accNo a)

/-- A descriptor leaves its acceptor. -/
def eraseDesc (s : State) (id : Nat) : State :=
  match descAt s id with
  | none => s
  | some d => { s with host := { s.host with
      descs := oset s.host.descs id none
      queues := cset [] s.host.queues (accNo d.acc) ((queueOf s d.acc).filter (· ≠ id)) } }

/-- A descriptor that is complete, with every message acknowledged and its chain reported, leaves (R164). -/
def tryErase (s : State) (id : Nat) : State :=
  match descAt s id with
  | none => s
  | some d =>
    if d.phase = .complete ∧ d.chain = none ∧ d.todo = 0 ∧ d.unack = 0 ∧ d.items = [] then eraseDesc s id else s

/-- The records of a completion, NORMAL first (R174, R175, R470, R472). -/
def recordsOf (d : DescSt) (flags : BitVec 8) (status : Status) (addr result : Word) (sqidx : Nat) (tally : Bool)
    (rd wr : Nat) (lv pl : BitVec 8) (fronds dur : Nat) : List (List Byte) :=
  let n := record recNormal flags status (dTag d.raw) addr result sqidx
  if tally && decide (status ≠ .badDesc) then [n, tallyRecord status (dTag d.raw) sqidx rd wr lv pl fronds dur] else [n]

/-- Deliver the records of a completion to the ring or the port that the descriptor came from, freeing the slots `fr`
(R175, R178); those of a descriptor that a core reset found are discarded (R367). -/
def deliver (s : State) (d : DescSt) (rel : Nat) (fr : List Nat) (rs : List (List Byte)) : State :=
  match d.acc with
  | .ring n => ringRecords s n.val rel rs
  | .port k =>
    if d.dead then countLost (applyFree s k (.slots fr)) k 1
    else match rs with
    | [r] => dlRecord s k r (.slots fr)
    | [r, t] => dlRecord (dlRecord s k r .nothing) k t (.slots fr)
    | _ => s

/-- The signal of a completion: at every one but BAD_DESC (R152). -/
def csync (s : State) (raw : List Byte) (status : Status) : State :=
  if csSv raw && decide (status ≠ .badDesc) then sendRhz s (.signal (csObj raw) (BitVec.ofNat 32 (csInc raw))) else s

/-- The DEND of a descriptor (R475): none for BAD_DESC. -/
def traceEnd (s : State) (d : DescSt) (status : Status) (wr : Nat) : State :=
  if traced s (accEntry s d.acc) 0 && decide (status ≠ .badDesc) then
    sourceTrace s (accSrcu d.acc)
      (traceRecord s.time tkEnd (accSrcu d.acc) (statusCode status) d.raw d.tag16
        (min (2 ^ 40 - 1) wr + min (2 ^ 24 - 1) ((s.time - d.start) / 1000) * 2 ^ 40))
  else s

/-- Levels byte of a TALLY record. -/
def lvByte (src dst : Nat) : BitVec 8 := BitVec.ofNat 8 (src % 16 + dst % 16 * 16)

/-- The planes and SPILLED byte of a TALLY record. -/
def plByte (d : DescSt) : BitVec 8 := BitVec.ofNat 8 (d.planes.toNat + (if bitAt d.pl 4 then 16 else 0))

/-- The members of a chain, by its first. -/
def chainMembers (s : State) (a : Acceptor) (first : Nat) : List (Nat × DescSt) :=
  (queueOf s a).filterMap (fun i => match descAt s i with
    | some d => if d.chain = some first then some (i, d) else none
    | none => none)

/-- The chain's last member has been accepted and every executed member is complete: one record (R177, R471), which wakes a core where the last
member is a WAIT (R355). A last member refused BAD_DESC signals no `CSYNC` (R10, R152). -/
def chainDone (s : State) (a : Acceptor) (first : Nat) : State :=
  let ms := chainMembers s a first
  match ms.getLast? with
  | none => s
  | some (_, l) =>
    if dChain l.raw || ms.any (fun m => decide (m.2.phase ≠ .complete)) then s
    else
      let bad := ms.find? (fun m => !m.2.skip && decide (statusCode m.2.status ≥ 0x100))
      let (status, idx, result) := match bad with
        | some (_, b) => (b.status, b.idx, b.result)
        | none => (Status.ok, l.idx, 0)
      let unk : BitVec 8 := match bad with | some (_, b) => if b.unknown then rfUnknown else 0 | none => 0
      let sum (f : DescSt → Nat) : Nat := (ms.map (fun m => f m.2)).sum
      let start := (ms.head?.map (fun m => m.2.start)).getD s.time
      let lv := (ms.find? (fun m => m.2.lvl != 0)).map (fun m => m.2.lvl)
      let pl := ms.foldl (fun p m => p ||| plByte m.2) 0
      let rs := recordsOf l (rfChained ||| unk) status 0 result idx (dTally l.raw) (sum DescSt.rd) (sum DescSt.wr) (lv.getD 0) pl
        (sum DescSt.fronds) (s.time - start)
      let s := deliver s l (sum DescSt.resv) (ms.map (fun m => m.2.slot)) rs
      let s := match l.acc with | .port k => (if dOp l.raw = opWait ∧ !l.dead then setWake s k else s) | .ring _ => s
      let s := csync s l.raw (if l.status = .badDesc then .badDesc else status)
      let s := traceEnd s { l with start := start } status (sum DescSt.wr)
      let s := ms.foldl (fun s m => modDesc s m.1 (fun d => { d with chain := none })) s
      ms.foldl (fun s m => tryErase s m.1) s

/-- A chain that will get no further member ends with the last that its queue has: its `CHAIN` bit clears (R367, R433). -/
def chainCut (s : State) (a : Acceptor) : State :=
  match (queueOf s a).getLast? with
  | some i => modDesc s i (fun d => { d with raw := d.raw.set 1 (BitVec.ofNat 8 (dFlags d.raw % 8 + dFlags d.raw / 16 * 16)) })
  | none => s

/-- A descriptor reaches its completion point (R159): its record and TALLY record, `CSYNC`, DEND; a chain member waits
for its chain. A WAIT of a core port wakes it, whatever its status, once its record is in the `DL` crossing (R331, R355, R356). `plain`: a refusal or a zero length, whose TALLY counts nothing (R472). -/
def complete (s : State) (id : Nat) (status : Status) (flags : BitVec 8) (addr result : Word) (plain : Bool) : State :=
  match descAt s id with
  | none => s
  | some d =>
    if d.phase = .complete then s
    else
      let d := { d with phase := .complete, status := status, result := result, addr := addr, flags := flags, items := [],
                        todo := if plain then 0 else d.todo,
                        rd := if plain then 0 else d.rd, wr := if plain then 0 else d.wr,
                        lvl := if plain then 0 else d.lvl, fronds := if plain then 0 else d.fronds }
      let s := modDesc (match d.acc with | .port _ => workEnds s | .ring _ => s) id (fun _ => d)
      match d.chain with
      | some c => chainDone s d.acc c
      | none =>
        let dur := if plain then 0 else s.time - d.start
        let fl := flags ||| (if d.unknown then rfUnknown else 0)
        let rs := recordsOf d fl status addr result d.idx (dTally d.raw) d.rd d.wr d.lvl (if plain then 0 else plByte d) d.fronds dur
        let s := deliver s d d.resv [d.slot] rs
        let s := match d.acc with | .port k => (if dOp d.raw = opWait ∧ !d.dead then setWake s k else s) | .ring _ => s
        let s := csync s d.raw status
        let s := traceEnd s d status d.wr
        tryErase s id

/-- `complete` with no flag, address or result. -/
def completeWith (s : State) (id : Nat) (status : Status) : State := complete s id status 0 0 0 false

/-- A refusal under R154: completed at once, DSTART and DEND at one moment (R159, R475). -/
def refuseDesc (s : State) (id : Nat) (status : Status) : State :=
  let s := if status = .badDesc then modDesc s id (fun d => { d with start := s.time }) else traceStart s id
  complete (modDesc s id (fun d => { d with refused := true })) id status 0 0 0 true

/-- The notice of a posted message that fails after its descriptor has completed: a DEFERRED record (R187). -/
def deferredOf (s : State) (a : Acceptor) (tag idx : Nat) (x : Done) : State :=
  let fl : BitVec 8 := (if x.status = .remoteWriteFault then rfPoisoned else 0) |||
    (if x.unknown || decide (x.status = .timeout) then rfUnknown else 0)
  let r := record recDeferred fl x.status tag x.m.dest (BitVec.ofNat 64 x.m.len.toNat) idx
  match a with
  | .ring n => unsolicited s n.val r
  | .port k => dlDeferred s k r

/-- The same, for a descriptor that is still held. -/
def deferred (s : State) (d : DescSt) (x : Done) : State := deferredOf s d.acc (dTag d.raw) d.idx x

/-- A posted SEND that is acknowledged is kept for a late failure (R187). -/
def sendLate (s : State) (d : DescSt) (x : Done) : State :=
  if isSend x.m && !x.m.delivered && decide (x.status = .ok) then
    let u : SrcUnit := match d.acc with | .port k => .port k | .ring _ => .mover (standOf (fld x.m.src 0 6))
    keepLate s (flowKey u x.m.impl x.m.chan.toNat) x.m (.landed d.acc (dTag d.raw) d.idx)
  else s

/-- The notice of a posted direct request (R187, R352). -/
def deferredDirect (s : State) (k : StandId) (rid : BitVec 8) (x : Done) : State :=
  let fl : BitVec 8 := (if x.status = .remoteWriteFault then rfPoisoned else 0) |||
    (if x.unknown || decide (x.status = .timeout) then rfUnknown else 0)
  dlDeferred s k (record recDeferred fl x.status (0xFFFFFF00 + rid.toNat) x.m.dest (BitVec.ofNat 64 x.m.len.toNat) 0xFFFFFFFF)

/-- A failing message of a COPY or FILL: the status and offset of the lowest one known (R174, R188). A red work item counts as one at its
offset: after an earlier one has failed, R145 has RATE_EXCEEDED and R155 the earlier status, and the model keeps that of the lowest
offset (log 114). -/
def noteFail (d : DescSt) (off : Nat) (r : Status) (unk : Bool) : DescSt :=
  if d.status = .ok ∨ off < d.result.toNat then { d with status := r, result := BitVec.ofNat 64 off, unknown := d.unknown || unk }
  else { d with unknown := d.unknown || unk }

/-- Every work item and message of a descriptor has reached its completion point: it completes (R159). -/
def checkDesc (s : State) (id : Nat) : State :=
  match descAt s id with
  | none => s
  | some d =>
    if d.phase = .running ∧ d.todo = 0 ∧ d.items = [] then
      complete s id d.status d.flags d.addr (if d.status = .ok then 0 else d.result) false
    else tryErase s id

/-- The level counts of a finished message in the TALLY of its descriptor (R471). -/
def addWork (d : DescSt) (rd wr fronds : Nat) (planes : BitVec 4) : DescSt :=
  { d with rd := d.rd + rd, wr := d.wr + wr, fronds := d.fronds + fronds, planes := d.planes ||| planes }

/-- The answer to a work item that came from another die: its outcome, lowest failing offset and counts; `kind` 0 where it is the last, 1 where
messages are still unacknowledged (log 15). -/
def itemAnswer (x : ItemSt) (kind : Nat) : List Byte :=
  leBytes 8 x.fail ++ leBytes 8 x.rd ++ leBytes 8 x.wr ++ leBytes 8 x.fronds ++ leBytes 1 x.planes.toNat ++
  leBytes 1 (if x.unknown then 1 else 0) ++ leBytes 1 kind

/-- The notice of a message of another die's work item that fails after the item's completion point: the offset in the COPY or FILL, the
message's address and length, and UNKNOWN, with kind 2 in byte 34 (R187; log 15). -/
def itemNotice (abs : Nat) (dest : Word) (len : Nat) (unk : Bool) : List Byte :=
  leBytes 8 abs ++ leBytes 8 dest.toNat ++ leBytes 4 len ++ leBytes 14 (if unk then 1 else 0) ++ leBytes 1 2

/-- Take the bytes of a failed message out of what a descriptor counts (R471). -/
def subWork (d : DescSt) (rd wr : Nat) : DescSt := { d with rd := d.rd - rd, wr := d.wr - wr }

/-- A posted message of a work item of `n` bytes fails after the item's completion point: it counts in a completion still to come, and has a
DEFERRED record where the descriptor is complete (R187, R188); it counts in no TALLY whose end is still to come (R471). -/
def itemLate (s : State) (w : WorkItem) (abs n : Nat) (x : Done) : State :=
  match descAt s w.desc with
  | none => s
  | some d =>
    let s := if d.phase = .complete ∧ d.chain.isNone then s else modDesc s w.desc (fun d => subWork d (if w.fill.isSome then 0 else n) n)
    if d.phase = .complete then deferred s d x else modDesc s w.desc (fun d => noteFail d abs x.status x.unknown)

/-- A work item whose messages have reached their completion point reports to its descriptor; one from another die reports so too, and is
answered once they are acknowledged (R155, R159). -/
def checkItem (s : State) (i : Nat) : State :=
  match itemAt s i with
  | none => s
  | some x =>
    if !x.started || x.todo ≠ 0 then s
    else match x.ctrl with
    | some m =>
      if x.unack = 0 then answer (dropItem s i) (unitStand s x.ex) m x.status (itemAnswer x 0)
      else if x.ended then s
      else answer (modItem s i (fun x => { x with ended := true })) (unitStand s x.ex) m x.status (itemAnswer x 1)
    | none =>
      let s := if x.ended then s
        else
          let s := modItem s i (fun x => { x with ended := true })
          modDesc s x.w.desc (fun d =>
            let d := { addWork d x.rd x.wr x.fronds x.planes with todo := d.todo - 1 }
            let d := { d with unknown := d.unknown || x.unknown }
            if x.status = .ok then d else noteFail d x.fail x.status false)
      if x.unack = 0 then
        let s := modDesc (dropItem s i) x.w.desc (fun d => { d with unack := d.unack - 1 })
        checkDesc s x.w.desc
      else checkDesc s x.w.desc

/-- A failure of a message of a work item: before the item's completion point it counts in what the item reports, its bytes in neither field
of the TALLY (R471); `wr`: those that were counted as written. After it the descriptor's unit is told, on this die or another (R187, R188). -/
def itemFail (s : State) (i off wr : Nat) (x : Done) : State :=
  match itemAt s i with
  | none => s
  | some it =>
    let abs := it.w.off + off
    let n := x.m.data.length
    if it.ended then
      (match it.ctrl with
      | some m => answer s (unitStand s it.ex) m x.status (itemNotice abs x.m.dest n (x.unknown || decide (x.status = .timeout)))
      | none => itemLate s it.w abs n x)
    else
      let s := modItem s i (fun y =>
        let y := { y with unknown := y.unknown || x.unknown, rd := y.rd - (if y.w.fill.isSome then 0 else n), wr := y.wr - wr }
        if y.status = .ok ∨ abs < y.fail then { y with status := x.status, fail := abs } else y)
      if it.ctrl.isSome then s else modDesc s it.w.desc (fun d => { d with unknown := d.unknown || x.unknown })

/-- The data message at `off` of a work item (R155 to R158): sent by its executor on plane k mod 4. Bytes that overlap the
source range are undefined (R158; log 4). -/
def itemSend (s : State) (i off : Nat) (data : List Byte) : State :=
  match itemAt s i with
  | none => s
  | some x =>
    let ov := (List.range data.length).filter (fun j => overlaps x.w (off + j))
    let (fr, s) := drawBytes s ov.length
    let data := (ov.zip fr).foldl (fun l p => l.set p.1 p.2) data
    let pl := planeOf (off / 4096)
    let m := newMsg s x.ex pl opWrite vcReq x.w.tenant (addrPlus x.w.dst off) data 0 0 x.w.express x.w.deliv
    let m := if x.w.yellow then { m with colour := yellow } else m
    let s := modItem s i (fun y => { y with rd := y.rd + (if y.w.fill.isSome then 0 else data.length) })
    later (sendImplicit s x.ex m (.work i off))

/-- The unit that handed an item over: its SRC where that is on another die. -/
def itemFrom (x : ItemSt) : Option (BitVec 26) := x.ctrl.map Msg.src

/-- The work items whose reads a work item of an overlapping COPY waits for: those of its descriptor, of this die or of another, that are on
this die (log 98). -/
def copyGroup (s : State) (i : Nat) : List (Nat × ItemSt) :=
  match itemAt s i with
  | none => []
  | some x => s.host.items.filterMap (fun (j, y) => y.bind (fun y =>
      if j = i ∨ (itemFrom y = itemFrom x ∧ y.w.desc = x.w.desc) then some (j, y) else none))

/-- No source byte of the COPY of a work item is still to be read: what was kept is sent (R158). -/
def copyFlush (s : State) (i : Nat) : State :=
  let l := copyGroup s i
  let cut := match itemAt s i with
    | some x => x.ctrl.isSome || (match descAt s x.w.desc with | some d => d.items.isEmpty | none => true)
    | none => false
  if cut && l.all (fun p => p.2.reading == 0) then
    l.foldl (fun s p => p.2.kept.foldl (fun s q => itemSend s p.1 q.1 q.2) (modItem s p.1 (fun y => { y with kept := [] }))) s
  else s

/-- The same for a descriptor, whose last work item has been handed out. -/
def copyFlushOf (s : State) (id : Nat) : State :=
  match s.host.items.find? (fun (_, x) => match x with | some x => x.ctrl.isNone && decide (x.w.desc = id) && !x.kept.isEmpty | none => false) with
  | some (i, _) => copyFlush s i
  | none => s

/-- The data of a message of a work item are known. Where its destination meets the source range, the message is kept until no read of the
source is outstanding, so that no byte outside that range holds what the copy itself wrote (R158; log 98). -/
def itemWrite (s : State) (i off : Nat) (data : List Byte) : State :=
  match itemAt s i with
  | none => s
  | some x =>
    let s := modItem s i (fun y => { y with reading := y.reading - 1 })
    if (List.range data.length).any (fun j => overlaps x.w (off + j)) then
      copyFlush (modItem s i (fun y => { y with kept := y.kept ++ [(off, data)] })) i
    else copyFlush (itemSend s i off data) i

/-- A source read of a work item fails: no data message is sent, and the rest goes on (R155); `unk` where an earlier copy of the read may
have been served (R501). -/
def itemReadFail (s : State) (i off : Nat) (r : Status) (unk : Bool := false) : State :=
  match itemAt s i with
  | none => s
  | some x =>
    let abs := x.w.off + off
    let s := modItem s i (fun y =>
      let y := { y with todo := y.todo - 1, unack := y.unack - 1, reading := y.reading - 1, unknown := y.unknown || unk }
      if y.status = .ok ∨ abs < y.fail then { y with status := r, fail := abs } else y)
    checkItem (copyFlush s i) i

/-- What an outcome does to a work item's message. -/
def itemDone (s : State) (i off : Nat) (x : Done) : State :=
  if x.m.op = opReadReq then
    (match x.stage with
    | .final => if x.status = .ok then itemWrite s i off x.data else itemReadFail s i off x.status x.unknown
    | .refused => itemReadFail s i off (if x.status = .addrRange then .addrRange else .poison)
    | _ => s)
  else
    let n := x.m.data.length
    let fr := frondsOf n
    let pl : BitVec 4 := BitVec.ofNat 4 (2 ^ x.m.plane.val)
    match x.stage with
    | .refused =>
      let s := itemFail s i off 0 x
      checkItem (modItem s i (fun y => { y with todo := y.todo - 1, unack := y.unack - 1 })) i
    | .sent =>
      checkItem (modItem s i (fun y =>
        let y := { y with fronds := y.fronds + fr, planes := y.planes ||| pl }
        if x.m.delivered then y else { y with todo := y.todo - 1, wr := y.wr + n })) i
    | .acked => s
    | .final =>
      let s := if x.status = .ok then s else itemFail s i off (if x.m.delivered then 0 else n) x
      checkItem (modItem s i (fun y =>
        let y := { y with unack := y.unack - 1 }
        if x.m.delivered then { y with todo := y.todo - 1, wr := y.wr + (if x.status = .ok then n else 0) } else y)) i

/-- What an outcome does to the message of a SEND, SIGNAL or ATOMIC descriptor (R159, R471). -/
def descDone (s : State) (id : Nat) (x : Done) : State :=
  let n := x.m.data.length
  let fr := frondsOf n
  let pl : BitVec 4 := BitVec.ofNat 4 (2 ^ x.m.plane.val)
  let waits := x.m.delivered || x.m.op == opAtomic
  match x.stage with
  | .refused =>
    checkDesc (modDesc s id (fun d => { d with todo := d.todo - 1, unack := d.unack - 1, status := x.status, result := 0, rd := 0 })) id
  | .sent =>
    checkDesc (modDesc s id (fun d =>
      let d := addWork d 0 0 fr pl
      if waits then d else { d with todo := d.todo - 1, wr := d.wr + (if isSend x.m then n else 0) })) id
  | .acked => s
  | .final =>
    match descAt s id with
    | none => s
    | some d =>
      let s := sendLate s d x
      if d.phase = .complete then
        let s := if x.status = .ok then s else deferred (if d.chain.isSome then modDesc s id (fun d => subWork d d.rd d.wr) else s) d x
        tryErase (modDesc s id (fun d => { d with unack := d.unack - 1 })) id
      else
        let s := modDesc s id (fun d =>
          let d := { d with unack := d.unack - 1, todo := d.todo - (if waits then 1 else 0), status := x.status,
                            unknown := d.unknown || x.unknown }
          if x.m.op = opAtomic then
            { d with rd := if x.status = .ok then n else 0, lvl := lvByte (levelOf x.m.dest) (levelOf x.m.dest), wr := if x.status = .ok then n else 0,
                     result := BitVec.ofNat 64 (leNat x.data) }
          else if x.status = .ok then { d with wr := d.wr + (if isSend x.m && waits then n else 0) }
          else subWork d d.rd d.wr)
        match descAt s id with
        | some d =>
          if d.phase = .running ∧ d.todo = 0 then
            complete s id d.status d.flags d.addr (if x.m.op = opAtomic ∧ d.status = .ok then d.result else 0) false
          else s
        | none => s

/-- A notice about a work item that runs on another die: its completion point, or the failure of one of its messages after it (R155, R159,
R187; log 15). -/
def handNotice (s : State) (i : Nat) (it : ItemSt) (x : Done) : State :=
  let l := x.data
  if leAt l 34 1 = 1 then
    let y : ItemSt := { it with
      started := true, todo := 0, reading := 0, status := x.status, fail := leAt l 0 8, rd := leAt l 8 8, wr := leAt l 16 8,
      fronds := leAt l 24 8, planes := BitVec.ofNat 4 (leAt l 32 1), unknown := leAt l 33 1 == 1 }
    checkItem (copyFlush (modItem s i (fun _ => y)) i) i
  else
    let n := leAt l 16 4
    itemLate s it.w (leAt l 0 8) n
      { x with unknown := leAt l 20 1 == 1, m := { x.m with dest := BitVec.ofNat 64 (leAt l 8 8), len := BitVec.ofNat 13 n } }

/-- The hand-over of a work item: its CTRL frond fails or, from another die, is answered with the outcome (R61, R155). -/
def handDone (s : State) (i : Nat) (x : Done) : State :=
  match itemAt s i with
  | none => s
  | some it =>
    let failed := x.status ≠ .ok
    let far := x.m.delivered
    match x.stage with
    | .sent => modDesc s it.w.desc (fun d => addWork d 0 0 0 0)
    | .acked => if x.answered then handNotice s i it x else s
    | _ =>
      if it.started && !far then s
      else if far || failed then
        let l := x.data
        let y : ItemSt := { it with
          started := true, todo := 0, unack := 0, reading := 0, status := x.status,
          fail := if l.isEmpty then it.w.off else leAt l 0 8, rd := leAt l 8 8, wr := leAt l 16 8, fronds := leAt l 24 8,
          planes := BitVec.ofNat 4 (leAt l 32 1), unknown := leAt l 33 1 == 1 }
        checkItem (copyFlush (modDesc (modItem s i (fun _ => y)) it.w.desc (fun d => { d with unknown := d.unknown || x.unknown })) i) i
      else s

/-- What an outcome does to a direct request of a core port (R159, R188, R349). -/
def directDone (s : State) (k : StandId) (rid : BitVec 8) (x : Done) : State :=
  let posted := (x.m.op == opWrite || x.m.op == opSignal) && !x.m.delivered
  match x.stage with
  | .refused => dlResponse s k rid.toNat x.status []
  | .sent => if posted then dlResponse s k rid.toNat .ok [] else s
  | .acked => if x.m.op = opReduce then dlResponse s k rid.toNat .ok [] else s
  | .final =>
    if posted then (if x.status = .ok then s else deferredDirect s k rid x)
    else dlResponse s k rid.toNat x.status (if x.m.op = opReadReq ∨ x.m.op = opAtomic then x.data else [])

end Sys2Proof.Machine
end

