-- ==== Sys2Proof/Machine/Multicast.lean ====
section
/-! DEFINITION. Systolic multicast: chains, member slots, the executor's messages, members and reports (R190 to R206). -/

namespace Sys2Proof.Machine

/-- Fields of `GLB_CHAIN[c]` (R191). -/
def chainOff (c : Nat) : Nat := 0x600 + c * 8
def chainReg (s : State) (c : Nat) : Word := regGet s (chainOff c)
def ccValid (w : Word) : Bool := bitAt w 63
def ccBusy (w : Word) : Bool := bitAt w 62
def ccPlanes (w : Word) : Nat := fld w 58 4
def ccMembers (w : Word) : Nat := fld w 50 8
def ccRstand (w : Word) : Nat := fld w 44 6
def ccArstand (w : Word) : Nat := fld w 38 6
def ccArvalid (w : Word) : Bool := bitAt w 37
def ccTag (w : Word) : BitVec 16 := BitVec.ofNat 16 (fld w 16 16)

/-- A write of `GLB_CHAIN[c]`: refused while BUSY (R191). -/
def chainRegWrite (c : Nat) (wm v : Word) (s : State) : State :=
  let new := regNext s wm (chainOff c) v
  if ccBusy (chainReg s c) then refuseWrite s (chainOff c)
  else regSet s (chainOff c) new

def execChainWrite (c : Fin 64) (v : Word) (s : State) : Step := mgStep s (chainOff c.val) v (chainRegWrite c.val)

/-- A member slot's words (R192). -/
def mcOff (st : StandId) (j word : Nat) : Nat := stdOff st (0x400 + j * 16 + word * 8)
def mcWord (s : State) (st : StandId) (j word : Nat) : Word := regGet s (mcOff st j word)
def msValid (w : Word) : Bool := bitAt w 63
def msLast (w : Word) : Bool := bitAt w 62
def msChain (w : Word) : Nat := fld w 56 6
def msPos (w : Word) : Nat := fld w 49 7
def msUpper (w : Word) : Nat := fld w 29 20
def msStand (w : Word) : Nat := fld w 23 6
def msAvalid (a : Word) : Bool := bitAt a 63
def msAupper (a : Word) : Nat := fld a 43 20
def msAstand (a : Word) : Nat := fld a 37 6
def msTag (a : Word) : BitVec 16 := BitVec.ofNat 16 (fld a 16 16)

/-- The operation state of a chain at a stand. -/
def memberAt (s : State) (st c : Nat) : Option McMember := oget s.mc.members (st * 64 + c)

/-- Set it. -/
def setMember (s : State) (st c : Nat) (m : Option McMember) : State :=
  { s with mc := { s.mc with members := oset s.mc.members (st * 64 + c) m } }

/-- Upper coordinates of another package (R193): rack, tray or package differs from this die's. -/
def otherPackage (s : State) (up : Nat) : Bool := up / 4 != selfUpper s / 4

/-- A write of a member slot, with the refusals of R193: a slot is of the chain that it names while it is VALID. -/
def memberWrite (st : StandId) (j word : Nat) (wm v : Word) (s : State) : State :=
  let off := mcOff st j word
  let new := regNext s wm off v
  let w := if word = 0 then new else mcWord s st j 0
  let clash := msValid w && (List.range 16).any (fun i => i != j && msValid (mcWord s st i 0) && msChain (mcWord s st i 0) == msChain w)
  let badUp := (word == 0 && otherPackage s (msUpper new)) || (word == 1 && otherPackage s (msAupper new))
  let badY := (word == 0 && decide (48 ≤ msStand new)) || (word == 1 && decide (48 ≤ msAstand new))
  let runs (w : Word) : Bool := msValid w && (memberAt s st.val (msChain w)).isSome
  let held := runs (mcWord s st j 0) || runs w
  if clash || badUp || badY || held then refuseWrite s off else regSet s off new

def execMemberSlotWrite (st : StandId) (j : Fin 16) (word : Fin 2) (v : Word) (s : State) : Step :=
  mgStep s (mcOff st j.val word.val) v (memberWrite st j.val word.val)

/-- The landing address of the stand `st` of a die for a position in the range; ALIAS 11 names a close (R197). -/
def landingAddr (up st off : Nat) (close : Bool) : Word :=
  mk 40 20 up ||| mk 34 6 st ||| mk 32 2 (if close then 3 else 0) ||| mk 0 26 off

/-- The chain slot's channel (R197). -/
def mcChan (pl c : Nat) : Nat := 256 + pl * 64 + c

/-- The planes of a mask, rising. -/
def planeList (m : Nat) : List Nat := (List.range 4).filter m.testBit

/-- An executor by its chain. -/
def execAt (s : State) (c : Nat) : Option McExec := oget s.mc.execs c

/-- Change an executor. -/
def modExec (s : State) (c : Nat) (f : McExec → McExec) : State :=
  { s with mc := { s.mc with execs := tmod (fun _ => none) s.mc.execs c (fun x => x.map f) } }

/-- Whether a chain slot sends its next message to another member than the last, which begins a flow there with OPEN (R115, R197), and the slot
with that member as its last. -/
def chainTurn (s : State) (u : SrcUnit) (c up st : Nat) (pl : PlaneId) : Bool × State :=
  let k := flowKey u true (mcChan pl.val c)
  let f := flowAt s k
  (decide (f.pair ≠ some (up * 64 + st, pl)), setFlow s k { f with pair := some (up * 64 + st, pl) })

/-- Send an MCAST message of an executor, counted for its descriptor. -/
def mcastPut (s : State) (c : Fin 64) (x : McExec) (pl off : Nat) (data : List Byte) (close deliv : Bool) : State :=
  let w := chainReg s c.val
  let st := if x.toAlt then ccArstand w else ccRstand w
  let tag := ccTag w
  let m := newMsg s x.unit (planeOf pl) opMcast vcBcastDown tag (landingAddr (selfUpper s) st off close) data 0 (x.opid % 4) false deliv
  let m := match (descAt s x.desc).bind DescSt.colour with | some k => { m with colour := k } | none => m
  let s := modDesc s x.desc (fun d => { d with unack := d.unack + 1 })
  let (op, s) := chainTurn s x.unit c.val (selfUpper s) st (planeOf pl)
  later (sendChannel s x.unit { m with openFl := op } true (mcChan pl c.val) false (.mcast none c x.desc))

/-- The closes of an executor, after its last data message (R199). -/
def execCloses (s : State) (c : Fin 64) : State :=
  match execAt s c.val with
  | none => s
  | some x =>
    let w := chainReg s c.val
    let off := match descAt s x.desc with | some d => fld (dDstRaw d.raw) 0 26 | none => 0
    let ps := planeList (ccPlanes w)
    let s := ps.foldl (fun s p =>
      mcastPut s c x p off (leBytes 8 (x.sent.getD p 0) ++ leBytes 1 (ccPlanes w) ++ leBytes 1 (ccMembers w - 1) ++ leBytes 6 0)
        true (ps.head? == some p)) s
    modExec s c.val (fun x => { x with closed := some s.time })

/-- The next data message of an executor is known: sent on its plane, or after POISON only the closes follow (R197, R206).
Answers whether more data is to be read. The spec does not say what a chain with the reserved `PLANES` 0 does, nor one whose `MEMBERS` is not 1 to
128: the model takes the register as it is, sends the data of a chain without planes on plane 0, and no close (log 101). -/
def execData (s : State) (c : Fin 64) (data : Option (List Byte)) : Bool × State :=
  match execAt s c.val with
  | none => (false, s)
  | some x =>
    match descAt s x.desc with
    | none => (false, s)
    | some d =>
      match data with
      | none => (false, execCloses (modExec s c.val (fun x => { x with poison := true })) c)
      | some b =>
        let w := chainReg s c.val
        let ps := planeList (ccPlanes w)
        let pl := ps.getD (x.next % ps.length) 0
        let pos := x.next * 4096
        let s := mcastPut s c x pl (fld (dDstRaw d.raw) 0 26 + pos) b false false
        let s := modExec s c.val (fun x => { x with next := x.next + 1, sent := x.sent.set pl (x.sent.getD pl 0 + b.length) })
        let s := modDesc s x.desc (fun d => { d with rd := d.rd + b.length })
        if dLen d.raw ≤ pos + 4096 then (false, execCloses s c) else (true, s)

/-- A host offset through the window of an entry, or ADDR_RANGE (R172). -/
def hostAddr (s : State) (n : Option Nat) (off len : Nat) : Except Status Word :=
  match n.bind (ctxGet s) with
  | none => .error .addrRange
  | some c =>
    if c.isOpen && decide (off + len ≤ fld c.hsize 12 29 * 4096) then .ok (BitVec.ofNat 64 (fld c.hwin 12 52 * 4096 + off))
    else .error .addrRange

/-- Read the executor's next data until a read has to wait; `n` bounds the messages (R196, R197). -/
def execRun (s : State) (c : Fin 64) : Nat → State
  | 0 => s
  | n + 1 =>
    match execAt s c.val with
    | none => s
    | some x =>
      match descAt s x.desc with
      | none => s
      | some d =>
        let src := addrPlus (resolveLocal s (dSrcRaw d.raw)) (x.next * 4096)
        let len := min 4096 (dLen d.raw - x.next * 4096)
        if len = 0 then execCloses s c
        else match x.unit with
        | .mover st =>
          let here := (msgPieces src len).all (fun p => match hubResolve st.val false s p.addr with
            | .bank b _ => b == st.val | .dp b => b == st.val | _ => false)
          if here then
            let (r, s) := memRead s d.tag16 true (hubResolve st.val false) src len
            let (more, s) := execData s c (match r with | .ok b => some b | _ => none)
            if more then execRun s c n else s
          else
            later (sendImplicit s x.unit (readMsg s x.unit (planeOf 0) d.tag16 src len false) (.mcRead c))
        | _ =>
          if aSpace src ≠ 4 then (execData s c none).2
          else match hostAddr s (accEntry s d.acc) (aHostOff src) len with
          | .ok a => hostRead s (.mcast c) a len
          | .error _ => (execData s c none).2

/-- The messages an executor may still have to read. -/
def execFuel (s : State) (c : Nat) : Nat :=
  match (execAt s c).bind (fun x => descAt s x.desc) with
  | some d => dLen d.raw / 4096 + 2
  | none => 0

/-- The unit that executes an MCAST (R196): the host agent for a host source, else the mover of R155 at the first byte's
stand; a source that no stand can read is read as POISON by the host agent. -/
def mcastUnit (s : State) (src : Word) : SrcUnit :=
  if aSpace src = 4 then .hostAgent
  else match resolve s (centreTap s).val src true with
  | .bank st _ => .mover (standOf st)
  | .dp st => .mover (standOf st)
  | .core k => .mover (standOf k)
  | _ =>
    match resolve s (centreTap s).val src false with
    | .bank st _ => .mover (standOf st)
    | _ => .hostAgent

/-- The slot of a chain at a stand. -/
def memberSlot (s : State) (st : StandId) (c : Nat) : Option Nat :=
  (List.range 16).find? (fun j => msValid (mcWord s st j 0) && msChain (mcWord s st j 0) == c)

/-- The landing ranges of the members of this die whose bit is 0 are undefined (R206). -/
def landingFree (s : State) (c bits off len : Nat) : State :=
  let w := chainReg s c
  stands.foldl (fun s st => match memberSlot s st c with
    | some j =>
      let pos := msPos (mcWord s st j 0)
      if pos < ccMembers w ∧ !bits.testBit pos then
        (itemMsgs len).foldl (fun s p => freeRange s (ccTag w) (landingAddr (selfUpper s) st.val (off + p.1) false) p.2) s
      else s
    | none => s) s

/-- The MCAST completes (R206): the bitmap below MEMBERS, the status, BUSY cleared after the record. -/
def mcastEnd (s : State) (c : Nat) (bits : BitVec 128) : State :=
  match execAt s c with
  | none => s
  | some x =>
    let n := ccMembers (chainReg s c)
    let b := bits.toNat % 2 ^ n
    let all := b == 2 ^ n - 1
    let status := if x.poison then Status.poison else if all then .ok else .partialMcast
    let len := match descAt s x.desc with | some d => dLen d.raw | none => 0
    let s := match descAt s x.desc with | some d => landingFree s c b (fld (dDstRaw d.raw) 0 26) len | none => s
    let s := { s with mc := { s.mc with execs := oset s.mc.execs c none } }
    let s := modDesc s x.desc (fun d => { d with todo := 0, wr := len * popcount (BitVec.ofNat 128 b),
                                                 lvl := lvByte (levelOf (dSrcRaw d.raw)) 1 })
    let s := complete s x.desc status 0 (BitVec.ofNat 64 (b / 2 ^ 64)) (BitVec.ofNat 64 (b % 2 ^ 64)) false
    regPut s (chainOff c) 62 1 0

/-- The MCAST that waits longest for a chain (R196). -/
def mcastWaiting (s : State) (c : Nat) : Option (Nat × DescSt) :=
  s.host.descs.findSome? (fun (id, d) => d.bind (fun d =>
    if d.phase = .waiting ∧ dOp d.raw = opMcastD ∧ dHandle d.raw % 64 = c then some (id, d) else none))

/-- Dispatch an MCAST whose chain is not BUSY (R196). -/
def mcastDispatch (c : Fin 64) (s : State) : State :=
  let w := chainReg s c.val
  if ccBusy w then s
  else match mcastWaiting s c.val with
  | none => s
  | some (id, d) =>
    let s := traceStart (modDesc s id (fun d => { d with phase := .running, todo := 1 })) id
    let r := girdled s (ccRstand w)
    if !ccValid w || (r && !ccArvalid w) then
      complete (modDesc s id (fun d => { d with todo := 0 })) id .partialMcast 0 0 0 false
    else
      let opid := cget 0 s.mc.ops c.val
      let x : McExec := { desc := id, unit := mcastUnit s (resolveLocal s (dSrcRaw d.raw)), opid := opid, toAlt := r }
      let s := regPut s (chainOff c.val) 62 1 1
      let s := { s with mc := { s.mc with execs := oset s.mc.execs c.val (some x), ops := cset 0 s.mc.ops c.val ((opid + 1) % 4) } }
      execRun s c (execFuel s c.val)

/-- The next member of a member, and whether it is the alternate (R202): none ends the chain here. -/
def nextMember (s : State) (st : StandId) (j : Nat) (m : McMember) : Option (Nat × Nat × Bool) :=
  let w := mcWord s st j 0
  let a := mcWord s st j 1
  let alt : Option (Nat × Nat × Bool) := if msAvalid a then some (msAupper a, msAstand a, true) else none
  if msLast w || m.dead then none
  else if m.toAlt then alt
  else if msUpper w = selfUpper s ∧ girdled s (msStand w) then alt
  else some (msUpper w, msStand w, false)

/-- A sender turns to another member: what it has not sent goes there, and the first message on each plane carries OPEN (R197, R202). -/
def turnTo (s : State) (st : StandId) (c up ns : Nat) : State :=
  (List.range 4).foldl (fun s p =>
    let k := flowKey (.hub st) true (mcChan p c)
    let f := flowAt s k
    let aim (w : Waiting) : Waiting :=
      { w with m := { w.m with dest := landingAddr up ns (fld w.m.dest 0 26) (decide (aAlias w.m.dest = 3)), openFl := false } }
    match f.wait.map aim with
    | [] => s
    | w :: r => setFlow s k { f with wait := { w with m := { w.m with openFl := true } } :: r, pair := some (up * 64 + ns, planeOf p) }) s

/-- A member forwards to no one any more: what it has not sent is not sent (R202). -/
def turnOff (s : State) (st : StandId) (c : Nat) : State :=
  (List.range 4).foldl (fun s p =>
    let k := flowKey (.hub st) true (mcChan p c)
    setFlow s k { flowAt s k with wait := [] }) s

/-- Forward a message to the next member (R198, R202). -/
def forwardMcast (s : State) (st : StandId) (j : Nat) (c : Fin 64) (m : Msg) : State :=
  match memberAt s st.val c.val with
  | none => s
  | some x =>
    match nextMember s st j x with
    | none => turnOff (setMember s st.val c.val (some { x with dead := true })) st c.val
    | some (up, ns, alt) =>
      let close := decide (aAlias m.dest = 3)
      let s := if alt && !x.toAlt then turnTo s st c.val up ns else s
      let s := setMember s st.val c.val (some { x with toAlt := alt, await := x.await || (close && m.delivered), lastAt := s.time })
      let n := newMsg s (.hub st) m.plane opMcast vcBcastDown m.tenant (landingAddr up ns (fld m.dest 0 26) close) m.data 0 (msgLow m)
        false m.delivered
      let (op, s) := chainTurn s (.hub st) c.val up ns m.plane
      later (sendChannel s (.hub st) { n with shape := m.shape, colour := m.colour, openFl := op } true (mcChan m.plane.val c.val) false
        (.mcast (some st) c 0))

/-- A member is complete (R204). -/
def memberComplete (x : McMember) : Bool :=
  x.closes != 0 && (x.planes &&& ~~~x.closes) == 0 && x.writes == 0 && !x.failed &&
  (List.range 4).all (fun p => !bitAt x.planes p || x.rx.getD p 0 == x.pbytes.getD p 0)

/-- Send the report of a member: its own bit and the downstream report; the operation state is discarded (R204). -/
def sendReport (s : State) (st : StandId) (c : Nat) : State :=
  match memberAt s st.val c with
  | none => s
  | some x =>
    let pos := match memberSlot s st c with | some j => msPos (mcWord s st j 0) | none => 0
    let own := if memberComplete x then 2 ^ pos else 0
    let bits : BitVec 128 := (x.report.getD 0) ||| BitVec.ofNat 128 own
    let s := match x.close with
      | some m => answer s st m .ok (leBytes 16 bits.toNat)
      | none => s
    setMember s st.val c none

/-- Whether a member sends its report now (R204): every close is in, and it forwards to no one or the report is in. -/
def reportDue (x : McMember) : Bool :=
  x.closes != 0 && (x.planes &&& ~~~x.closes) == 0 && (x.dead || x.report.isSome)

/-- Send the report where it is due. -/
def checkMember (s : State) (st : StandId) (c : Nat) : State :=
  match memberAt s st.val c with
  | some x => if reportDue x then sendReport s st c else s
  | none => s

/-- What a hub makes of an MCAST message before it applies it (R198): its slot, or the refusal. -/
def mcastSlot (s : State) (st : StandId) (m : Msg) : Except Status Nat :=
  match memberSlot s st (m.chan.toNat % 64) with
  | none => .error .addrRange
  | some j => if m.tenant = msTag (mcWord s st j 1) then .ok j else .error .owner

/-- The operation state for a message: another OPID discards the old one (R198). -/
def openMember (s : State) (st : StandId) (c : Nat) (m : Msg) : State :=
  match memberAt s st.val c with
  | some x => if x.opid = msgLow m then s else setMember s st.val c (some { opid := msgLow m })
  | none => setMember s st.val c (some { opid := msgLow m })

/-- Change a member's operation state. -/
def modMember (s : State) (st c : Nat) (f : McMember → McMember) : State := setMember s st c ((memberAt s st c).map f)

/-- The member that one forwards to is lost: its alternate follows, or no one (R202, R203). -/
def loseNext (s : State) (st : StandId) (c j : Nat) (x : McMember) : State :=
  let a := mcWord s st j 1
  if msAvalid a && !x.toAlt then turnTo (setMember s st.val c (some { x with toAlt := true })) st c (msAupper a) (msAstand a)
  else checkMember (turnOff (setMember s st.val c (some { x with dead := true })) st c) st c

/-- The members of this die that forward to a girdled stand choose again (R202); what the girdled stand held of an operation is gone. -/
def mcastGirdled (s : State) (lost : StandId) : State :=
  let s := (List.range 64).foldl (fun s c => setMember s lost.val c none) s
  (stands.filter (fun st => !girdled s st.val)).foldl (fun s st => (List.range 64).foldl (fun s c =>
    match memberAt s st.val c, memberSlot s st c with
    | some x, some j =>
      let w := mcWord s st j 0
      if !msLast w && !x.toAlt && !x.dead && msUpper w == selfUpper s && msStand w == lost.val then loseNext s st c j x else s
    | _, _ => s) s) s

/-- A landing write of a member ends (R204). -/
def memberWrote (s : State) (st : StandId) (c opid : Nat) (ok : Bool) : State :=
  match memberAt s st.val c with
  | some x =>
    if x.opid = opid then
      checkMember (setMember s st.val c (some { x with writes := x.writes - 1, failed := x.failed || !ok })) st c
    else s
  | none => s

/-- An MCAST message at a member's hub (R198): the data written through the map, or the close counted; forwarded. -/
def mcastApply (s : State) (st : StandId) (j : Nat) (m : Msg) : State :=
  let c : Fin 64 := ⟨m.chan.toNat % 64, Nat.mod_lt _ (by decide)⟩
  let s := openMember s st c.val m
  if aAlias m.dest = 3 then
    let s := modMember s st.val c.val (fun x =>
      { x with closes := setBit x.closes m.plane.val true, planes := BitVec.ofNat 4 (leAt m.data 8 1), members := leAt m.data 9 1 + 1,
               pbytes := x.pbytes.set m.plane.val (leAt m.data 0 8), close := if m.delivered then some m else x.close })
    checkMember (forwardMcast s st j c m) st c.val
  else
    let s := modMember s st.val c.val (fun x => { x with rx := x.rx.set m.plane.val (x.rx.getD m.plane.val 0 + m.data.length) })
    let here := (msgPieces m.dest m.data.length).all (fun p => match hubResolve st.val true s p.addr with
      | .bank b _ => b == st.val | .refuse _ => true | _ => false)
    let s := if here then
        let (r, s) := memWrite s m.tenant true (hubResolve st.val true) m.dest m.data
        modMember s st.val c.val (fun x => match r with | .ok _ => x | _ => { x with failed := true })
      else
        let s := modMember s st.val c.val (fun x => { x with writes := x.writes + 1 })
        let w := newMsg s (.hub st) m.plane opWrite vcReq m.tenant m.dest m.data 0 0 false false
        later (sendImplicit s (.hub st) w (.mcWrite st c (msgLow m)))
    forwardMcast s st j c m

/-- A message that ended in an abort tail is forwarded with one (R198): the next member discards it. -/
def mcastBroken (s : State) (st : StandId) (m : Msg) : State :=
  match mcastSlot s st m with
  | .error _ => s
  | .ok j =>
    match nextMember s st j ((memberAt s st.val (m.chan.toNat % 64)).getD { opid := 0 }) with
    | none => s
    | some (up, ns, _) =>
      let n := { m with dest := landingAddr up ns (fld m.dest 0 26) (decide (aAlias m.dest = 3)), src := srcOf s st.val, unit := unitHub }
      match targetOf s st n with
      | .ok (p, e) => inject s (.hub st) st { n with pstand := p, exit := e }
      | .error _ => s

/-- The report from downstream reaches a member or the executor (R204, R206). -/
def mcastReport (st : Option StandId) (c : Nat) (bits : BitVec 128) (s : State) : State :=
  match st with
  | none => (match execAt s c with | some x => if x.closed.isSome then mcastEnd s c bits else s | none => s)
  | some st =>
    match memberAt s st.val c with
    | some x => if x.await then checkMember (setMember s st.val c (some { x with report := some bits })) st c else s
    | none => s

/-- A close of a chain waits at its sender behind the window of its flow, not yet sent (R113). -/
def closeWaits (s : State) (u : SrcUnit) (c : Nat) : Bool :=
  (List.range 4).any (fun p => (flowAt s (flowKey u true (mcChan p c))).wait.any (fun w => aAlias w.m.dest == 3))

/-- The wait for the downstream report expires: the missing bits are 0 (R205). It has begun when the last close has been sent. -/
def mcastReportTimeout (st : Option StandId) (c : Nat) (s : State) : State :=
  match st with
  | none =>
    (match execAt s c with
    | some x => (match x.closed with
      | some t => if closeWaits s x.unit c then s else mcastEnd (advanceTo s (t + ccMembers (chainReg s c) * 50000)) c 0
      | none => s)
    | none => s)
  | some st =>
    match memberAt s st.val c with
    | some x =>
      if x.closes != 0 && (x.planes &&& ~~~x.closes) == 0 && !closeWaits s (.hub st) c then
        let pos := match memberSlot s st c with | some j => msPos (mcWord s st j 0) | none => 0
        sendReport (advanceTo s (x.lastAt + (x.members - 1 - pos) * 50000)) st c
      else s
    | none => s

/-- A close of an operation has been sent: the wait for the report counts from the last (R205). -/
def closeSent (s : State) (st : Option StandId) (c : Nat) (desc : Nat) (m : Msg) : State :=
  if aAlias m.dest ≠ 3 then s
  else match st with
  | none => modExec s c (fun e => if e.desc = desc then { e with closed := e.closed.map (fun _ => s.time) } else e)
  | some st => modMember s st.val c (fun x => if x.opid = msgLow m then { x with lastAt := s.time } else x)

/-- What an outcome does to an MCAST message: of the executor, counted and awaited; of a member, one of the operation held: the report, or a lost
next member (R202, R204). A further failure of a message to a member already lost changes nothing. -/
def mcastDone (s : State) (st : Option StandId) (c : Fin 64) (desc : Nat) (x : Done) : State :=
  let report := x.m.delivered && x.stage == .final && x.answered && x.status == .ok
  let s := if x.stage = .sent then closeSent s st c.val desc x.m else s
  match st with
  | none =>
    let s := match x.stage with
      | .sent => modDesc s desc (fun d => addWork d 0 0 (frondsOf x.m.data.length) (BitVec.ofNat 4 (2 ^ x.m.plane.val)))
      | .acked => s
      | _ => modDesc s desc (fun d => { d with unack := d.unack - 1 })
    let s := if report && (match execAt s c.val with | some e => e.desc == desc | none => false) then
        mcastReport none c.val (bytesBv 128 x.data) s else s
    tryErase s desc
  | some st =>
    match memberAt s st.val c.val, memberSlot s st c.val with
    | some m, some j =>
      let w := mcWord s st j 0
      let a := mcWord s st j 1
      let names (up ns : Nat) : Bool := aUpper x.m.dest == up && aStand x.m.dest == ns
      let early := m.toAlt && names (msUpper w) (msStand w) && !names (msAupper a) (msAstand a)
      if m.opid ≠ msgLow x.m then s
      else if report then mcastReport (some st) c.val (bytesBv 128 x.data) s
      else if (x.stage = .final ∨ x.stage = .refused) ∧ (x.status = .remoteWriteFault ∨ x.status = .timeout) ∧ !early then
        loseNext s st c.val j m
      else s
    | _, _ => s

end Sys2Proof.Machine
end

