-- ==== Sys2Proof/Machine/Combining.lean ====
section
/-! DEFINITION. The accumulators of a stand with their residue checks, and combining queues (R207 to R215, R221 to R231). -/

namespace Sys2Proof.Machine

/-- An accumulator of a stand. -/
def accAt (s : State) (st i : Nat) : Acc := cget {} s.red.accs (st * 16384 + i)

/-- Set an accumulator. -/
def setAcc (s : State) (st i : Nat) (x : Acc) : State :=
  { s with red := { s.red with accs := cset {} s.red.accs (st * 16384 + i) x } }

/-- Zero the accumulators from `i`, `n` of them (R221). -/
def zeroAccs (s : State) (st i n : Nat) : State :=
  { s with red := { s.red with accs := tclear s.red.accs (st * 16384 + i) n } }

/-- A residue mismatch: recorded, counted, and raised as an event that names the stand, the accumulator and the limbs (R227, R229). -/
def residueHit (s : State) (st : StandId) (i : Nat) (bad : BitVec 4) (onRead : Bool) : State :=
  if bad = 0 then s
  else
    let off := stdOff st 0x600
    let rec_ : Word := mkBit 63 true ||| mk 32 4 bad.toNat ||| mk 16 14 i ||| mkBit 0 onRead
    let s := if regBit s off 63 then s else regSet s off rec_
    let s := regCount s (stdOff st 0x608) 0 32 1
    raise s (if onRead then cResRead else cResAdd) st.val 0 (mk 32 4 bad.toNat ||| mk 16 14 i)

/-- An addition's effects; `ov`: sticky overflow is entered under R222, which is counted (R229). A flag that a carrier brings is none. -/
def afterAdd (s : State) (st : StandId) (i : Nat) (new : Acc) (ov : Bool) (bad : BitVec 4) : State :=
  let s := setAcc s st.val i new
  let s := if ov then regCount s (stdOff st 0x608) 32 16 1 else s
  residueHit s st i bad false

/-- The limb that a test arming corrupts at the next addition into an accumulator (R229). -/
def testLimb (s : State) (st i : Nat) : Option Nat :=
  match oget s.red.test st with
  | some (l, a) => if a = i then some l else none
  | none => none

/-- The arming is used up. -/
def testUsed (s : State) (st : Nat) : State := { s with red := { s.red with test := oset s.red.test st none } }

/-- The value that a contribution brings to an addition. -/
def addend : Contrib → Option (BitVec 320) | .val v => some (BitVec.ofInt 320 v) | _ => none

/-- What is to be added to an accumulator enters sticky overflow there (R222). -/
def entersOvf (x : Acc) (d : Option (BitVec 320)) : Bool := match d with | some d => !isSticky x && outOfRange x d | none => false

/-- The addition is made: only such a one uses a test arming (R222, R229). -/
def isMade (x : Acc) (d : Option (BitVec 320)) : Bool := match d with | some d => !isSticky x && !outOfRange x d | none => false

/-- Add one decoded contribution to an accumulator (R223, R225, R227). Answers whether a limb mismatched. -/
def accAdd (s : State) (st : StandId) (i : Nat) (c : Contrib) : Bool × State :=
  let x := accAt s st.val i
  let t := if isMade x (addend c) then testLimb s st.val i else none
  let (y, bad) := addContrib x c t
  let s := if t.isSome then testUsed s st.val else s
  (decide (bad ≠ 0), afterAdd s st i y (entersOvf x (addend c)) bad)

/-- Add contributions to accumulators `i`, `i` + 1, …: whether any limb mismatched. -/
def accAddAll (s : State) (st : StandId) (i : Nat) : List Contrib → Bool × State
  | [] => (false, s)
  | c :: r =>
    let (a, s) := accAdd s st i c
    let (b, s) := accAddAll s st (i + 1) r
    (a || b, s)

/-- The value that a carrier or escape record brings to an addition (R239): none with a flag that makes it irrelevant, nor 0. -/
def partialAddend (p : Partial) : Option (BitVec 320) :=
  if fld p.fl 0 5 == 0 && !bitAt p.fl fRESERR && !bitAt p.fl fEMPTY && !bitAt p.fl fNEGZ && p.d != 0 then some p.d else none

/-- Merge a carrier or escape record (R239): its own check comes before the addition. -/
def accMerge (s : State) (st : StandId) (i : Nat) (p : Partial) : Bool × State :=
  let x := accAt s st.val i
  let d := partialAddend p
  let t := if isMade x d then testLimb s st.val i else none
  let (y, bad, rec_) := addPartial x p t
  let s := if t.isSome then testUsed s st.val else s
  let s := afterAdd (residueHit s st i rec_ true) st i y (entersOvf x d) bad
  (decide (bad ≠ 0) || decide (rec_ ≠ 0), s)

/-- Read an accumulator for rounding or encoding: its limbs are checked again (R226, R227). -/
def accRead (s : State) (st : StandId) (i : Nat) : Acc × State :=
  let x := accAt s st.val i
  let bad := resCheck x
  let y := markBad x bad
  (y, residueHit (setAcc s st.val i y) st i bad true)

/-- Read accumulators `i`, `i` + 1, …, `n` of them. -/
def accReadAll (s : State) (st : StandId) (i : Nat) : Nat → List Acc × State
  | 0 => ([], s)
  | n + 1 =>
    let (x, s) := accRead s st i
    let (r, s) := accReadAll s st (i + 1) n
    (x :: r, s)

/-- A write of `STD_RED_TEST`: ARM arms one forced mismatch, in place of an earlier one (R229). -/
def redTestWrite (st : StandId) (wm v : Word) (s : State) : State :=
  let w := v &&& wm
  if bitAt w 63 then { s with red := { s.red with test := oset s.red.test st.val (some (fld w 16 2, fld w 0 14)) } } else s

def execReducerTestArm (st : StandId) (v : Word) (s : State) : Step := mgStep s (stdOff st 0x610) v (redTestWrite st)

/-- Words of a combining queue (R208). -/
def cmbOff (st : StandId) (j word : Nat) : Nat := stdOff st (0x500 + j * 32 + word * 8)
def cmbWord (s : State) (st : StandId) (j word : Nat) : Word := regGet s (cmbOff st j word)
def cbValid (w : Word) : Bool := bitAt w 63
def cbIfmt (w : Word) : Nat := fld w 59 4
def cbOfmt (w : Word) : Nat := fld w 55 4
def cbMean (w : Word) : Bool := bitAt w 54
def cbShift (w : Word) : Int := toSigned 6 (fld w 48 6)
def cbElems (w : Word) : Nat := fld w 33 15
def cbNcontrib (w : Word) : Nat := fld w 21 12
def cbSlots (w : Word) : Nat := 2 ^ fld w 18 3
def cbTag (w : Word) : BitVec 16 := BitVec.ofNat 16 (fld w 0 16)
def cbAen (x : Word) : Bool := bitAt x 63
def cbAobj (x : Word) : Nat := fld x 51 12
def cbAbase (x : Word) : Nat := fld x 37 14
def cbStride (x : Word) : Nat := fld x 21 16
def cbTmo (x : Word) : Nat := fld x 5 16

/-- A queue's state. -/
def cmbAt (s : State) (st j : Nat) : CmbQ := cget {} s.red.cmb (st * 8 + j)

/-- Set a queue's state. -/
def setCmb (s : State) (st j : Nat) (q : CmbQ) : State := { s with red := { s.red with cmb := cset {} s.red.cmb (st * 8 + j) q } }

/-- Landing slots that hold contributions: `OPENCNT` (R208). -/
def openCnt (q : CmbQ) : Nat := (q.pos.filter (fun p => p.2.held)).length

/-- `STD_CMB_C` (R208). -/
def cmbStatus (q : CmbQ) : Word := mk 48 16 q.next.toNat ||| mk 32 16 q.short ||| mk 16 16 (openCnt q) ||| mk 0 16 q.late

/-- The accumulators a queue claims, as a range. -/
def cmbRange (w x : Word) : Nat × Nat := (cbAbase x, cbElems w * cbSlots w)

/-- Two ranges meet. -/
def rangesMeet (a b : Nat × Nat) : Bool := decide (a.1 < b.1 + b.2) && decide (b.1 < a.1 + a.2)

/-- The result size of `n` elements in a format (R220); 0 for a reserved one. -/
def resultSize (fmt n : Nat) : Nat := match fmtOf fmt with | some f => fmtBytes f n | none => 0

/-- A write of a combining queue, with the refusals of R209. -/
def cmbWrite (st : StandId) (j word : Nat) (wm v : Word) (s : State) : State :=
  let off := cmbOff st j word
  let new := regNext s wm off v
  let old := cmbWord s st j 0
  let w := if word = 0 then new else old
  let x := if word = 2 then new else cmbWord s st j 2
  let zero := (word == 0 && (decide (10 < cbIfmt w) || decide (10 < cbOfmt w) || cbElems w == 0 || cbNcontrib w == 0)) ||
    (word == 2 && cbStride x == 0)
  let mx := (isMx (cbIfmt w) || isMx (cbOfmt w)) && decide (cbElems w % 32 ≠ 0)
  let big := decide (16384 < (cmbRange w x).1 + (cmbRange w x).2)
  let clash := cbValid w && (List.range 8).any (fun i =>
    i != j && cbValid (cmbWord s st i 0) && rangesMeet (cmbRange w x) (cmbRange (cmbWord s st i 0) (cmbWord s st i 2)))
  let small := decide (cbStride x * 64 < 64 + resultSize (cbOfmt w) (cbElems w))
  if word = 3 then s
  else if (word ≠ 1 && (zero || mx || big || clash || small)) || openCnt (cmbAt s st.val j) != 0 then refuseWrite s off
  else
    let s := regSet s off new
    if word = 0 && cbValid w && !cbValid old then
      let r := cmbRange w x
      zeroAccs (setCmb s st.val j {}) st.val r.1 r.2
    else s

def execCombiningQueueWrite (st : StandId) (j : Fin 8) (word : Fin 4) (v : Word) (s : State) : Step :=
  mgStep s (cmbOff st j.val word.val) v (cmbWrite st j.val word.val)

/-- Fields of a combine address (R210). -/
def ceQueue (a : Word) : Nat := fld a 31 3
def ceLseq (a : Word) : BitVec 16 := BitVec.ofNat 16 (fld a 15 16)
def ceElement (a : Word) : Nat := fld a 0 15

/-- Position of a landing slot (R212). -/
def cmbPosOf (w : Word) (l : BitVec 16) : Nat := l.toNat % cbSlots w

/-- First accumulator of a position. -/
def cmbAcc (w x : Word) (p : Nat) : Nat := cbAbase x + p * cbElems w

/-- Send the writes of data to a landing place, 4,096 bytes a message, each with its delivery response (R213). -/
def cmbWrites (s : State) (st : StandId) (j : Fin 8) (tag : BitVec 16) (a : Word) (data : List Byte) : State :=
  (itemMsgs data.length).foldl (fun s p =>
    let m := newMsg s (.reducer st) (planeOf (p.1 / 4096)) opWrite vcReq tag (addrPlus a p.1) ((data.drop p.1).take p.2) 0 0 false true
    later (sendImplicit s (.reducer st) m (.landing st j))) s

/-- The timer of a position that becomes that of NEXT (R212): it starts where it is OPEN, or where a later landing slot holds contributions. -/
def cmbTimer (s : State) (q : CmbQ) : CmbQ := { q with timer := if openCnt q ≠ 0 then some s.time else none }

/-- Deliver the landing slot at NEXT (R213): each element is read, scaled and rounded once; the results are written, and
the status after them. NEXT moves on. -/
def cmbDeliver (s : State) (st : StandId) (j : Fin 8) (lost : Bool) : State :=
  let w := cmbWord s st j.val 0
  let x := cmbWord s st j.val 2
  let q := cmbAt s st.val j.val
  let p := cmbPosOf w q.next
  let (accs, s) := accReadAll s st (cmbAcc w x p) (cbElems w)
  let k := cbShift w
  let n := if cbMean w then cbNcontrib w else 1
  let data := match fmtOf (cbOfmt w) with
    | some f => encodeResults f (accs.map (fun a => resultOf a k n))
    | none => []
  let status := if accs.any (fun a => bitAt a.fl fRESERR) then Status.residueErr else if lost then .memberLost else .ok
  let a := addrPlus (cmbWord s st j.val 1) (p * cbStride x * 64)
  let del : CmbDel := { status := status, finals := (cget {} q.pos p).finals, todo := (itemMsgs data.length).length }
  let q := { q with pos := cset {} q.pos p {}, next := q.next + 1, del := some del, timer := none,
                    short := if lost then satAdd 16 q.short 1 else q.short }
  let s := setCmb s st.val j.val (cmbTimer s q)
  let s := if lost then raise s cShortDelivery st.val 0 0 else s
  cmbWrites s st j (cbTag w) (addrPlus a 64) data

/-- A DONE landing slot at NEXT is delivered once no delivery is under way (R212). -/
def cmbCheck (s : State) (st : StandId) (j : Fin 8) : State :=
  let w := cmbWord s st j.val 0
  let q := cmbAt s st.val j.val
  let p := cget {} q.pos (cmbPosOf w q.next)
  if q.del.isNone && cbValid w && p.held && decide (cbNcontrib w ≤ p.finals) then cmbDeliver s st j false else s

/-- The outcome of a contribution (R211): refused, NACK BUSY, or accepted. -/
inductive CmbOut where
  | refuse (r : Status)
  | busy
  | take
  deriving DecidableEq, Repr

/-- What a queue's stand makes of a contribution, by the table of R211. A position whose delivery is still being written
takes no new landing slot (log 16). -/
def cmbJudge (s : State) (st : StandId) (m : Msg) : CmbOut :=
  let j := ceQueue m.dest
  let w := cmbWord s st j 0
  let q := cmbAt s st.val j
  let ahead := (ceLseq m.dest - q.next).toNat
  let p := cget {} q.pos (cmbPosOf w (ceLseq m.dest))
  if !cbValid w then .refuse .addrRange
  else if m.tenant ≠ cbTag w then .refuse .owner
  else if m.data.isEmpty && msgLow m = 0 then .refuse .lenRange
  else match (fmtOf (cbIfmt w)).bind (fun f => (decodeData f m.data).map (fun c => (f, c))) with
  | none => .refuse .lenRange
  | some (f, c) =>
    if (f.mx && decide (ceElement m.dest % 32 ≠ 0)) || decide (cbElems w < ceElement m.dest + c.length) then .refuse .lenRange
    else if cbSlots w ≤ ahead ∧ ahead ≤ 32767 then .busy
    else if 32767 < ahead then .refuse .addrRange
    else if q.del.isSome && cmbPosOf w (ceLseq m.dest) == cmbPosOf w (q.next - 1) then .busy
    else if p.held && decide (cbNcontrib w ≤ p.finals) then .refuse .capacity
    else .take

/-- The side of a refusal: an event for no queue, `LATE` for a landing slot already delivered (R211). -/
def cmbRefused (s : State) (st : StandId) (m : Msg) : State :=
  let j := ceQueue m.dest
  let w := cmbWord s st j 0
  let q := cmbAt s st.val j
  if !cbValid w then raise s cNoSlot st.val 0 0
  else if cmbJudge s st m = .refuse .addrRange then setCmb s st.val j { q with late := satAdd 16 q.late 1 }
  else s

/-- An accepted contribution: added element by element; a final counted; NEXT delivered when done (R211, R212). The first of NEXT starts its timer
(log 102). -/
def cmbTake (s : State) (st : StandId) (m : Msg) : State :=
  let j : Fin 8 := ⟨ceQueue m.dest % 8, Nat.mod_lt _ (by decide)⟩
  let w := cmbWord s st j.val 0
  let x := cmbWord s st j.val 2
  let pos := cmbPosOf w (ceLseq m.dest)
  let cs := ((fmtOf (cbIfmt w)).bind (fun f => decodeData f m.data)).getD []
  let (_, s) := accAddAll s st (cmbAcc w x pos + ceElement m.dest) cs
  let q := cmbAt s st.val j.val
  let p := cget {} q.pos pos
  let q := { q with pos := cset {} q.pos pos { held := true, finals := p.finals + (if msgLow m = 1 then 1 else 0) },
                    timer := if !p.held && ceLseq m.dest == q.next then some s.time else q.timer }
  cmbCheck (setCmb s st.val j.val q) st j

/-- A write of a delivery ends: the status follows the results (R213). -/
def landingDone (s : State) (st : StandId) (j : Fin 8) (x : Done) : State :=
  if x.stage ≠ .final ∧ x.stage ≠ .refused then s
  else
    let q := cmbAt s st.val j.val
    match q.del with
    | none => s
    | some d =>
      let d := { d with todo := d.todo - 1, failed := d.failed || decide (x.status ≠ .ok) }
      if d.todo ≠ 0 || d.tail then setCmb s st.val j.val { q with del := some d }
      else
        let w := cmbWord s st j.val 0
        let y := cmbWord s st j.val 2
        let l := q.next - 1
        let a := addrPlus (cmbWord s st j.val 1) (cmbPosOf w l * cbStride y * 64)
        let s := setCmb s st.val j.val { q with del := some { d with todo := 1, tail := true } }
        cmbWrites s st j (cbTag w) a
          (leBytes 2 (statusCode d.status) ++ leBytes 2 d.finals ++ leBytes 2 l.toNat ++ List.replicate 58 0)

/-- The results and the status are at their home: `AOBJ` is signalled, the accumulators are zeroed, and a DONE landing slot
at NEXT is next (R213). A delivery with a failed write signals nothing (log 16). -/
def landingComplete (st : StandId) (j : Fin 8) (s : State) : State :=
  let q := cmbAt s st.val j.val
  match q.del with
  | none => s
  | some d =>
    if d.todo ≠ 0 || !d.tail then s
    else
      let w := cmbWord s st j.val 0
      let x := cmbWord s st j.val 2
      let s := if cbAen x && !d.failed then sendRhz s (.signal (cbAobj x) 1) else s
      let s := zeroAccs s st.val (cmbAcc w x (cmbPosOf w (q.next - 1))) (cbElems w)
      cmbCheck (workEnds (setCmb s st.val j.val { q with del := none })) st j

/-- The timer of the landing slot at NEXT reaches `TMO_US`: delivered with MEMBER_LOST (R212); the expiry is a wake request (R340). -/
def combiningTimeout (st : StandId) (j : Fin 8) (s : State) : State :=
  let x := cmbWord s st j.val 2
  let q := cmbAt s st.val j.val
  match q.timer with
  | none => s
  | some t =>
    if cbTmo x = 0 ∨ q.del.isSome then s
    else cmbDeliver (wakeRequest (advanceTo s (t + cbTmo x * 1000)) (.stand st)) st j true

/-- A queue on a girdled stand loses its open landing slots and makes no delivery (R215). -/
def cmbGirdled (s : State) (st : Nat) : State :=
  (List.range 8).foldl (fun s j =>
    let q := cmbAt s st j
    setCmb s st j { q with pos := [], timer := none, del := none }) s

end Sys2Proof.Machine
end

