-- ==== Sys2Proof/Machine/Sync.lean ====
section
/-! DEFINITION. Sync objects at their home hubs: signals, register writes, shadows, the checks of watches and triggers
(chapter 10, R318 to R329; R261). -/

namespace Sys2Proof.Machine

/-- A sync object. -/
def syncObj (s : State) (n : Nat) : SyncObj := cget {} s.sync.objs n

/-- The bytes of a shadow slot: count, target, 8 bytes of 0 (R294). -/
def shadowBytes (o : SyncObj) : List Byte := leBytes 4 o.count.toNat ++ leBytes 4 o.target.toNat ++ List.replicate 8 0

/-- The shadows of a stand lie inside the ring context area (R293). -/
def shadowShut (s : State) (st : Nat) : Bool := decide (st ∈ centreTaps) && regFld s 0x4000 17 2 == 0

/-- The 32 bytes of a word of a stand's shadow area: the slots of two objects homed there; a slot without one is 0 (R294, R318). -/
def shadowWord (s : State) (st w : Nat) : List Byte :=
  let slot (i : Nat) : List Byte := let n := i * 48 + st
    if n < 4096 then shadowBytes (syncObj s n) else List.replicate 16 0
  slot (2 * w) ++ slot (2 * w + 1)

/-- The hub writes the shadow slot of an object, as the word that holds it (R294; log 106). -/
def shadowWrite (s : State) (n : Nat) : State :=
  let h := objHome n
  if shadowShut s h then s else storeWord s h dpBank (0x800 + n / 96) (shadowWord s h (n / 96))

/-- Set an object; the hub writes its shadow slot in the same step (R294). -/
def setObj (s : State) (n : Nat) (o : SyncObj) : State :=
  shadowWrite { s with sync := { s.sync with objs := cset {} s.sync.objs n o } } n

/-- The shadow area of a stand becomes the hub's: every slot is written (R293, R294). -/
def shadowsUp (s : State) (st : Nat) : State :=
  (s.sync.objs.filter (fun p => decide (objHome p.1 = st))).foldl (fun s p => shadowWrite s p.1) (zeroDp s st 0x10000 0x800)

/-- An object's home stand is girdled: it is LOST (R324). -/
def objLost (s : State) (n : Nat) : Bool := girdled s (objHome n)

/-- Count a flag event in `GLB_SYN_STAT` with its object (R325). -/
def synStat (s : State) (n lo : Nat) : State := regPut (regCount s 0xA10 lo 16 1) 0xA10 0 12 n

/-- MISUSE is set (R322, R325). -/
def misuse (s : State) (n : Nat) : State := synStat (setObj s n { syncObj s n with misuse := true }) n 16

/-- The condition of R165: the count is at or above TARGET, or the object's own target when TARGET is 0. -/
def waitHolds (o : SyncObj) (target : BitVec 32) : Bool :=
  decide ((if target = 0 then o.target.toNat else target.toNat) ≤ o.count.toNat)

/-- A leg of a WAIT that crosses between dies (R32, R326): a CTRL frond, which is sequenced. Its data: 1 to register, 2 to release or 3 to
report, the number of the acceptor, its descriptor, and TARGET or the status (log 41). -/
def farMsg (s : State) (u : SrcUnit) (tenant : BitVec 16) (dest : Word) (kind no id v : Nat) : Msg :=
  newMsg s u (planeOf 0) opCtrl vcReq tenant dest (leBytes 1 kind ++ leBytes 2 no ++ leBytes 4 id ++ leBytes 4 v) 0 0 false false

/-- A report goes to a unit of another die, by its stand's dual-port region there; that of a girdled home is sent by the centre tap's hub.
The spec gives it no TENANT; it is sent under the fabric tag 0 (log 41). -/
def farSend (s : State) (home : Nat) (f : FarUnit) (r : Status) : State :=
  let st := if girdled s home then centreTap s else standOf home
  let dest := mk 40 20 (fld f.src 6 20) ||| mk 34 6 (fld f.src 0 6) ||| mkBit 26 true
  later (sendImplicit s (.hub st) (farMsg s (.hub st) 0 dest 3 f.no f.id (statusCode r)) .none_)

/-- The same, at once or once the die is in SERVICE (R343). -/
def farReport (s : State) (home : Nat) (f : FarUnit) (r : Status) : State :=
  if s.dorm.phase = .service ∨ s.dorm.phase = .proposed then farSend s home f r
  else { s with sync := { s.sync with held := s.sync.held ++ [(home, f, r)] } }

/-- The home reports to a waiting unit of this die (R326). A report that crosses the release of its watch is for a WAIT that is over, and is
discarded: the unit's next WAIT is of another descriptor. -/
def reportTo (s : State) (a : Acceptor) (id : Nat) (r : Status) : State :=
  let k := accNo a
  let w := (oget s.sync.waits k).map (fun w => if w.desc = id then { w with mode := .reported r } else w)
  sendRhz { s with sync := { s.sync with waits := oset s.sync.waits k w } } (.watchReport a)

/-- The home reports for a watch (R326, R32). -/
def reportWatch (s : State) (w : Watch) (r : Status) : State :=
  match w.far with
  | some f => farReport s (objHome w.obj) f r
  | none => reportTo s w.acc w.desc r

/-- The watches of the home of object `n`. -/
def watchesOf (s : State) (n : Nat) : List Watch := cget [] s.sync.watches (objHome n)

/-- Set the watches of a home. -/
def setWatches (s : State) (st : Nat) (l : List Watch) : State :=
  { s with sync := { s.sync with watches := cset [] s.sync.watches st l } }

/-- A group of the die (R247). -/
def groupAt (s : State) (g : Nat) : Group := cget {} s.all.groups g

/-- Set a group. -/
def setGroup (s : State) (g : Nat) (x : Group) : State := { s with all := { s.all with groups := cset {} s.all.groups g x } }

/-- The member stands of a group on this die: the bits of `SMAP` (R244, R245). -/
def groupStands (x : Group) : List StandId := stands.filter (fun st => (leAt x.record 56 6).testBit st.val)

/-- A trigger fires once: the trigger goes to the member stands, and ARMED gives way to RUN (R261). Its ARM starts with it: the start latch
and the DSTART (R263, R470, R475). -/
def fireTrigger (s : State) (g : Nat) : State :=
  let x := groupAt s g
  let s := match oget s.all.ops g with | some o => traceStart s o.desc | none => s
  let s := { s with sync := { s.sync with trigs := oset s.sync.trigs g none } }
  let s := setGroup s g { x with armed := false, run := true }
  let s := { s with all := { s.all with ops := tmod (fun _ => none) s.all.ops g (fun o => o.map (fun o => { o with fired := true })) } }
  (groupStands x).foldl (fun s st => sendRhz s (.trigger st g)) s

/-- Every change of an object is checked against its watches and triggers in the same step (R320, R326, R261). -/
def checkObj (s : State) (n : Nat) : State :=
  let o := syncObj s n
  let hit (w : Watch) : Bool := decide (w.obj = n) && waitHolds o w.target
  let l := watchesOf s n
  let s := setWatches s (objHome n) (l.filter (fun w => !hit w))
  let s := (l.filter hit).foldl (fun s w => reportWatch s w .ok) s
  (List.range 64).foldl (fun s g => match oget s.sync.trigs g with
    | some (m, t) => if m = n ∧ waitHolds o t then fireTrigger s g else s
    | none => s) s

/-- A SIGNAL at the home: applied with saturation, or its refusal (R321, R322, R324). -/
def signalOp (s : State) (n : Nat) (inc : BitVec 32) : Status × State :=
  let o := syncObj s n
  if objLost s n then (.remoteWriteFault, s)
  else if !o.alloc then (.addrRange, misuse s n)
  else if inc = 0 then (.ok, s)
  else
    let c : Int := (o.count.toNat : Int) + inc.toInt
    let s :=
      if 2 ^ 32 ≤ c then synStat (setObj s n { o with count := BitVec.allOnes 32, ovf := true }) n 48
      else if c < 0 then synStat (setObj s n { o with count := 0, unf := true }) n 32
      else setObj s n { o with count := BitVec.ofInt 32 c }
    (.ok, checkObj s n)

/-- A read of WORD 0x0 or 0x4 of an object (R322). -/
def syncRead (s : State) (n word : Nat) : Status × List Byte :=
  let o := syncObj s n
  if objLost s n then (.poison, [])
  else if !o.alloc then (.addrRange, [])
  else (.ok, leBytes 4 (if word = 4 then o.target.toNat else o.count.toNat))

/-- A SIGNAL that the rhizome carries to its home: a CSYNC, an arrival signal (R32, R152, R321). -/
def signalApply (n : Fin 4096) (inc : BitVec 32) (s : State) : State := (signalOp s n.val inc).2

/-- `SYN_OBJ` as a word (R319). -/
def synObjWord (o : SyncObj) : Word := BitVec.ofNat 64 (o.target.toNat * 2 ^ 32 + o.count.toNat)

/-- A write of `SYN_OBJ` at the home hub, allocated or not, checked against watches (R320); a hub out of service takes none. -/
def syncObjWrite (n : Nat) (wm v : Word) (s : State) : State :=
  if objLost s n then s
  else
    let o := syncObj s n
    let w := merge wm (synObjWord o) v
    checkObj (setObj s n { o with count := BitVec.ofNat 32 (fld w 0 32), target := BitVec.ofNat 32 (fld w 32 32) }) n

/-- A write of `SYN_CTL` at the home hub (R320): W1C of the flags, then ALLOC: setting it clears the flags; clearing it
completes every watch on the object with ADDR_RANGE and sets MISUSE. -/
def syncCtlWrite (n : Nat) (wm v : Word) (s : State) : State :=
  if objLost s n then s
  else
    let o := syncObj s n
    let clr (i : Nat) : Bool := bitAt (v &&& wm) i
    let o1 := { o with ovf := o.ovf && !clr 61, unf := o.unf && !clr 60, misuse := o.misuse && !clr 59 }
    let alloc := if bitAt wm 63 then bitAt v 63 else o.alloc
    if alloc && !o.alloc then setObj s n { o1 with alloc := true, ovf := false, unf := false, misuse := false }
    else if !alloc && o.alloc then
      let l := watchesOf s n
      let s := setObj s n { o1 with alloc := false }
      let s := setWatches s (objHome n) (l.filter (fun w => decide (w.obj ≠ n)))
      let s := (l.filter (fun w => decide (w.obj = n))).foldl (fun s w => reportWatch s w .addrRange) s
      misuse s n
    else setObj s n o1

/-- `SYN_CTL` as a word (R319). -/
def synCtlWord (s : State) (n : Nat) : Word :=
  let o := syncObj s n
  mkBit 63 o.alloc ||| mkBit 62 (objLost s n) ||| mkBit 61 o.ovf ||| mkBit 60 o.unf ||| mkBit 59 o.misuse |||
    mk 0 8 ((watchesOf s n).filter (fun w => decide (w.obj = n))).length

/-- The objects of a stand that leaves its girdle: count, target and flags are undefined: free values (R324; log 4). -/
def syncLeave (s : State) (st : Nat) : State :=
  (List.range 86).foldl (fun s i =>
    let n := i * 48 + st
    if n < 4096 then
      let (c, s) := drawWord32 s
      let (t, s) := drawWord32 s
      let (f, s) := drawWord32 s
      setObj s n { syncObj s n with count := c, target := t, ovf := f.getLsbD 0, unf := f.getLsbD 1, misuse := f.getLsbD 2 }
    else s) s

/-- The watches and triggers of a stand that is girdled are lost: their WAITs are reported POISON (R324, R329). -/
def watchesLost (s : State) (st : Nat) : State :=
  let l := cget [] s.sync.watches st
  let s := setWatches s st []
  l.foldl (fun s w => reportWatch s w .poison) s

end Sys2Proof.Machine
end

