-- ==== Sys2Proof/Machine/Allsum.lean ====
section
/-! DEFINITION. ALLSUM: groups and their layout, members, tiles, stage traffic, results and member loss (chapter 08). -/

namespace Sys2Proof.Machine

/-- A tier of a group record: BASE, EXTENT, STRIDE (R244). -/
def grBase (r : List Byte) (t : Nat) : Nat := leAt r (8 * t) 2
def grExt (r : List Byte) (t : Nat) : Nat := leAt r (8 * t + 2) 2
def grStride (r : List Byte) (t : Nat) : Nat := leAt r (8 * t + 4) 2
def grEpoch (r : List Byte) : Nat := leAt r 48 2

/-- The bitmap of tier t = 2 die, 3 package, 4 tray, 5 rack; 0 and 1 share `SMAP` (R244). -/
def grMap (r : List Byte) (t : Nat) : Nat :=
  match t with
  | 2 => leAt r 64 1 % 16
  | 3 => leAt r 65 1
  | 4 => leAt r 68 4
  | 5 => leAt r 128 128
  | _ => leAt r 56 6

/-- The number of coordinates of a tier (R245). -/
def tierRange (t : Nat) : Nat := ([8, 6, 4, 8, 32, 1024] : List Nat).getD t 0

/-- A tier admits a coordinate (R245). -/
def admits (r : List Byte) (t c : Nat) : Bool :=
  decide (grBase r t ≤ c) && (c - grBase r t) % grStride r t == 0 && decide ((c - grBase r t) / grStride r t < grExt r t)

/-- This die's own coordinate in tier 2 to 5 (R41). -/
def ownCoord (s : State) (t : Nat) : Nat :=
  let u := selfUpper s
  match t with
  | 2 => u % 4
  | 3 => u / 4 % 8
  | 4 => u / 32 % 32
  | _ => u / 1024

/-- A group record is valid (R245). -/
def groupRecordOk (s : State) (r : List Byte) : Bool :=
  let resv := (List.range 6).all (fun t => decide (leAt r (8 * t + 6) 2 = 0)) && decide (leAt r 50 6 = 0) &&
    decide (leAt r 62 2 = 0) && decide (leAt r 64 1 / 16 = 0) && decide (leAt r 66 2 = 0) && decide (leNat (sub r 72 56) = 0)
  let tiers := (List.range 6).all (fun t =>
    decide (1 ≤ grExt r t) && decide (1 ≤ grStride r t) && decide (grBase r t + (grExt r t - 1) * grStride r t < tierRange t))
  let smap := (List.range 48).all (fun i => !(grMap r 0).testBit i || (admits r 0 (i % 8) && admits r 1 (i / 8)))
  let maps := [2, 3, 4, 5].all (fun t =>
    (List.range (tierRange t)).all (fun c => !(grMap r t).testBit c || admits r t c) &&
    admits r t (ownCoord s t) && (grMap r t).testBit (ownCoord s t))
  decide (r.length = 256) && resv && tiers && smap && maps

/-- Q: the shares of a segment (R251). -/
def shareCount (r : List Byte) : Nat := grExt r 0 * grExt r 1

/-- The stands of the box, ascending (R251). -/
def boxStands (r : List Byte) : List Nat := (List.range 48).filter (fun i => admits r 0 (i % 8) && admits r 1 (i / 8))

/-- The member stands of this die, in rank order (R245, R249). -/
def dieMembers (r : List Byte) : List Nat := (List.range 48).filter (grMap r 0).testBit

/-- The holder of share q on a die whose member bitmap is `smap` (R251). -/
def holderIn (r : List Byte) (smap q : Nat) : Nat :=
  let b := boxStands r
  ((b.drop q ++ b.take q).find? smap.testBit).getD 0

/-- The holder of share q on this die (R251). -/
def holderOf (r : List Byte) (q : Nat) : Nat := holderIn r (grMap r 0) q

/-- The member bitmap of a die of the group: this die's own record, or what another die's record holds (R246; log 17). -/
def smapOf (s : State) (r : List Byte) (g up : Nat) : Nat :=
  if up = selfUpper s then grMap r 0 else (Config.farSmap up g (grEpoch r)).toNat

/-- The holder of share q on a die of the group. -/
def holderAt (s : State) (r : List Byte) (g up q : Nat) : Nat := holderIn r (smapOf s r g up) q

/-- The member stands of a die of the group, by its upper coordinates (R245, R246). -/
def membersAt (s : State) (r : List Byte) (g up : Nat) : List Nat :=
  if up = selfUpper s then dieMembers r else (boxStands r).filter (smapOf s r g up).testBit

/-- The coordinate of tier 2 to 5 in upper coordinates (R41). -/
def coordOf (up t : Nat) : Nat :=
  match t with | 2 => up % 4 | 3 => up / 4 % 8 | 4 => up / 32 % 32 | _ => up / 1024

/-- Upper coordinates with another coordinate in a tier. -/
def setCoord (up t c : Nat) : Nat :=
  let f (k : Nat) : Nat := if k = t then c else coordOf up k
  f 2 + 4 * f 3 + 32 * f 4 + 1024 * f 5

/-- The sub-group that tier `n` + 1 and the tiers below it make of `up` holds a member: `n` 0 is a die (R249). -/
def holds (s : State) (r : List Byte) (g : Nat) : Nat → Nat → Bool
  | 0, up => !(membersAt s r g up).isEmpty
  | n + 1, up => (List.range (tierRange (n + 2))).any (fun c => (grMap r (n + 2)).testBit c && holds s r g n (setCoord up (n + 2) c))

/-- The units of a stage within the parent of `up`, in rank order: member stands, and dies, packages, trays and racks that hold a member
(R249). -/
def units (s : State) (r : List Byte) (g stage up : Nat) : List Nat :=
  if stage = 1 then membersAt s r g up
  else (List.range (tierRange stage)).filter (fun c => (grMap r stage).testBit c && holds s r g (stage - 2) (setCoord up stage c))

/-- The units of a stage within this die's own parent. -/
def stageUnits (s : State) (r : List Byte) (g stage : Nat) : List Nat := units s r g stage (selfUpper s)

/-- The position of a coordinate among the units of a stage (R249). -/
def rankOf (s : State) (r : List Byte) (g stage c : Nat) : Option Nat := (stageUnits s r g stage).findIdx? (· == c)

/-- Units of a stage above the first in the whole group, from tier `n` + 2 down (R249). -/
def countUnits (s : State) (r : List Byte) (g stage : Nat) : Nat → Nat → Nat
  | 0, up => (units s r g 2 up).length
  | n + 1, up =>
    if n + 3 = stage then (units s r g stage up).length
    else ((units s r g (n + 3) up).map (fun c => countUnits s r g stage n (setCoord up (n + 3) c))).sum

/-- The same over all tiers. -/
def groupUnits (s : State) (r : List Byte) (g stage : Nat) : Nat := countUnits s r g stage 3 (selfUpper s)

/-- The highest stage that is not skipped; 1 where all are (R252). -/
def topStage (s : State) (r : List Byte) (g : Nat) : Nat := ([5, 4, 3, 2].find? (fun k => decide (1 < groupUnits s r g k))).getD 1

/-- The members of the whole group (R254), from tier `n` + 1 down: a die's are those of its box and bitmap. -/
def countMembers (s : State) (r : List Byte) (g : Nat) : Nat → Nat → Nat
  | 0, up => (membersAt s r g up).length
  | n + 1, up => ((units s r g (n + 2) up).map (fun c => countMembers s r g n (setCoord up (n + 2) c))).sum

/-- The same over all tiers. -/
def groupMembers (s : State) (r : List Byte) (g : Nat) : Nat := countMembers s r g 4 (selfUpper s)

/-- A stage carries traffic: the group has more than one unit in it (R249). -/
def stageUsed (s : State) (r : List Byte) (g stage : Nat) : Bool :=
  decide (1 < (if stage = 1 then groupMembers s r g else groupUnits s r g stage))

/-- The die of the node of share q at stage `n` + 1 in the parent of `up` there: at each stage above the first, that of the child whose rank
is q modulo their number (R252). -/
def nodeDown (s : State) (r : List Byte) (g q : Nat) : Nat → Nat → Nat
  | 0, up => up
  | n + 1, up =>
    let l := units s r g (n + 2) up
    nodeDown s r g q n (setCoord up (n + 2) (l.getD (q % l.length) 0))

/-- The die of the node of share q at a stage, within this die's own parent (R252). -/
def nodeUpper (s : State) (r : List Byte) (g q stage : Nat) : Nat := nodeDown s r g q (stage - 1) (selfUpper s)

/-- The die of the node of share q at the stage below, in the child `c` of this die's parent at `stage` (R252). -/
def childUpper (s : State) (r : List Byte) (g q stage c : Nat) : Nat := nodeDown s r g q (stage - 2) (setCoord (selfUpper s) stage c)

/-- Stand `st` of this die is the node of share q at a stage (R252). -/
def isNode (s : State) (r : List Byte) (g st q stage : Nat) : Bool := holderOf r q == st && nodeUpper s r g q stage == selfUpper s

/-- The rank of a stand's unit at a stage. -/
def ownRank (s : State) (r : List Byte) (g st stage : Nat) : Nat := (rankOf s r g stage (if stage = 1 then st else ownCoord s stage)).getD 0

/-- The ranks a node expects LAST from: all but its own (R266). -/
def expected (s : State) (r : List Byte) (g st stage : Nat) : List Nat :=
  (List.range (stageUnits s r g stage).length).filter (· ≠ ownRank s r g st stage)

/-- Layout of an operation (R250): L, S, elements and groups of a segment, and the elements of a share in it. -/
def segLen (raw : List Byte) : Nat := aSeg raw * 32
def segCount (raw : List Byte) : Nat := (dLen raw + segLen raw - 1) / segLen raw
def segElems (raw : List Byte) (g : Nat) : Nat := min (dLen raw) ((g + 1) * segLen raw) - g * segLen raw
def shareLo (r raw : List Byte) (seg q : Nat) : Nat := min (segElems raw seg) (32 * (q * ((segElems raw seg + 31) / 32) / shareCount r))
def shareHi (r raw : List Byte) (seg q : Nat) : Nat := shareLo r raw seg (q + 1)

/-- A share has no element. -/
def shareEmpty (r raw : List Byte) (seg q : Nat) : Bool := decide (shareHi r raw seg q ≤ shareLo r raw seg q)

/-- First accumulator of a segment at a stand (R269). -/
def segAcc (raw : List Byte) (seg : Nat) : Nat := aAbase raw + seg % 2 * segLen raw

/-- An operation of a group on this die, and a member's part in it. -/
def opAt (s : State) (g : Nat) : Option OpSt := oget s.all.ops g
def memAt (s : State) (st g : Nat) : Option MemSt := oget s.all.mems (st * 64 + g)

def setOp (s : State) (g : Nat) (o : Option OpSt) : State := { s with all := { s.all with ops := oset s.all.ops g o } }
def setMem (s : State) (st g : Nat) (m : Option MemSt) : State := { s with all := { s.all with mems := oset s.all.mems (st * 64 + g) m } }
def modOp (s : State) (g : Nat) (f : OpSt → OpSt) : State := setOp s g ((opAt s g).map f)
def modMem (s : State) (st g : Nat) (f : MemSt → MemSt) : State := setMem s st g ((memAt s st g).map f)

/-- A segment of a member. -/
def segAt (m : MemSt) (g : Nat) : SegSt := cget {} m.segs g
def modSeg (m : MemSt) (g : Nat) (f : SegSt → SegSt) : MemSt := { m with segs := cmod {} m.segs g f }

/-- A share of a segment at a stage. -/
def shAt (x : SegSt) (q stage : Nat) : ShSt := cget {} x.shares (q * 8 + stage)
def setSh (x : SegSt) (q stage : Nat) (h : ShSt) : SegSt := { x with shares := cset {} x.shares (q * 8 + stage) h }

/-- A segment's bank is open (R269). -/
def segOpen (raw : List Byte) (m : MemSt) (g : Nat) : Bool := decide (g < segCount raw) && ((if g % 2 = 0 then m.open0 else m.open1) == g)

/-- The default or declared input format of a member (R256). -/
def memFmt (raw : List Byte) (m : MemSt) : Nat := if m.ifmt = 15 then dFmt raw % 16 else m.ifmt

/-- The output format. -/
def outFmt (raw : List Byte) : Nat := dFmt raw / 16 % 16

/-- An address in the logical stand of a member on this die (R253). -/
def memberAddr (s : State) (st off : Nat) : Word := mk 40 20 (selfUpper s) ||| mk 34 6 st ||| mk 0 26 off

/-- Parts of a list whose costs fit a room, in order. -/
def chunked {α : Type} (cost : α → Nat) (room : Nat) (cur : List α) (used : Nat) : List α → List (List α)
  | [] => if cur.isEmpty then [] else [cur.reverse]
  | a :: r =>
    if used + cost a ≤ room ∨ cur.isEmpty then chunked cost room (a :: cur) (used + cost a) r
    else cur.reverse :: chunked cost room [a] (cost a) r

/-- What a stage header carries (R264). -/
structure StageHdr where
  group  : Nat
  phase  : Nat
  stage  : Nat
  ordered : Bool
  last   : Bool
  lost   : Bool
  poison : Bool
  reserr : Bool
  opseq  : Nat
  gepoch : Nat
  seg    : Nat
  share  : Nat
  first  : Nat
  count  : Nat
  escn   : Nat
  ofmt   : Nat
  mcount : Nat
  deriving DecidableEq, Repr

/-- The 24 bytes of a stage header: payload bytes 8 to 31, the first of the data (R264). -/
def hdrBytes (h : StageHdr) : List Byte :=
  leBytes 1 (h.group + 64 * h.phase) ++
  leBytes 1 (h.stage + (if h.ordered then 8 else 0) + (if h.last then 16 else 0) + (if h.lost then 32 else 0) +
    (if h.poison then 64 else 0) + (if h.reserr then 128 else 0)) ++
  leBytes 2 h.opseq ++ leBytes 2 h.gepoch ++ leBytes 4 h.seg ++ leBytes 2 h.share ++ leBytes 2 h.first ++ leBytes 2 h.count ++
  leBytes 2 h.escn ++ leBytes 2 h.ofmt ++ leBytes 4 h.mcount

/-- A stage header from the data. -/
def hdrOf (d : List Byte) : StageHdr :=
  let f := leAt d 1 1
  { group := leAt d 0 1 % 64, phase := leAt d 0 1 / 64, stage := f % 8, ordered := f.testBit 3, last := f.testBit 4,
    lost := f.testBit 5, poison := f.testBit 6, reserr := f.testBit 7, opseq := leAt d 2 2, gepoch := leAt d 4 2,
    seg := leAt d 6 4, share := leAt d 10 2, first := leAt d 12 2, count := leAt d 14 2, escn := leAt d 16 2, ofmt := leAt d 18 2,
    mcount := leAt d 20 4 }

/-- Send a stage message from a stand's reducer (R264, R265). -/
def sendStage (s : State) (st : StandId) (g up ns plane : Nat) (down : Bool) (h : StageHdr) (body : List Byte) : State :=
  let x := groupAt s g
  let dest := mk 40 20 up ||| mk 34 6 ns ||| mk 28 6 g ||| mk 26 2 x.opseq.toNat
  let m := newMsg s (.reducer st) (planeOf plane) opReduce (if down then vcBcastDown else vcReduceUp) x.tag dest (hdrBytes h ++ body)
    0 3 false false
  later (sendImplicit s (.reducer st) m (.stage st ⟨g % 64, Nat.mod_lt _ (by decide)⟩))

/-- The common part of a header of this die's operation. -/
def hdrFor (s : State) (g phase stage seg q : Nat) : StageHdr :=
  let x := groupAt s g
  { group := g, phase := phase, stage := stage, ordered := (match opAt s g with | some o => aOrdered o.raw | none => false),
    last := false, lost := false, poison := false, reserr := false, opseq := x.opseq.toNat, gepoch := grEpoch x.record, seg := seg,
    share := q, first := 0, count := 0, escn := 0, ofmt := 0, mcount := 0 }

/-- The data of an UP message: carriers with their escape records after them, or binary32 partials (R264, R267). -/
def upBody (ordered : Bool) (l : List Acc) : List Byte × Nat :=
  if ordered then ((l.map (fun a => leBytes 4 (orderedPartial a))).flatten, 0)
  else
    let r := l.foldl (fun (p : List Byte × List (List Byte)) a =>
      match encodeAcc a with
      | .carrier c => (p.1 ++ leBytes 8 c.toNat, p.2)
      | .escape e => (p.1 ++ leBytes 8 (mk 56 8 255 ||| mkBit 8 true ||| mk 16 16 p.2.length).toNat, p.2 ++ [e])) ([], [])
    (r.1 ++ r.2.flatten, r.2.length)

/-- The bytes an accumulator takes in an UP message. -/
def upCost (ordered : Bool) (a : Acc) : Nat :=
  if ordered then 4 else match encodeAcc a with | .carrier _ => 8 | .escape _ => 56

/-- Send the accumulators of a share up to its node at a stage: flags and `MCOUNT` are those of `h` (R265 to R267). -/
def sendUp (s : State) (st : StandId) (g seg q stage : Nat) (h : ShSt) : State :=
  match opAt s g with
  | none => s
  | some o =>
    let x := groupAt s g
    let lo := shareLo x.record o.raw seg q
    let n := shareHi x.record o.raw seg q - lo
    let (accs, s) := accReadAll s st (segAcc o.raw seg + lo) n
    let ord := aOrdered o.raw
    let parts := chunked (upCost ord) (4096 - 24) [] 0 accs
    let base := hdrFor s g 0 stage seg q
    let base := { base with lost := h.lost, poison := h.poison, reserr := h.reserr || accs.any (fun a => bitAt a.fl fRESERR), mcount := h.mcount }
    let rank := ownRank s x.record g st.val stage
    let up := nodeUpper s x.record g q stage
    let ns := holderAt s x.record g up q
    let bad := accs.any (fun a => bitAt a.fl fRESERR)
    let s := modMem s st.val g (fun m => { m with reserr := m.reserr || bad })
    (parts.foldl (fun (p : State × Nat × Nat) part =>
      let (b, esc) := upBody ord part
      let hd := { base with first := lo + p.2.1, count := part.length, escn := esc, last := decide (p.2.2 + 1 = parts.length) }
      (sendStage p.1 st g up ns (rank + q) false hd b, p.2.1 + part.length, p.2.2 + 1)) (s, 0, 0)).1

/-- A unit is lost to a node at a share of a segment and a stage: marked there, or for an earlier segment (R278). The summary counts as
segment S, share 0. -/
def markedLost (s : State) (g st seg q stage rank : Nat) : Bool :=
  match memAt s st g with
  | some m => m.lost.any (fun l => l.stage == stage && l.rank == rank && (decide (l.seg < seg) || (l.seg == seg && l.share == q)))
  | none => false

/-- Mark units as lost to a node (R278). -/
def markLost (s : State) (st : StandId) (g seg q stage : Nat) (ranks : List Nat) : State :=
  modMem s st.val g (fun m => { m with lost := ranks.map (fun k => ⟨seg, q, stage, k⟩) ++ m.lost })

/-- Whether a rank is lost to a node: marked, or a member of this die that cannot contribute (R278). -/
def rankLost (s : State) (g st seg q stage rank : Nat) : Bool :=
  markedLost s g st seg q stage rank ||
  (decide (stage = 1) && (match (dieMembers (groupAt s g).record)[rank]? with
    | some t => (match memAt s t g with | some m => m.cannot | none => false)
    | none => false))

/-- Send the results of a share on: to its nodes at the stages below, and to the members of the die (R265, R268). -/
def sendDown (s : State) (st : StandId) (g q from_ : Nat) (h : StageHdr) (body : List Byte) : State :=
  let r := (groupAt s g).record
  let one (s : State) (stage up ns rank : Nat) : State := sendStage s st g up ns (q + rank) true { h with stage := stage } body
  let s := ([5, 4, 3, 2].filter (· ≤ from_)).foldl (fun s stage =>
    (expected s r g st.val stage).foldl (fun s k =>
      let up := childUpper s r g q stage ((stageUnits s r g stage).getD k 0)
      one s stage up (holderAt s r g up q) k) s) s
  (expected s r g st.val 1).foldl (fun s k => one s 1 (selfUpper s) ((dieMembers r).getD k 0) k) s

/-- Return the totals of the summary to the nodes of the stages below, down to the holder of share 0 of each die (R271). -/
def sumDown (s : State) (st : StandId) (g below : Nat) (h : StageHdr) (body : List Byte) : State :=
  let r := (groupAt s g).record
  ([5, 4, 3, 2].filter (· ≤ below)).foldl (fun s k =>
    (expected s r g st.val k).foldl (fun s i =>
      let up := childUpper s r g 0 k ((stageUnits s r g k).getD i 0)
      sendStage s st g up (holderAt s r g up 0) i true { h with stage := k } body) s) s

/-- The bytes that hold `n` elements in a format: whole blocks (R220). -/
def fmtSpan (code n : Nat) : Nat := match fmtOf code with | some f => (n + unitElems f - 1) / unitElems f * unitBytes f | none => 0

/-- The source range that a member reads: offset and bytes (R257); none for one that pushes or cannot contribute. -/
def memberSource (raw : List Byte) (m : MemSt) : Nat × Nat :=
  if m.push || m.cannot then (0, 0) else (fld (dSrcRaw raw) 0 26, fmtSpan (memFmt raw m) (min m.ncount (dLen raw)))

/-- The operation is in place at a member: `DST` is `SRC`, and 32 elements take as many bytes in both formats (R270). -/
def inPlace (raw : List Byte) (m : MemSt) : Bool :=
  fld (dDstRaw raw) 0 26 == fld (dSrcRaw raw) 0 26 && fmtSpan (memFmt raw m) 32 == fmtSpan (outFmt raw) 32

/-- Where the landing range of a member meets its source range, unless it is in place: the first offset and the one past the last (R270). -/
def landOverlap (raw : List Byte) (m : MemSt) : Nat × Nat :=
  let (a, n) := memberSource raw m
  let b := fld (dDstRaw raw) 0 26
  if inPlace raw m then (0, 0) else (max a b, min (a + n) (b + fmtSpan (outFmt raw) (dLen raw)))

/-- Write at an offset of a member's logical stand: whether it was made. -/
def memberWriteAt (s : State) (st : StandId) (g off : Nat) (b : List Byte) : Bool × State :=
  if b.isEmpty then (true, s)
  else
    let (r, s) := memWrite s (groupAt s g).tag true (hubResolve st.val true) (memberAddr s st.val off) b
    (match r with | .ok _ => true | _ => false, s)

/-- Write results at the landing offset of a member: whether all were made (R268). Bytes within the source range of an operation that is not
in place are left for `overlapFree`, so that the source is still read as it was: no other byte becomes undefined (R270). -/
def landWrite (s : State) (st : StandId) (g off : Nat) (body : List Byte) : Bool × State :=
  match opAt s g, memAt s st.val g with
  | some o, some m =>
    let a := fld (dDstRaw o.raw) 0 26 + off
    let (lo, hi) := landOverlap o.raw m
    if hi ≤ lo ∨ a + body.length ≤ lo ∨ hi ≤ a then memberWriteAt s st g a body
    else
      let (x, s) := memberWriteAt s st g a (body.take (lo - a))
      let (y, s) := memberWriteAt s st g hi (body.drop (hi - a))
      (x && y, s)
  | _, _ => (false, s)

/-- Once a member's part has ended, the destination bytes within its source range hold undefined values: free bytes (R270; log 4). -/
def overlapFree (s : State) (st : StandId) (g : Nat) : State :=
  match opAt s g, memAt s st.val g with
  | some o, some m =>
    let (lo, hi) := landOverlap o.raw m
    if hi ≤ lo ∨ !m.started then s
    else (itemMsgs (hi - lo)).foldl (fun s k => freeRange s (groupAt s g).tag (memberAddr s st.val (lo + k.1)) k.2) s
  | _, _ => s

/-- Land results and count their bytes, but for those of a write that failed (R471). -/
def landBytes (s : State) (st : StandId) (g off : Nat) (body : List Byte) : State :=
  match opAt s g with
  | none => s
  | some o =>
    let (ok, s) := landWrite s st g off body
    if ok then modDesc s o.desc (fun d => { d with wr := d.wr + body.length }) else s

/-- The wait of a stage in ns (R277). -/
def stageWait (s : State) (stage : Nat) : Nat := 1000 * max 1 (if stage ≤ 2 then regFld s 0xA00 0 16 else regFld s 0xA00 16 16)

/-- Twice the waits of the stages an operation uses (R280). -/
def abandonWait (s : State) (g : Nat) : Nat :=
  2 * (([1, 2, 3, 4, 5].filter (stageUsed s (groupAt s g).record g)).map (stageWait s)).sum

/-- The status of a completion (R275). -/
def opStatus (o : OpSt) : Status :=
  if o.lost || o.sumGone || o.totals.isNone then .memberLost
  else if o.poison then .poison
  else if o.reserr then .residueErr
  else if (o.totals.getD (0, 0)).1 ≠ 0 then .okTruncated else .ok

/-- The operation ends on this die: its record, RUN and ARMED 0, the members' parts discarded (R274 to R276). -/
def opEnd (s : State) (g : Nat) (r : Status) : State :=
  match opAt s g with
  | none => s
  | some o =>
    let x := groupAt s g
    let s := workEnds (stands.foldl (fun s st => setMem (overlapFree s st g) st.val g none) s)
    let s := setGroup (setOp s g none) g { x with run := false, armed := false }
    let s := { s with sync := { s.sync with trigs := oset s.sync.trigs g none } }
    let t := if o.sumGone then (0, 0) else o.totals.getD (0, 0)
    let s := modDesc s o.desc (fun d => { d with todo := 0, lvl := lvByte (if bitAt d.lvl 0 || d.rd = 0 then 1 else 6) 1 })
    complete s o.desc r 0 (BitVec.ofNat 64 t.2) (BitVec.ofNat 64 t.1) false

/-- Every member of the die is through, and the totals are here or abandoned: the operation completes (R274). -/
def opCheck (s : State) (g : Nat) : State :=
  match opAt s g with
  | none => s
  | some o =>
    if (dieMembers (groupAt s g).record).all (fun t => decide (t ∈ o.landed)) && (o.totals.isSome || o.sumGone) then
      opEnd s g (opStatus o)
    else s

/-- A node's own unit is lost to it (R278): its own sum was not ready within the wait. -/
def selfLost (s : State) (g st seg q stage : Nat) : Bool := markedLost s g st seg q stage (ownRank s (groupAt s g).record g st stage)

/-- The summary of a node at a stage (R271): `n` bounds the stages. -/
def sumCheck (s : State) (st : StandId) (g stage : Nat) : Nat → State
  | 0 => s
  | n + 1 =>
    match opAt s g, memAt s st.val g with
    | some o, some m =>
      let r := (groupAt s g).record
      let h := cget {} m.sum.stages stage
      let own := selfLost s g st.val (segCount o.raw) 0 stage
      let ready := own || (if stage = 1 then m.sum.sent else (cget {} m.sum.stages (stage - 1)).done)
      if !isNode s r g st.val 0 stage || h.done || !ready then s
      else
        let ex := expected s r g st.val stage
        let gone (k : Nat) : Bool := rankLost s g st.val (segCount o.raw) 0 stage k
        let lostOne := ex.any gone
        if !ex.all (fun k => decide (k ∈ h.last) || gone k) then
          modMem s st.val g (fun m => { m with sum := { m.sum with stages := cset {} m.sum.stages stage { h with since := some (h.since.getD s.time) } } })
        else
          let below : ShSt := if own then { lost := true }
            else if stage = 1 then { mcount := if m.cannot then 0 else 1, lost := o.lost || m.cannot, poison := m.poison, reserr := m.reserr }
            else cget {} m.sum.stages (stage - 1)
          let h := { h with done := true, mcount := h.mcount + below.mcount, lost := h.lost || lostOne || below.lost,
                            poison := h.poison || below.poison, reserr := h.reserr || below.reserr }
          let s := modMem s st.val g (fun m => { m with sum := { m.sum with stages := cset {} m.sum.stages stage h } })
          let hd := { hdrFor s g 2 stage 0 0 with last := true, lost := h.lost, poison := h.poison, reserr := h.reserr, mcount := h.mcount }
          if stage = topStage s r g then
            let s := sumDown s st g stage hd (leBytes 8 m.sum.dropped)
            let s := modOp s g (fun o => { o with totals := some (m.sum.dropped, h.mcount), lost := o.lost || h.lost,
                                                  poison := o.poison || h.poison, reserr := o.reserr || h.reserr })
            opCheck s g
          else if isNode s r g st.val 0 (stage + 1) then sumCheck s st g (stage + 1) n
          else sendStage s st g (nodeUpper s r g 0 (stage + 1)) (holderAt s r g (nodeUpper s r g 0 (stage + 1)) 0) (ownRank s r g st.val (stage + 1)) false
            { hd with stage := stage + 1 } (leBytes 8 m.sum.dropped)
    | _, _ => s

/-- A member sends its SUMMARY after its last segment (R271). -/
def sendSummary (s : State) (st : StandId) (g : Nat) : State :=
  match opAt s g, memAt s st.val g with
  | some o, some m =>
    let r := (groupAt s g).record
    if m.sum.sent then s
    else
      let s := modMem s st.val g (fun m => { m with sum := { m.sum with sent := true, sentAt := s.time, dropped := min (2 ^ 64 - 1) (m.sum.dropped + m.dropped) } })
      if holderOf r 0 = st.val then sumCheck s st g 1 6
      else sendStage s st g (selfUpper s) (holderOf r 0) (ownRank s r g st.val 1) false
        { hdrFor s g 2 1 0 0 with last := true, lost := o.lost || m.cannot, poison := m.poison, reserr := m.reserr, mcount := if m.cannot then 0 else 1 }
        (leBytes 8 m.dropped)
  | _, _ => s

/-- Every result has landed at a member, or is abandoned: the summary goes; `MOBJ` is signalled where the last result has landed, not where
any was abandoned (R271, R274, R280). -/
def memberThrough (s : State) (st : StandId) (g : Nat) : State :=
  match opAt s g, memAt s st.val g with
  | some o, some m =>
    if m.gone || decide (m.closed < segCount o.raw) then s
    else
      let s := modMem s st.val g (fun m => { m with gone := true })
      let s := if aMsig o.raw && !m.missed then sendRhz s (.signal (aMobj o.raw) 1) else s
      let s := modOp s g (fun o => { o with landed := if st.val ∈ o.landed then o.landed else st.val :: o.landed })
      opCheck (sendSummary s st g) g
  | _, _ => s

/-- The share that an element of a segment belongs to (R251). -/
def elemShare (r raw : List Byte) (seg e : Nat) : Option Nat :=
  (List.range (shareCount r)).find? (fun q => decide (shareLo r raw seg q ≤ e) && decide (e < shareHi r raw seg q))

/-- Add the contributions of elements to the open bank of a segment (R223). A node whose own unit is lost to it adds none to the shares
that it holds (R278). -/
def addElems (s : State) (st : StandId) (g seg first : Nat) (cs : List Contrib) : State :=
  match opAt s g with
  | none => s
  | some o =>
    let r := (groupAt s g).record
    let e := first - seg * segLen o.raw
    let own (q : Nat) : Bool := holderOf r q == st.val && selfLost s g st.val seg q 1
    if (List.range (shareCount r)).any own then
      (cs.foldl (fun (p : State × Nat) c =>
        (if (elemShare r o.raw seg p.2).any own then p.1 else (accAdd p.1 st (segAcc o.raw seg + p.2) c).2, p.2 + 1)) (s, e)).1
    else (accAddAll s st (segAcc o.raw seg + e) cs).2

/-- Decode units of which some bytes could not be read: NaN for every element of such a unit (R257). -/
def decodeMarked (f : Fmt) (l : List (Byte × Bool)) : Nat → List Contrib
  | 0 => []
  | n + 1 =>
    let u := l.take (unitBytes f)
    (if u.all Prod.snd then decodeUnit f (u.map Prod.fst) else List.replicate (unitElems f) .nan) ++ decodeMarked f (l.drop (unitBytes f)) n

/-- The parts of a tile's data by segment, cut at C: (first element, bytes); the last block of an MX format is whole (R259). -/
def tileParts (raw : List Byte) (f : Fmt) (first : Nat) (data : List Byte) : Nat → List (Nat × List Byte)
  | 0 => []
  | k + 1 =>
    if data.isEmpty || decide (dLen raw ≤ first) then []
    else
      let room := min ((first / segLen raw + 1) * segLen raw) (dLen raw) - first
      let n := min room (data.length / unitBytes f * unitElems f)
      let b := data.take ((n + unitElems f - 1) / unitElems f * unitBytes f)
      (first, b) :: tileParts raw f (first + n) (data.drop b.length) k

/-- The staging bank of a member: logical bank `SBANK` of its own logical stand, through the coppice map (R259). -/
def stagingHome (s : State) (st : StandId) (raw : List Byte) (w : Bool) : Home :=
  hubResolve st.val w s (memberAddr s st.val (aSbank raw * 2 ^ 21))

/-- Read bytes of the staging bank (R259), counted as read there (R467): none where they are poisoned or the bank is gone. -/
def stagingRead (s : State) (st : StandId) (raw : List Byte) (pos n : Nat) : Option (List Byte) × State :=
  match stagingHome s st raw false with
  | .bank b k =>
    let s := (bankTouch s b k true).2
    readBank (lvl s b 0 n) (standOf b) k pos n .service
  | _ => (none, s)

/-- Decode the staged tiles of a segment whose bank opens (R259, R269): they are read back from the staging bank. DEDUCED: one that
cannot be read contributes NaN and sets `POISON`, as a read of R257 (log 104). -/
def unstage (s : State) (st : StandId) (g seg : Nat) : State :=
  match opAt s g, memAt s st.val g with
  | some o, some m =>
    let inSeg (t : Tile) : Bool := t.first / segLen o.raw == seg
    let s := modMem s st.val g (fun m => { m with tiles := m.tiles.filter (fun t => !inSeg t) })
    match fmtOf (memFmt o.raw m) with
    | none => s
    | some f =>
      (m.tiles.filter inSeg).foldl (fun s t =>
        let (d, s) := stagingRead s st o.raw t.pos t.len
        let l := match d with | some d => d.map (fun b => (b, true)) | none => List.replicate t.len (0, false)
        let s := modMem s st.val g (fun m => { m with poison := m.poison || d.isNone })
        addElems s st g seg t.first ((decodeMarked f l (t.len / unitBytes f)).take (dLen o.raw - t.first))) s
  | _, _ => s

/-- Bytes of a member's source as read in messages of 4,096 bytes, with the bytes of failed messages marked (R257). -/
def sourceBytes (s : State) (st : StandId) (tag : BitVec 16) (a : Word) (n : Nat) : List (Byte × Bool) × State :=
  (itemMsgs n).foldl (fun (p : List (Byte × Bool) × State) k =>
    let (r, s) := memRead p.2 tag true (hubResolve st.val false) (addrPlus a k.1) k.2
    match r with
    | .ok d => (p.1 ++ d.map (fun b => (b, true)), s)
    | _ => (p.1 ++ List.replicate k.2 (0, false), s)) ([], s)

/-- A MEMORY member reads the elements `e0` to `e1` - 1 of its source and adds them (R257); the bytes of a failed message are not counted
(R471). -/
def readOwn (s : State) (st : StandId) (g seg e0 e1 : Nat) : State :=
  match opAt s g, memAt s st.val g with
  | some o, some m =>
    (match fmtOf (memFmt o.raw m) with
    | none => s
    | some f =>
      if e1 ≤ e0 then s
      else
        let k := unitElems f
        let u0 := e0 / k
        let n := (e1 + k - 1) / k - u0
        let a := memberAddr s st.val (fld (dSrcRaw o.raw) 0 26 + u0 * unitBytes f)
        let (l, s) := sourceBytes s st (groupAt s g).tag a (n * unitBytes f)
        let bad := l.any (fun p => !p.2)
        let s := modMem s st.val g (fun m => { m with poison := m.poison || bad })
        let s := modDesc s o.desc (fun d => { d with rd := d.rd + (l.filter Prod.snd).length, lvl := 1 })
        addElems s st g seg e0 (((decodeMarked f l n).drop (e0 - u0 * k)).take (e1 - e0)))
  | _, _ => s

/-- The last stage at which a stand is the node of a share without a break (R252). -/
def lastStage (s : State) (r : List Byte) (g st q : Nat) : Nat :=
  ((List.range (topStage s r g)).filter (fun k => isNode s r g st q (k + 1))).length

/-- The node can replay a share (R282): once, before it is sent up or rounded, with an own contribution that is read from memory or that
there is none of. -/
def canReplay (s : State) (st : StandId) (g seg q : Nat) : Bool :=
  match opAt s g, memAt s st.val g with
  | some o, some m =>
    let r := (groupAt s g).record
    let x := segAt m seg
    segOpen o.raw m seg && (!m.push || m.cannot) && isNode s r g st.val q 1 && !(shAt x q 1).replay && !(shAt x q (lastStage s r g st.val q)).done
  | _, _ => false

/-- A mark that a complete node finds on an accumulator of a share, and on which REPLAY acts: a mismatch of this read that is CONTAINED, or an
occurrence of it, CONTAINED, that the collector has yet to take (R226, R416, R417). -/
def markActs (s : State) (st : StandId) (i : Nat) : Bool :=
  let x := accAt s st.val i
  let cls (e : Ev) : Bool := (classify s e).1 == 1
  (resCheck x != 0 && cls { family := cResRead.family, cause := cResRead.cause, loc := BitVec.ofNat 7 st.val, sub := 0, detail := 0 }) ||
  (bitAt x.fl fRESERR && s.flt.inbox.any (fun e => e.family == 5 && decide (e.cause.val < 2) && e.loc.toNat == st.val && fld e.detail 16 14 == i && cls e))

/-- A complete node replays its share at once, before the collector takes the occurrence (R282, R418, R429). -/
def replayDue (s : State) (st : StandId) (g seg q : Nat) : Bool :=
  armed s 5 4 && canReplay s st g seg q &&
  (match opAt s g with
  | some o =>
    let r := (groupAt s g).record
    let lo := shareLo r o.raw seg q
    (List.range (shareHi r o.raw seg q - lo)).any (fun i => markActs s st (segAcc o.raw seg + lo + i))
  | none => false)

/-- An input of a node on this die sends its partial of a share again: a member, from the bank that it holds (R282). -/
def againUp (s : State) (t : StandId) (g seg q stage : Nat) : State :=
  match opAt s g, memAt s t.val g with
  | some o, some y =>
    if !segOpen o.raw y seg then s
    else if stage = 1 then
      (if (segAt y seg).own && !y.cannot then sendUp s t g seg q 1 { mcount := 1, poison := y.poison } else s)
    else
      let h := shAt (segAt y seg) q (stage - 1)
      if h.done && isNode s (groupAt s g).record g t.val q (stage - 1) then sendUp s t g seg q stage h else s
  | _, _ => s

/-- The request that an input on another die sends its partial again: a CTRL frond between hubs, for which the spec gives no form (R282;
log 17). -/
def askAgain (s : State) (st : StandId) (g up ns seg q stage : Nat) : State :=
  let x := groupAt s g
  let d := leBytes 1 4 ++ leBytes 1 g ++ leBytes 2 x.opseq.toNat ++ leBytes 2 (grEpoch x.record) ++ leBytes 4 seg ++ leBytes 2 q ++ leBytes 1 stage
  later (sendImplicit s (.hub st)
    (newMsg s (.hub st) (planeOf 0) opCtrl vcReq x.tag (mk 40 20 up ||| mk 34 6 ns ||| mkBit 26 true) d 0 0 false false) .none_)

/-- Such a request at the stand that it asks (R282). -/
def askTake (s : State) (st : StandId) (d : List Byte) : State :=
  let g := leAt d 1 1 % 64
  match opAt s g with
  | none => s
  | some o =>
    if leAt d 2 2 ≠ o.opseq.toNat ∨ leAt d 4 2 ≠ grEpoch (groupAt s g).record ∨ leAt d 12 1 < 2 then s
    else againUp s st g (leAt d 6 4) (leAt d 10 2) (leAt d 12 1)

/-- A node asks an input of a share for its partial again (R282). -/
def askInput (s : State) (st : StandId) (g seg q k i : Nat) : State :=
  let r := (groupAt s g).record
  if k = 1 then againUp s (standOf ((dieMembers r).getD i 0)) g seg q 1
  else
    let up := childUpper s r g q k ((stageUnits s r g k).getD i 0)
    askAgain s st g up (holderAt s r g up q) seg q k

/-- Replay a share at its node (R282): its accumulators are zeroed, the own source is read again, and each input of its stages that is not
lost is asked to send its partial again: at once where its `LAST` has come; where only a part has, what is left of it is passed over first;
where nothing has, its partial is still to come. -/
def shareReplay (s : State) (st : StandId) (g seg q : Nat) : State :=
  match opAt s g, memAt s st.val g with
  | some o, some m =>
    let r := (groupAt s g).record
    let lo := shareLo r o.raw seg q
    let hi := shareHi r o.raw seg q
    let base := seg * segLen o.raw
    let stages := (List.range (lastStage s r g st.val q)).map (· + 1)
    let s := zeroAccs s st.val (segAcc o.raw seg + lo) (hi - lo)
    let s := if m.cannot || !(segAt m seg).own then s
      else readOwn s st g seg (base + lo) (min (min m.ncount (dLen o.raw)) (base + hi))
    let s := stages.foldl (fun s k =>
      modMem s st.val g (fun m => modSeg m seg (fun x =>
        let z := shAt x q k
        setSh x q k { replay := decide (k = 1), since := some s.time,
                      skip := ((z.got.map Prod.fst).filter (fun i => !decide (i ∈ z.last))) ++ z.skip }))) s
    stages.foldl (fun s k =>
      (shAt (segAt m seg) q k).last.foldl (fun s i => if rankLost s g st.val seg q k i then s else askInput s st g seg q k i) s) s
  | _, _ => s

/-- The results of a share at its root (R268): each element rounded once. -/
def rootResults (s : State) (st : StandId) (g seg q mcount : Nat) : List Byte × Bool × State :=
  match opAt s g with
  | none => ([], false, s)
  | some o =>
    let r := (groupAt s g).record
    let lo := shareLo r o.raw seg q
    let (accs, s) := accReadAll s st (segAcc o.raw seg + lo) (shareHi r o.raw seg q - lo)
    let n := if aMean o.raw then max 1 mcount else 1
    (match fmtOf (outFmt o.raw) with
    | some f => encodeResults f (accs.map (fun a => resultOf a (aShift o.raw) n))
    | none => [], accs.any (fun a => bitAt a.fl fRESERR), s)

/-- Results cut into DOWN messages: (first element within the share, count, bytes), whole blocks for MX (R264). -/
def downParts (f : Fmt) (n : Nat) (b : List Byte) : List (Nat × Nat × List Byte) :=
  let per := (4096 - 24) / unitBytes f * unitElems f
  (List.range ((n + per - 1) / per)).map (fun i =>
    (i * per, min per (n - i * per), (b.drop (i * (per / unitElems f) * unitBytes f)).take (per / unitElems f * unitBytes f)))

/-- A stand is the node of a share at some stage, and that stage is not done. -/
def nodeOpen (s : State) (r : List Byte) (g st : Nat) (x : SegSt) (q : Nat) : Bool :=
  (List.range (topStage s r g)).any (fun k => isNode s r g st q (k + 1) && !(shAt x q (k + 1)).done)

/-- A segment is finished at a stand: every share landed, and every share of which it is a node sent up or rounded (R269). -/
def segDone (s : State) (st : StandId) (g seg : Nat) : Bool :=
  match opAt s g, memAt s st.val g with
  | some o, some m =>
    let r := (groupAt s g).record
    let x := segAt m seg
    segOpen o.raw m seg && m.started &&
    (List.range (shareCount r)).all (fun q => shareEmpty r o.raw seg q || (decide (q ∈ x.landed) && !nodeOpen s r g st.val x q))
  | _, _ => false

/-- Mark a share landed. -/
def shareLanded (s : State) (st : StandId) (g seg q : Nat) : State :=
  modMem s st.val g (fun m => modSeg m seg (fun x => { x with landed := if q ∈ x.landed then x.landed else q :: x.landed }))

/-- Land what a root or a DOWN message gives for a share, and flags with it (R268, R275). -/
def landShare (s : State) (st : StandId) (g seg q first : Nat) (h : StageHdr) (body : List Byte) : State :=
  match opAt s g with
  | none => s
  | some o =>
    let e := seg * segLen o.raw + first
    let off := match fmtOf (outFmt o.raw) with | some f => fmtBytes f e | none => 0
    let s := landBytes s st g off body
    let s := modOp s g (fun o => { o with lost := o.lost || h.lost, poison := o.poison || h.poison, reserr := o.reserr || h.reserr })
    if h.last then shareLanded s st g seg q else s

/-- A node looks at a share of a stage (R266): complete when every expected unit has sent LAST or is lost. A complete node
goes on to its next stage, sends up, or rounds as the root. `n` bounds the stages. -/
def nodeCheck (s : State) (st : StandId) (g seg q stage : Nat) : Nat → State
  | 0 => s
  | n + 1 =>
    match opAt s g, memAt s st.val g with
    | some o, some m =>
      let r := (groupAt s g).record
      let x := segAt m seg
      let h := shAt x q stage
      let own := selfLost s g st.val seg q stage
      let ready := own || (if stage = 1 then x.own else (shAt x q (stage - 1)).done)
      if !isNode s r g st.val q stage || h.done || !ready || shareEmpty r o.raw seg q then s
      else
        let ex := expected s r g st.val stage
        let put (s : State) (h : ShSt) : State := modMem s st.val g (fun m => modSeg m seg (fun x => setSh x q stage h))
        let gone (k : Nat) : Bool := rankLost s g st.val seg q stage k
        if !ex.all (fun k => decide (k ∈ h.last) || gone k) then put s { h with since := some (h.since.getD s.time) }
        else if replayDue s st g seg q && lastStage s r g st.val q == stage then
          let lo := shareLo r o.raw seg q
          nodeCheck (shareReplay (accReadAll s st (segAcc o.raw seg + lo) (shareHi r o.raw seg q - lo)).2 st g seg q) st g seg q 1 n
        else
          let below : ShSt := if own then { lost := true }
            else if stage = 1 then { mcount := if m.cannot then 0 else 1, lost := m.cannot, poison := m.poison }
            else shAt x q (stage - 1)
          let h := { h with done := true, mcount := h.mcount + below.mcount, poison := h.poison || below.poison,
                            lost := h.lost || below.lost || ex.any gone, reserr := h.reserr || below.reserr }
          let s := put s h
          if stage = topStage s r g then
            let lo := shareLo r o.raw seg q
            let (b, bad, s) := rootResults s st g seg q h.mcount
            let s := modMem s st.val g (fun m => { m with reserr := m.reserr || bad })
            match fmtOf (outFmt o.raw) with
            | none => s
            | some f =>
              let parts := downParts f (shareHi r o.raw seg q - lo) b
              let base := { hdrFor s g 1 stage seg q with lost := h.lost, poison := h.poison, reserr := h.reserr || bad,
                                                          ofmt := outFmt o.raw, mcount := h.mcount }
              (parts.foldl (fun (t : State × Nat) p =>
                let hd := { base with first := lo + p.1, count := p.2.1, last := decide (t.2 + 1 = parts.length) }
                let s := sendDown t.1 st g q stage hd p.2.2
                (landShare s st g seg q (lo + p.1) hd p.2.2, t.2 + 1)) (s, 0)).1
          else if isNode s r g st.val q (stage + 1) then nodeCheck s st g seg q (stage + 1) n
          else sendUp s st g seg q (stage + 1) h
    | _, _ => s

/-- A member forms its own contribution of an open segment and sends its stage-1 data (R257, R263, R266). -/
def segOwn (s : State) (st : StandId) (g seg : Nat) : State :=
  match opAt s g, memAt s st.val g with
  | some o, some m =>
    if !segOpen o.raw m seg || (segAt m seg).own || !m.started || (m.push && !m.final && !m.cannot) then s
    else
      let r := (groupAt s g).record
      let base := seg * segLen o.raw
      let s := if m.push || m.cannot then s
        else readOwn s st g seg base (min (min m.ncount (dLen o.raw)) (base + segElems o.raw seg))
      let s := modMem s st.val g (fun m => modSeg m seg (fun x => { x with own := true, sentAt := s.time }))
      let poison := match memAt s st.val g with | some m => m.poison | none => false
      (List.range (shareCount r)).foldl (fun s q =>
        if shareEmpty r o.raw seg q then s
        else if holderOf r q = st.val then nodeCheck s st g seg q 1 6
        else if m.cannot then s
        else sendUp s st g seg q 1 { mcount := 1, poison := poison }) s
  | _, _ => s

/-- The nodes of a segment at a stand that has lost units look at their shares again: a lost unit stays lost for later segments (R278). -/
def lostGo (s : State) (st : StandId) (g seg : Nat) : State :=
  match opAt s g, memAt s st.val g with
  | some o, some m =>
    if m.lost.isEmpty || !segOpen o.raw m seg then s
    else
      let r := (groupAt s g).record
      (List.range (shareCount r)).foldl (fun s q =>
        (List.range (topStage s r g)).foldl (fun s k => nodeCheck s st g seg q (k + 1) 6) s) s
  | _, _ => s

/-- Close a finished segment and open its bank for segment σ + 2 (R269); `n` bounds the segments that follow at once. -/
def segCheck (s : State) (st : StandId) (g seg : Nat) : Nat → State
  | 0 => s
  | n + 1 =>
    if !segDone s st g seg then s
    else match opAt s g with
    | none => s
    | some o =>
      let s := modMem s st.val g (fun m =>
        let m := { m with closed := m.closed + 1, segs := cset {} m.segs seg {} }
        if seg % 2 = 0 then { m with open0 := seg + 2 } else { m with open1 := seg + 2 })
      if seg + 2 < segCount o.raw then
        let s := zeroAccs s st.val (segAcc o.raw seg) (segLen o.raw)
        segCheck (lostGo (segOwn (unstage s st g (seg + 2)) st g (seg + 2)) st g (seg + 2)) st g (seg + 2) n
      else memberThrough s st g

/-- Both open segments of a member go on. -/
def memberGo (s : State) (st : StandId) (g : Nat) : State :=
  match opAt s g, memAt s st.val g with
  | some o, some m =>
    let s := segOwn (segOwn s st g m.open0) st g m.open1
    let s := lostGo (lostGo s st g m.open0) st g m.open1
    segCheck (segCheck s st g m.open0 (segCount o.raw + 2)) st g m.open1 (segCount o.raw + 2)
  | _, _ => s

/-- Every member of the die goes on: a stand's loss can complete a share of another. -/
def dieGo (s : State) (g : Nat) : State := (groupStands (groupAt s g)).foldl (fun s st => memberGo s st g) s

/-- A flow without the stage messages of a group that have not gone out or are not acknowledged: nothing of it is sent again, and the next
message carries OPEN. -/
def dropStage (g : Nat) (f : Flow) : Flow :=
  let its (o : Owner) : Bool := match o with | .stage _ k => decide (k.val = g) | _ => false
  let win := f.win.filter (fun c => !(its c.owner && !c.acked))
  { f with win := win, wait := f.wait.filter (fun w => !its w.owner), owed := f.owed || decide (win.length < f.win.length) }

/-- The member stands of the die stop sending for a group (R279). -/
def stopSending (s : State) (g : Nat) : State :=
  let its (o : Owner) : Bool := match o with | .stage _ k => decide (k.val = g) | _ => false
  stands.foldl (fun s st =>
    let lo := unitNo (.reducer st) * 8192
    let keys := (s.trans.flows.map Prod.fst).filter (fun k => decide (lo ≤ k) && decide (k < lo + 8192))
    let s := keys.foldl (fun s k => setFlow s k (dropStage g (flowAt s k))) s
    { s with trans := { s.trans with noSlot := cmod [] s.trans.noSlot (unitNo (.reducer st)) (·.filter (fun w => !its w.owner)) } }) s

/-- A die abandons an operation (R279): its members stop sending, its descriptor completes with MEMBER_LOST, its members' parts are
discarded. -/
def dieAbandon (s : State) (g : Nat) : State := opEnd (modOp (stopSending s g) g (fun o => { o with lost := true, sumGone := true })) g .memberLost

/-- A member stand of the group on this die is girdled. -/
def groupGirdled (s : State) (g : Nat) : Bool := (groupStands (groupAt s g)).any (fun st => girdled s st.val)

/-- A member stand has been girdled: every operation that runs there is abandoned (R279). -/
def allsumGirdled (s : State) : State :=
  (List.range 64).foldl (fun s g => if (groupAt s g).run && groupGirdled s g then dieAbandon s g else s) s

/-- The declaration word of a group at a stand (R256): none where it cannot be read. Its 8 bytes count as read (R467). -/
def declWord (s : State) (st : StandId) (g : Nat) : Option Word × State :=
  let (d, s) := readBank s st dpBank (0xF800 + g * 8) 8 .service
  (d.map (bytesBv 64), lvl s st.val 2 8)

/-- Stage an operation at a member stand (R256, R257, R269): its declaration is read, its two banks are zeroed. -/
def stageMember (s : State) (st : StandId) (g : Nat) (raw : List Byte) : State :=
  let (w, s) := declWord s st g
  let v := w.getD 0
  let ifmt := fld v 59 4
  let fmt := if ifmt = 15 then dFmt raw % 16 else ifmt
  let ncount := fld v 0 40
  let push := bitAt v 63
  let n := min ncount (dLen raw)
  let past := match fmtOf fmt with
    | some f => decide (2 ^ 26 < fld (dSrcRaw raw) 0 26 + (n + unitElems f - 1) / unitElems f * unitBytes f)
    | none => true
  let bad := w.isNone || (decide (10 < ifmt) && decide (ifmt ≠ 15)) || fld v 40 19 != 0 || (isMx fmt && ncount % 32 != 0 && !push)
  let cannot := bad || (!push && past)
  let s := if cannot then raise s cDeclaration st.val 0 0 else s
  let s := zeroAccs s st.val (aAbase raw) (2 * segLen raw)
  setMem s st.val g (some { push := push, ifmt := ifmt, ncount := ncount, cannot := cannot,
                            dropped := if push || cannot then 0 else ncount - dLen raw })

/-- Start a staged operation at a member (R263). -/
def startMember (s : State) (st : StandId) (g : Nat) : State := memberGo (modMem s st.val g (fun m => { m with started := true })) st g

/-- The trigger object of an ARM is not allocated (R254); one whose home is LOST is met later (R329). -/
def tobjBad (s : State) (raw : List Byte) : Bool :=
  dOp raw == opArm && !objLost s (aTobj raw) && !(syncObj s (aTobj raw)).alloc

/-- `SRC` breaks R253: 0 is for a die on which every member pushes, as its declarations now say, and for no other. -/
def allsumSrcBad (s : State) (raw : List Byte) (formBad : Bool) : Bool :=
  let l := groupStands (groupAt s (aGroup raw))
  let pushes (st : StandId) : Option Bool := (declWord s st (aGroup raw)).1.map (fun v => bitAt v 63)
  if dSrcRaw raw = 0 then l.any (fun st => pushes st == some false)
  else formBad || (!l.isEmpty && l.all (fun st => pushes st == some true))

/-- The checks of an ALLSUM or ARM before RUN is looked at, in the order of R154 (R254), where `noObj` says that its trigger object is
not allocated. -/
def allsumVerdict (s : State) (tag : BitVec 16) (raw : List Byte) (noObj : Bool) : Option Status :=
  let x := groupAt s (aGroup raw)
  let o := fmtOf (outFmt raw)
  let members := groupMembers s x.record (aGroup raw)
  let formBad (a : Word) : Bool := !(aLocal a && aSpace a == 0 && fld a 26 34 == 0)
  let dstEnd := fld (dDstRaw raw) 0 26 + (match o with | some f => fmtBytes f (dLen raw) | none => 0)
  let meetsCmb (st : StandId) : Bool := (List.range 8).any (fun j =>
    cbValid (cmbWord s st j 0) && rangesMeet (aAbase raw, 2 * segLen raw) (cmbRange (cmbWord s st j 0) (cmbWord s st j 2)))
  let noStaging (st : StandId) : Bool :=
    let c := coppice s (st.val * 32 + aSbank raw)
    let o := ownReg s (copPStand c) (copPBank c)
    ((declWord s st (aGroup raw)).1.map (fun v => bitAt v 63)).getD false && (copState c != 1 || ownKind o != 3 || ownTag o != x.tag)
  if x.tag != tag then some .owner
  else if decide (2 ^ 25 < dLen raw) || (isMx (outFmt raw) && dLen raw % 32 != 0) ||
      (aMean raw && x.valid && decide (2 ^ 24 < members)) then some .lenRange
  else if !x.valid || allsumSrcBad s raw (formBad (dSrcRaw raw)) || formBad (dDstRaw raw) || decide (2 ^ 26 < dstEnd) ||
      decide (16384 < aAbase raw + 2 * segLen raw) || noObj then some .addrRange
  else if x.armed || (groupStands x).any (fun st => meetsCmb st || noStaging st) then some .notReady
  else none

/-- The checks of an ALLSUM or ARM before RUN is looked at (R254). -/
def allsumCheck (s : State) (tag : BitVec 16) (raw : List Byte) : Option Status := allsumVerdict s tag raw (tobjBad s raw)

/-- An ARM is refused for its trigger object: with an allocated one it would have passed that check (R254). -/
def tobjOnly (s : State) (tag : BitVec 16) (raw : List Byte) : Bool :=
  tobjBad s raw && decide (allsumCheck s tag raw ≠ allsumVerdict s tag raw false)

/-- An ALLSUM is dispatched (R254, R263): refused, or it runs from now; a LENGTH of 0 completes. -/
def allsumStart (s : State) (id : Nat) (raw : List Byte) : State :=
  let g := aGroup raw
  let x := groupAt s g
  let s := traceStart (modDesc s id (fun d => { d with phase := .running, todo := 1 })) id
  let x := { x with opseq := x.opseq + 1 }
  if dLen raw = 0 then
    complete (modDesc (setGroup s g x) id (fun d => { d with todo := 0 })) id .okZeroLen 0 0 0 false
  else
    let s := setGroup s g { x with run := true }
    let s := setOp s g (some { desc := id, raw := raw, opseq := x.opseq, fired := true })
    if groupGirdled s g then dieAbandon s g
    else
      let s := (groupStands x).foldl (fun s st => stageMember s st g raw) s
      dieGo ((groupStands x).foldl (fun s st => modMem s st.val g (fun m => { m with started := true })) s) g

/-- The trigger of an armed operation reaches a member stand (R261, R263). With a member stand of the die girdled, itself or another, the die
abandons the operation (R279). During dormancy it waits for SERVICE (R343): the row stands for its arrival then. A stopped stand starts nothing (R484). -/
def triggerReceive (st : StandId) (g : Fin 64) (s : State) : State :=
  match opAt s g.val with
  | none => s
  | some o =>
    if !o.fired || dormHeld s || frozenAt s st.val || !(groupStands (groupAt s g.val)).contains st then s
    else
      if groupGirdled s g.val then dieAbandon s g.val
      else match memAt s st.val g.val with
      | some m => if m.started then s else startMember s st g.val
      | none => s

/-- An ARM is accepted (R254, R261): staged at every member, its trigger recorded, fired at once where its condition holds. -/
def armStart (s : State) (id : Nat) (raw : List Byte) : State :=
  let g := aGroup raw
  let x := groupAt s g
  let x := { x with opseq := x.opseq + 1 }
  let s := modDesc s id (fun d => { d with phase := .running, todo := 1, start := s.time })
  if dLen raw = 0 then
    complete (modDesc (setGroup (traceStart s id) g x) id (fun d => { d with todo := 0 })) id .okZeroLen 0 0 0 false
  else
    let s := setGroup s g { x with armed := true }
    let s := setOp s g (some { desc := id, raw := raw, opseq := x.opseq })
    let s := (groupStands x).foldl (fun s st => if girdled s st.val then s else stageMember s st g raw) s
    let s := sendRhz { s with sync := { s.sync with trigs := oset s.sync.trigs g (some (aTobj raw, aTarget raw)) } } (.triggerRecord (aTobj raw) g)
    if waitHolds (syncObj s (aTobj raw)) (aTarget raw) then fireTrigger s g else s

/-- Cancel an armed operation: its ARM completes with a status, its staged state is discarded (R262, R329). -/
def armCancel (s : State) (g : Nat) (r : Status) : State :=
  match opAt s g with
  | none => s
  | some o =>
    let x := groupAt s g
    let s := setGroup (setOp s g none) g { x with armed := false, run := false }
    let s := stands.foldl (fun s st => setMem s st.val g none) s
    let s := { s with sync := { s.sync with trigs := oset s.sync.trigs g none } }
    complete (modDesc s o.desc (fun d => { d with todo := 0 })) o.desc r 0 0 0 true

/-- A disarm at the trigger's home (R262): the status it completes with. -/
def disarm (s : State) (g : Nat) : Status × State :=
  let x := groupAt s g
  let armedRun := x.run && (match opAt s g with | some o => dOp o.raw == opArm | none => false)
  if x.armed then (.ok, armCancel s g .notReady) else if armedRun then (.notReady, s) else (.addrRange, s)

/-- The armed operations whose trigger home is LOST complete with POISON (R329). -/
def triggersLost (s : State) (st : Nat) : State :=
  (List.range 64).foldl (fun s g => match oget s.sync.trigs g with
    | some (n, _) => if objHome n = st then armCancel s g .poison else s
    | none => s) s

/-- The outcome of a GROUP after its record has been read (R248): refused, waiting for RUN, or written. `rec` none
dissolves. -/
def groupJudge (s : State) (g : Nat) (rec : Option (List Byte)) : Option Status :=
  let x := groupAt s g
  match rec with
  | none => if !x.valid then some .addrRange else if x.armed then some .notReady else none
  | some r =>
    if !groupRecordOk s r then some .addrRange
    else if x.valid && grEpoch x.record == grEpoch r then some .badDesc
    else if x.armed then some .notReady else none

/-- Carry out a GROUP once RUN is 0 (R248). -/
def groupWrite (s : State) (g : Nat) (tag : BitVec 16) (rec : Option (List Byte)) : State :=
  match rec with
  | none => setGroup s g { groupAt s g with valid := false }
  | some r => setGroup s g { valid := true, tag := tag, record := r }

/-- `GLB_GROUP[g]` (R247). -/
def groupReg (s : State) (g : Nat) : Word :=
  let x := groupAt s g
  mkBit 63 x.valid ||| mkBit 62 x.run ||| mkBit 61 x.armed ||| mk 32 16 x.tag.toNat ||| mk 16 16 x.opseq.toNat ||| mk 0 16 (grEpoch x.record)

/-- Fields of a tile address (R258). -/
def tiGroup (a : Word) : Nat := fld a 28 6
def tiOpid (a : Word) : Nat := fld a 26 2
def tiFinal (a : Word) : Bool := bitAt a 25
def tiElement (a : Word) : Nat := fld a 0 25

/-- Why the staging bank refuses a group's tiles (R301, R302): none for a REDUCE bank under the tag of the group. -/
def stagingRefuse (s : State) (st : StandId) (g : Nat) (raw : List Byte) : Option Status :=
  match stagingHome s st raw true with
  | .bank b k =>
    let o := ownReg s b k
    if bankNotReady s b k then some .notReady
    else if ownKind o == 3 && ownTag o == (groupAt s g).tag then none else some .owner
  | .refuse r => some r
  | _ => some .addrRange

/-- Write a staged tile raw to the staging bank (R259): 64 bytes, which hold what the spec does not give, and the data. Tiles lie one after
another from byte 0 (log 104). -/
def stagingWrite (s : State) (st : StandId) (raw : List Byte) (pos : Nat) (data : List Byte) : State :=
  match stagingHome s st raw true with
  | .bank b k =>
    let s := (bankTouch s b k true).2
    let (h, s) := drawBytes s 64
    let (_, s) := writeBank s (standOf b) k pos (h ++ data)
    twinWrite (lvl s b 1 (64 + data.length)) b k pos (h ++ data)
  | _ => s

/-- The parts of a tile whose banks are not open: they are staged (R259). -/
def stagedParts (raw : List Byte) (y : MemSt) (f : Fmt) (m : Msg) : List (Nat × List Byte) :=
  (tileParts raw f (tiElement m.dest) m.data 4096).filter (fun p => !segOpen raw y (p.1 / segLen raw))

/-- What a member's stand makes of a tile, by the table of R259. The room of the staging bank is used up for the operation (log 104). -/
def tileJudge (s : State) (st : StandId) (m : Msg) : CmbOut :=
  let g := tiGroup m.dest
  let x := groupAt s g
  let opid := tiOpid m.dest
  match memAt s st.val g, opAt s g with
  | some y, some o =>
    if !x.valid || !(grMap x.record 0).testBit st.val || !y.push then .refuse .addrRange
    else if fld m.dest 34 26 ≠ m.src.toNat then .refuse .addrRange
    else if m.tenant ≠ x.tag then .refuse .owner
    else if opid ≠ o.opseq.toNat % 4 then .refuse .addrRange
    else if m.data.isEmpty && !tiFinal m.dest then .refuse .lenRange
    else match (fmtOf (memFmt o.raw y)).bind (fun f => (decodeData f m.data).map (fun _ => f)) with
    | none => .refuse .lenRange
    | some f =>
      if f.mx && decide (tiElement m.dest % 32 ≠ 0) then .refuse .lenRange
      else if y.final then .refuse .capacity
      else
        let l := if y.cannot then [] else stagedParts o.raw y f m
        if l.isEmpty then .take
        else if decide (2 ^ 21 < y.used + (l.map (fun p => p.2.length)).sum + 64) then .busy
        else match stagingRefuse s st g o.raw with
        | some r => .refuse r
        | none => .take
  | _, _ =>
    if !x.valid || !(grMap x.record 0).testBit st.val then .refuse .addrRange
    else if fld m.dest 34 26 ≠ m.src.toNat then .refuse .addrRange
    else if m.tenant ≠ x.tag then .refuse .owner
    else if opid = (x.opseq.toNat + 1) % 4 then .busy else .refuse .addrRange

/-- An accepted tile: added to open banks, staged for later ones, elements past C dropped; FINAL ends the contribution (R259, R260). The
tile of a member that cannot contribute adds nothing (R256; log 103). -/
def tileTake (s : State) (st : StandId) (m : Msg) : State :=
  let g := tiGroup m.dest
  match opAt s g, memAt s st.val g with
  | some o, some y =>
    let fin (s : State) : State :=
      let s := modMem s st.val g (fun y => { y with final := y.final || tiFinal m.dest })
      if tiFinal m.dest then memberGo s st g else s
    (match (if y.cannot then none else fmtOf (memFmt o.raw y)) with
    | none => fin s
    | some f =>
      let n := m.data.length / unitBytes f * unitElems f
      let extra := n - (dLen o.raw - tiElement m.dest)
      let l := stagedParts o.raw y f m
      let b := (l.map Prod.snd).flatten
      let s := if l.isEmpty then s else stagingWrite s st o.raw y.used b
      let at_ := l.foldl (fun (p : List Tile × Nat) t => (p.1 ++ [⟨t.1, p.2, t.2.length⟩], p.2 + t.2.length)) ([], y.used + 64)
      let s := modMem s st.val g (fun y => { y with dropped := y.dropped + extra, tiles := y.tiles ++ at_.1,
                                                    used := if l.isEmpty then y.used else y.used + b.length + 64 })
      let s := modDesc s o.desc (fun d => { d with rd := d.rd + m.data.length })
      fin ((tileParts o.raw f (tiElement m.dest) m.data 4096).foldl (fun s p =>
        let seg := p.1 / segLen o.raw
        if segOpen o.raw y seg then
          (match decodeData f p.2 with | some cs => addElems s st g seg p.1 (cs.take (dLen o.raw - p.1)) | none => s)
        else s) s))
  | _, _ => s

/-- A stage message agrees with the operation of this die (R255, R264, R278). -/
def stageAgrees (s : State) (g : Nat) (o : OpSt) (h : StageHdr) (up : Bool) (body : List Byte) : Bool :=
  let r := (groupAt s g).record
  let lo := shareLo r o.raw h.seg h.share
  let hi := shareHi r o.raw h.seg h.share
  h.ordered == aOrdered o.raw && decide (1 ≤ h.stage) && decide (h.stage ≤ 5) &&
  (if h.phase = 2 then decide (body.length = 8)
   else decide (h.seg < segCount o.raw) && decide (h.share < shareCount r) && decide (lo ≤ h.first) && decide (h.first + h.count ≤ hi) &&
     (h.last == decide (h.first + h.count = hi)) &&
     (if up then decide (body.length = if h.ordered then 4 * h.count else 8 * h.count + 48 * h.escn)
      else decide (h.ofmt = outFmt o.raw) && decide (body.length = resultSize (outFmt o.raw) h.count)))

/-- The sender's rank at a stage of an UP or SUMMARY message, from its SRC. -/
def senderRank (s : State) (g : Nat) (h : StageHdr) (m : Msg) : Option Nat :=
  let r := (groupAt s g).record
  let up := fld m.src 6 20
  if h.stage = 1 then (if up = selfUpper s then rankOf s r g 1 (fld m.src 0 6) else none)
  else rankOf s r g h.stage (match h.stage with | 2 => up % 4 | 3 => up / 4 % 8 | 4 => up / 32 % 32 | _ => up / 1024)

/-- What a stand makes of a stage message: refused, NACK BUSY, or taken (R255, R269, R278). -/
def stageJudge (s : State) (st : StandId) (m : Msg) : CmbOut :=
  let h := hdrOf m.data
  let g := tiGroup m.dest
  let x := groupAt s g
  let up := m.vc == vcReduceUp
  if h.group ≠ g || decide (h.phase = 3) || (up && decide (h.phase = 1)) || (!up && decide (h.phase = 0)) then .refuse .addrRange
  else match opAt s g, memAt s st.val g with
  | some o, some y =>
    let r := x.record
    if h.opseq ≠ o.opseq.toNat ∨ h.gepoch ≠ grEpoch r ∨ m.data.length < 24 then .refuse .addrRange
    else if !stageAgrees s g o h up (m.data.drop 24) then .refuse .addrRange
    else if h.phase = 2 then
      (if !up then (if holderOf r 0 = st.val then .take else .refuse .addrRange)
       else match senderRank s g h m with
       | none => .refuse .addrRange
       | some k => if !isNode s r g st.val 0 h.stage || (cget {} y.sum.stages h.stage).done || rankLost s g st.val (segCount o.raw) 0 h.stage k then .refuse .addrRange else .take)
    else if !segOpen o.raw y h.seg then
      (if (if h.seg % 2 = 0 then y.open0 else y.open1) < h.seg then .busy else .refuse .addrRange)
    else if up then
      match senderRank s g h m with
      | none => .refuse .addrRange
      | some k =>
        if !isNode s r g st.val h.share h.stage || (shAt (segAt y h.seg) h.share h.stage).done || rankLost s g st.val h.seg h.share h.stage k ||
            decide (k ∈ (shAt (segAt y h.seg) h.share h.stage).last) then .refuse .addrRange
        else .take
    else if h.share ∈ (segAt y h.seg).landed then .refuse .addrRange else .take
  | _, _ => if x.valid && decide (h.opseq = (x.opseq.toNat + 1) % 2 ^ 16) && decide (h.gepoch = grEpoch x.record) then .busy else .refuse .addrRange

/-- Units are lost to a node, which looks at the share again (R278); segment S stands for the summary. -/
def unitLost (s : State) (st : StandId) (g seg q stage : Nat) (ranks : List Nat) : State :=
  let s := markLost s st g seg q stage ranks
  match opAt s g with
  | some o => if seg = segCount o.raw then sumCheck s st g stage 6 else memberGo (nodeCheck s st g seg q stage 6) st g
  | none => s

/-- A unit whose message is refused under R255 is lost to its node (R278): one that disagrees with the node's operation on `OPSEQ`,
`GEPOCH`, the mode or the layout. -/
def stageRefused (s : State) (st : StandId) (m : Msg) : State :=
  let h := hdrOf m.data
  let g := tiGroup m.dest
  match opAt s g, memAt s st.val g with
  | some o, some y =>
    let r := (groupAt s g).record
    let differs := decide (h.opseq ≠ o.opseq.toNat) || decide (h.gepoch ≠ grEpoch r) || !stageAgrees s g o h true (m.data.drop 24)
    if m.vc = vcReduceUp ∧ 24 ≤ m.data.length ∧ 1 ≤ h.stage ∧ h.stage ≤ 5 ∧ differs then
      match senderRank s g h m with
      | none => s
      | some k =>
        let q := if h.phase = 2 then 0 else h.share
        let x := if h.phase = 2 then cget {} y.sum.stages h.stage else shAt (segAt y h.seg) q h.stage
        if isNode s r g st.val q h.stage && !x.done then
          unitLost s st g (if h.phase = 2 then segCount o.raw else h.seg) q h.stage [k]
        else s
    else s
  | _, _ => s

/-- The escape records of an UP message. -/
def escRecords (b : List Byte) : Nat → List (List Byte)
  | 0 => []
  | n + 1 => b.take 48 :: escRecords (b.drop 48) n

/-- Add the partials of an UP message (R239, R240). -/
def addUp (s : State) (st : StandId) (i : Nat) (ord : Bool) (escs : List (List Byte)) (b : List Byte) : Nat → State
  | 0 => s
  | n + 1 =>
    if ord then addUp (accAdd s st i (orderedContrib (leAt b 0 4))).2 st (i + 1) ord escs (b.drop 4) n
    else addUp (accMerge s st i (carrierPartial (BitVec.ofNat 64 (leAt b 0 8)) escs)).2 st (i + 1) ord escs (b.drop 8) n

/-- An accepted stage message: added and, when complete, sent on; landed and passed down; or the summary's (R266 to R271). What a replay
passes over is not added (R282). DEDUCED: a unit whose `LAST` comes after fewer elements than the share has is lost, since an earlier message of
it has ended in `TIMEOUT` (R278; log 121). -/
def stageTake (s : State) (st : StandId) (m : Msg) : State :=
  let h := hdrOf m.data
  let g := tiGroup m.dest
  let body := m.data.drop 24
  match opAt s g with
  | none => s
  | some o =>
    if h.phase = 2 then
      if m.vc = vcReduceUp then
        let k := (senderRank s g h m).getD 0
        let s := modMem s st.val g (fun y =>
          let x := cget {} y.sum.stages h.stage
          let x := { x with last := k :: x.last, mcount := x.mcount + h.mcount, lost := x.lost || h.lost,
                            poison := x.poison || h.poison, reserr := x.reserr || h.reserr, since := some (x.since.getD s.time) }
          { y with sum := { y.sum with dropped := min (2 ^ 64 - 1) (y.sum.dropped + leAt body 0 8),
                                       stages := cset {} y.sum.stages h.stage x } })
        sumCheck s st g h.stage 6
      else
        let s := sumDown s st g (h.stage - 1) h body
        opCheck (modOp s g (fun o => { o with totals := some (leAt body 0 8, h.mcount), lost := o.lost || h.lost,
                                              poison := o.poison || h.poison, reserr := o.reserr || h.reserr })) g
    else if h.phase = 0 then
      let k := (senderRank s g h m).getD 0
      let put (s : State) (f : ShSt → ShSt) : State :=
        modMem s st.val g (fun y => modSeg y h.seg (fun x => setSh x h.share h.stage (f (shAt x h.share h.stage))))
      let z := match memAt s st.val g with | some y => shAt (segAt y h.seg) h.share h.stage | none => {}
      if k ∈ z.skip then
        (if h.last then askInput (put s (fun z => { z with skip := z.skip.filter (· ≠ k) })) st g h.seg h.share h.stage k else s)
      else
        let all := cget 0 z.got k + h.count
        let s := addUp s st (segAcc o.raw h.seg + h.first) h.ordered (escRecords (body.drop (8 * h.count)) h.escn) body h.count
        let s := put s (fun z => { z with
          got := cset 0 z.got k all, last := if h.last then k :: z.last else z.last, mcount := if h.last then z.mcount + h.mcount else z.mcount,
          lost := z.lost || h.lost, poison := z.poison || h.poison, reserr := z.reserr || h.reserr, since := some (z.since.getD s.time) })
        let r := (groupAt s g).record
        if h.last && decide (all ≠ shareHi r o.raw h.seg h.share - shareLo r o.raw h.seg h.share) then unitLost s st g h.seg h.share h.stage [k]
        else memberGo (nodeCheck s st g h.seg h.share h.stage 6) st g
    else
      let s := if h.stage = 1 then s else sendDown s st g h.share (h.stage - 1) h body
      let s := landShare s st g h.seg h.share h.first h body
      segCheck s st g h.seg (segCount o.raw + 2)

/-- The loss wait of a node ends (R278): the units whose LAST has not come are lost, its own where its own sum is not ready, and the share
completes without them. What has been added of a lost unit's data stays in the sum (log 105). Segment S stands for the summary. -/
def lossWaitExpiry (st : StandId) (g : Fin 64) (seg q : Nat) (stage : Fin 6) (s : State) : State :=
  match opAt s g.val, memAt s st.val g.val with
  | some o, some y =>
    let r := (groupAt s g.val).record
    let sum := decide (seg = segCount o.raw)
    let h := if sum then cget {} y.sum.stages stage.val else shAt (segAt y seg) q stage.val
    if (!sum && !segOpen o.raw y seg) || h.done || frozenAt s st.val || !isNode s r g.val st.val (if sum then 0 else q) stage.val then s
    else match h.since with
    | none => s
    | some t =>
      let s := advanceTo s (t + stageWait s stage.val)
      let below := if stage.val = 1 then (if sum then y.sum.sent else (segAt y seg).own)
        else if sum then (cget {} y.sum.stages (stage.val - 1)).done else (shAt (segAt y seg) q (stage.val - 1)).done
      let gone := (expected s r g.val st.val stage.val).filter (fun k => !decide (k ∈ h.last)) ++
        (if below then [] else [ownRank s r g.val st.val stage.val])
      unitLost s st g.val seg (if sum then 0 else q) stage.val gone
  | _, _ => s

/-- A member abandons the results of a segment that have not landed, or the share-0 holder the summary (R280). The landing
bytes of such a share hold undefined values: free bytes (log 4). -/
def resultAbandon (st : StandId) (g : Fin 64) (seg : Nat) (s : State) : State :=
  match opAt s g.val, memAt s st.val g.val with
  | some o, some y =>
    let r := (groupAt s g.val).record
    let w := abandonWait s g.val
    if frozenAt s st.val then s
    else if seg = segCount o.raw then
      if y.sum.sent && decide (holderOf r 0 = st.val) && o.totals.isNone then
        opCheck (modOp (advanceTo s (y.sum.sentAt + w)) g.val (fun o => { o with sumGone := true, lost := true })) g.val
      else s
    else if !segOpen o.raw y seg || !(segAt y seg).own then s
    else
      let miss := (List.range (shareCount r)).filter (fun q => !shareEmpty r o.raw seg q && !decide (q ∈ (segAt y seg).landed))
      if miss.isEmpty then s
      else
        let s := advanceTo s ((segAt y seg).sentAt + w)
        let s := modMem (modOp s g.val (fun o => { o with lost := true })) st.val g.val (fun y => { y with missed := true })
        let s := miss.foldl (fun s q =>
          let lo := shareLo r o.raw seg q
          let n := resultSize (outFmt o.raw) (shareHi r o.raw seg q - lo)
          let off := resultSize (outFmt o.raw) (seg * segLen o.raw + lo)
          let (b, s) := drawBytes s n
          shareLanded (landWrite s st g.val off b).2 st g.val seg q) s
        segCheck s st g.val seg (segCount o.raw + 2)
  | _, _ => s

/-- A stage message that ends in `TIMEOUT` loses its sender to its node, where that is on this die (R278). A node on another die meets it by
the elements that are missing at `LAST`, or by its wait (log 121). -/
def stageTimedOut (s : State) (g : Nat) (o : OpSt) (m : Msg) : State :=
  let h := hdrOf m.data
  let st := standOf (fld m.dest 34 6)
  if m.vc = vcReduceUp ∧ aUpper m.dest = selfUpper s then
    match senderRank s g h m, memAt s st.val g with
    | some k, some y =>
      let q := if h.phase = 2 then 0 else h.share
      let x := if h.phase = 2 then cget {} y.sum.stages h.stage else shAt (segAt y h.seg) q h.stage
      if isNode s (groupAt s g).record g st.val q h.stage && !x.done then unitLost s st g (if h.phase = 2 then segCount o.raw else h.seg) q h.stage [k]
      else s
    | _, _ => s
  else s

/-- What an outcome does to a stage message (R278): a refused or timed-out one makes its sender's die lose the operation. -/
def stageDone (s : State) (g : Fin 64) (x : Done) : State :=
  match opAt s g.val with
  | none => s
  | some o =>
    if leAt x.m.data 2 2 ≠ o.opseq.toNat then s
    else match x.stage with
    | .sent => modDesc s o.desc (fun d => addWork d 0 0 (frondsOf x.m.data.length) (BitVec.ofNat 4 (2 ^ x.m.plane.val)))
    | .acked => s
    | _ =>
      if x.status = .ok then s
      else
        let s := modOp s g.val (fun o => { o with lost := true })
        if x.status = .timeout ∧ !x.answered then stageTimedOut s g.val o x.m else s

/-- The share at a stand that an accumulator belongs to, by group and segment (R282, R429). -/
def shareOfAcc (s : State) (st : StandId) (i : Nat) : Option (Nat × Nat × Nat) :=
  (List.range 64).findSome? (fun g =>
    match opAt s g, memAt s st.val g with
    | some o, some m =>
      [m.open0, m.open1].findSome? (fun seg =>
        if segOpen o.raw m seg && decide (segAcc o.raw seg ≤ i) && decide (i < segAcc o.raw seg + segElems o.raw seg) then
          let e := i - segAcc o.raw seg
          let r := (groupAt s g).record
          ((List.range (shareCount r)).find? (fun q => decide (shareLo r o.raw seg q ≤ e) && decide (e < shareHi r o.raw seg q))).map
            (fun q => (g, seg, q))
        else none)
    | _, _ => none)

end Sys2Proof.Machine
end

