-- ==== Sys2Proof/Machine/Channels.lean ====
section
/-! DEFINITION. Channels: slots, landing, spill and release words (R179 to R186). -/

namespace Sys2Proof.Machine

/-- A word of a channel slot (R179). -/
def chanWord (s : State) (st j word : Nat) : Word := regGet s (stdOff (standOf st) (0x1000 + j * 32 + word * 8))

def chValid (w : Word) : Bool := bitAt w 63
def chLand (w : Word) : Bool := bitAt w 62
def chSunit (w : Word) : Nat := fld w 60 2
def chPlane (w : Word) : Nat := fld w 58 2
def chSkiden (w : Word) : Bool := bitAt w 57
def chTag (w : Word) : BitVec 16 := BitVec.ofNat 16 (fld w 32 16)
def chNo (w : Word) : Nat := fld w 0 12
def chWsize (x : Word) : Nat := fld x 0 27
def chSource (x : Word) : Nat := fld x 37 27
def chAen (x : Word) : Bool := bitAt x 36
def chAobj (x : Word) : Nat := fld x 24 12
def chCap (x : Word) : Nat := fld x 11 13
def chSpls (x : Word) : Nat := fld x 58 6
def chSplb (x : Word) : Nat := fld x 53 5
def chSsize (x : Word) : Nat := fld x 21 16

/-- The bits of word 2 or 3 of a slot that its role uses (R179); the others read 0. -/
def chanRole (w0 : Word) (word : Nat) : Word :=
  if word = 2 then (if chLand w0 then mask 11 53 else mask 0 27) else if word = 3 then (if chLand w0 then mask 21 43 else 0) else allBits

/-- Key of a slot's counters. -/
def chanKey (st j : Nat) : Nat := st * 128 + j

/-- A land slot's counters and spilled messages (R183, R184). -/
def chanCnt (s : State) (st j : Nat) : ChanCnt := cget {} s.chan (chanKey st j)

/-- Set a slot's counters. -/
def setChan (s : State) (st j : Nat) (c : ChanCnt) : State := { s with chan := cset {} s.chan (chanKey st j) c }

/-- Units of 64 bytes that a spilled message takes (R183). -/
def spillNeed (m : Msg) : Nat := 1 + (m.data.length + 63) / 64

/-- Units free in a slot's spill area (R183). -/
def spillFree (s : State) (st j : Nat) : Nat :=
  chSsize (chanWord s st j 3) - ((chanCnt s st j).spill.map spillNeed).sum

/-- The physical bank of a slot's spill area (R179), through the hub's copy of the map. -/
def spillBank (s : State) (st j : Nat) : Nat × Nat :=
  let x := chanWord s st j 3
  let c := hubCoppice s st (chSpls x * 32 + chSplb x)
  (copPStand c, copPBank c)

/-- The spill bank is ready and owned as SPILL under the slot's tag (R183, R301). -/
def spillOwned (s : State) (st j : Nat) : Bool :=
  let b := spillBank s st j
  let o := ownReg s b.1 b.2
  !bankNotReady s b.1 b.2 && !girdled s b.1 && ownKind o == 2 && ownTag o == chTag (chanWord s st j 0)

/-- The home of a message's DEST at a stand. -/
def writeHome (st : StandId) (s : State) (a : Word) : Home := hubResolve st.val true s a

/-- `apply` of R183: the landing write under the slot's tag, the capacity count and the arrival signal; the outcome of
the write. A token writes nothing. -/
def landApply (s : State) (st : StandId) (j : Nat) (m : Msg) (inn : Bool) : Served × State :=
  let x := chanWord s st.val j 2
  let (r, s) := if m.data.isEmpty then (Served.ok [], s) else memWrite s m.tenant inn (writeHome st) m.dest m.data
  match r with
  | .busy => (.busy, s)
  | r =>
    let c := chanCnt s st.val j
    let s := if m.data.isEmpty then s else setChan s st.val j { c with occ := c.occ + 1 }
    (r, if chAen x then sendRhz s (.signal (chAobj x) 1) else s)

/-- The response or notice that a landing gives its source (R183, R187). -/
def landAnswer (s : State) (st : StandId) (m : Msg) (r : Served) : State :=
  match r with
  | .fail e _ => answer s st m e []
  | _ => if m.delivered then answer s st m .ok [] else s

/-- The land slot that a WRITE with IMPL 0 matches (R182). -/
def landSlot (s : State) (st : StandId) (m : Msg) : Option Nat :=
  (List.range 128).find? (fun j =>
    let w := chanWord s st.val j 0
    chValid w && chLand w && chNo w == m.chan.toNat && chPlane w == m.plane.val &&
    chSource (chanWord s st.val j 2) == m.src.toNat * 2 + (if m.unit = unitMover then 1 else 0))

/-- A descriptor of this die whose SEND was spilled: the `SPILLED` bit of its TALLY record (R470, R471). -/
def noteSpill (s : State) (m : Msg) : State :=
  if fld m.src 6 20 ≠ selfUpper s then s
  else
    let st := standOf (fld m.src 0 6)
    let u : SrcUnit := if m.unit = unitMover then .mover st else .port st
    match (flowAt s (flowKey u m.impl m.chan.toNat)).win.find? (fun c => c.m.seq == m.seq) with
    | some c =>
      match c.owner with
      | .desc id _ =>
        { s with host := { s.host with descs := tmod (fun _ => none) s.host.descs id (fun d => d.map (fun d => { d with pl := setBit d.pl 4 true })) } }
      | _ => s
    | none => s

/-- `land` of R183 on a message accepted in order: applied, spilled (none), or NACK BUSY with a CAPACITY event. A spilled message travels on
VC 5 to the spill bank's stand, and back when it is drained; the counters change with the step (R83; log 39). -/
def land (s : State) (st : StandId) (j : Nat) (m : Msg) : Option Served × State :=
  let c := chanCnt s st.val j
  if c.spill.isEmpty && (m.data.isEmpty || decide (c.occ < chCap (chanWord s st.val j 2))) then
    let (r, s) := landApply s st j m false
    (some r, s)
  else if !spillOwned s st.val j || decide (spillFree s st.val j < spillNeed m) then
    (some .busy, raise s cSpillFull st.val 0 0)
  else
    let b := spillBank s st.val j
    let s := (bankTouch s b.1 b.2 true).2
    let s := setChan s st.val j { c with spill := c.spill ++ [m] }
    let s := sendInner s (.hub st) m.plane opWrite vcSpill b.1 m.data
    let s := lvl (noteSpill s m) st.val 6 (spillNeed m * 64)
    (none, if c.spill.isEmpty then raise s cSpill st.val 0 0 else s)

/-- `drain` of R183, after every release; `n` bounds the messages. -/
def drain (s : State) (st : StandId) (j : Nat) : Nat → State
  | 0 => s
  | n + 1 =>
    let c := chanCnt s st.val j
    match c.spill with
    | [] => s
    | m :: r =>
      if m.data.isEmpty || decide (c.occ < chCap (chanWord s st.val j 2)) then
        let (b, k) := spillBank s st.val j
        let s := (bankTouch s b k true).2
        let s := setChan s st.val j { c with spill := r }
        let s := sendInner s (.hub (standOf b)) m.plane opReadRsp vcSpill st.val m.data
        let (x, s) := landApply s st j m true
        drain (landAnswer s st m x) st j n
      else s

/-- The release word of a land slot (R184). -/
def releaseWord (c : ChanCnt) : Nat := c.spill.length % 2 ^ 16 * 2 ^ 48 + c.occ % 2 ^ 16 * 2 ^ 32 + c.released.toNat

/-- An access to a release word, its refusals in the order of R184. -/
def releaseAccess (s : State) (st : StandId) (j : Nat) (tenant : BitVec 16) (acc : RelAccess) : Served × State :=
  let w := chanWord s st.val j 0
  if !(chValid w && chLand w) then (.fail .addrRange [], s)
  else if tenant ≠ chTag w then (.fail .owner [], s)
  else
    let c := chanCnt s st.val j
    match acc with
    | .other => (.fail .addrRange [], s)
    | .read => (.ok (leBytes 8 (releaseWord c)), s)
    | .add v =>
      let k := min v.toNat c.occ
      let s := setChan s st.val j { c with released := c.released + BitVec.ofNat 32 k, occ := c.occ - k }
      let s := if c.occ < v.toNat then raise s cReleaseOver st.val 0 0 else s
      (.ok (leBytes 8 (releaseWord c)), drain s st j (c.spill.length + 1))

def execReleaseWordAccess (st : StandId) (j : Fin 128) (tenant : BitVec 16) (acc : RelAccess) (s : State) : Step :=
  run s fun s => if girdled s st.val || !inService s st.val then s else (releaseAccess s st j.val tenant acc).2

/-- The bits of a slot's word that a write may set (R179): those of the role that the slot `w0` has, VALID or not. -/
def chanRw (w0 : Word) (word : Nat) : Word :=
  match word with
  | 0 => mask 49 15 ||| mask 32 16 ||| mask 0 12
  | 1 => allBits
  | n => chanRole w0 n

/-- A word of a slot holds a value outside the ranges of R179. -/
def chanReserved (word : Nat) (w0 w : Word) : Bool :=
  match word with
  | 0 => if chLand w0 then chSunit w0 != 0 else decide (2 ≤ chSunit w0)
  | 1 => aLocal w || aSpace w != 0
  | 2 => if chLand w0 then chCap w == 0 || decide (4096 < chCap w) || decide (48 ≤ fld w 38 6)
         else chWsize w == 0 || decide (2 ^ 26 < chWsize w)
  | _ => chLand w0 && (decide (48 ≤ chSpls w) || decide (32767 < fld w 37 16) || decide (32768 < chSsize w) ||
         decide (32768 < fld w 37 16 + chSsize w))

/-- A write sets a value that R180 refuses: in the word itself, by the role that the slot then has; and a slot is not VALID with such a value
in words 2 and 3 (log 40). -/
def chanBad (word : Nat) (w0 new x y : Word) : Bool :=
  chanReserved word w0 new || (chValid w0 && (chanReserved 2 w0 x || chanReserved 3 w0 y))

/-- Another slot of the die or of the stand clashes with slot (st, j) as it would be (R180). Two land slots clash only where both are VALID:
R180 says valid of send slots alone (log 117). -/
def chanClash (s : State) (st : StandId) (j : Nat) (w0 x : Word) : Bool :=
  chValid w0 &&
  (if chLand w0 then
    (List.range 128).any (fun i =>
      let v := chanWord s st.val i 0
      decide (i ≠ j) && chValid v && chLand v && chNo v == chNo w0 && chSource (chanWord s st.val i 2) == chSource x)
  else stands.any (fun t => (List.range 128).any (fun i =>
      let v := chanWord s t.val i 0
      decide (t ≠ st ∨ i ≠ j) && chValid v && !chLand v && chNo v == chNo w0)))

/-- The host agent's directory takes a send-slot write (R180). -/
def dirUpdate (s : State) (st : StandId) (old new : Word) : State :=
  let drop (s : State) : State :=
    if chValid old && !chLand old && oget s.host.dir (chNo old) == some st then
      sendRhz { s with host := { s.host with dir := oset s.host.dir (chNo old) none } } (.sendSlot (chNo old) none)
    else s
  let s := drop s
  if chValid new && !chLand new then
    sendRhz { s with host := { s.host with dir := oset s.host.dir (chNo new) (some st) } } (.sendSlot (chNo new) (some st))
  else s

/-- A write of a channel slot (R180). -/
def chanWrite (st : StandId) (j word : Nat) (wm v : Word) (s : State) : State :=
  let off := stdOff st (0x1000 + j * 32 + word * 8)
  let old := regGet s off
  let old0 := chanWord s st.val j 0
  let new := merge (chanRw old0 word &&& wm) old v
  let w0 := if word = 0 then new else old0
  let x := if word = 2 then new else chanWord s st.val j 2
  let y := if word = 3 then new else chanWord s st.val j 3
  let c := chanCnt s st.val j
  let busy := chLand old0 && (decide (c.occ ≠ 0) || !c.spill.isEmpty) && decide (new ≠ old)
  if chanBad word w0 new x y || chanClash s st j w0 x || busy then refuseWrite s off
  else
    let s := regSet s off new
    let s := if word = 0 && !chValid old0 && chValid w0 then setChan s st.val j {} else s
    if word = 0 then dirUpdate s st old new else s

def execChannelSlotWrite (st : StandId) (j : Fin 128) (word : Fin 4) (v : Word) (s : State) : Step :=
  mgStep s (stdOff st (0x1000 + j.val * 32 + word.val * 8)) v (chanWrite st j.val word.val)

/-- A SPILL bank holds a spilled message of some land slot (R304). -/
def bankSpills (s : State) (st bank : Nat) : Bool :=
  s.chan.any (fun (k, c) => !c.spill.isEmpty && spillBank s (k / 128) (k % 128) == (st, bank))

end Sys2Proof.Machine
end

