-- ==== Sys2Proof/Machine/Descriptors.lean ====
section
/-! DEFINITION. Descriptors from their queue to their dispatch: the checks of R154, the shapers and meters, work items and
their executors, the single messages, FENCE, MARK, WAIT and GROUP (chapters 04, 05, 08, 10, 16). -/

namespace Sys2Proof.Machine

/-- New work waits for SERVICE while the die is dormant, or while a dump holds the fabric (R343, R484). -/
def workHeld (s : State) : Bool :=
  decide (s.dorm.phase = .entering) || decide (s.dorm.phase = .dormant) || decide (s.dorm.phase = .exiting) || decide (s.obs.dump ≠ .idle)

/-- The status that meets every descriptor and request of a port, whatever it asks (R375, R433). -/
def portShut (s : State) : Option Status :=
  if fatalLatched s then some .fabricDown else if !afterS4 s then some .notReady else none

/-- The descriptor of a queue that is next: the first that neither runs nor is complete (R161). -/
def nextDesc (s : State) (a : Acceptor) : Option (Nat × DescSt) :=
  (queueOf s a).findSome? (fun i => match descAt s i with
    | some d => if d.phase = .running ∨ d.phase = .complete then none else some (i, d)
    | none => none)

/-- The next descriptor, where it is ready and has the opcode. -/
def readyDesc (s : State) (a : Acceptor) (op : Nat) : Option (Nat × DescSt) :=
  match nextDesc s a with
  | some (i, d) => if d.phase = .ready ∧ dOp d.raw = op ∧ !workHeld s then some (i, d) else none
  | none => none

/-- Resolved address fields. -/
def dSrc (s : State) (raw : List Byte) : Word := resolveLocal s (dSrcRaw raw)
def dDst (s : State) (raw : List Byte) : Word := resolveLocal s (dDstRaw raw)

/-- An address field breaks R49, R69 or R70 for a range of `n` bytes. -/
def addrBad (s : State) (raw : Word) (n : Nat) : Bool := selfUnset s raw || !rangeOk s (resolveLocal s raw) n

/-- The send slot of a channel: its stand and slot (R180). -/
def sendSlotOf (s : State) (ch : Nat) : Option (StandId × Nat) :=
  match oget s.host.dir ch with
  | none => none
  | some st => ((List.range 128).find? (fun j =>
      let w := chanWord s st.val j 0
      chValid w && !chLand w && chNo w == ch)).map (fun j => (st, j))

/-- The acceptor is the source unit of a send slot (R181). -/
def slotIsFor (s : State) (a : Acceptor) (p : StandId × Nat) : Bool :=
  let u := chSunit (chanWord s p.1.val p.2 0)
  match a with | .ring _ => u == 1 | .port k => u == 0 && decide (p.1 = k)

/-- A SEND's landing range lies in the channel window, ALIAS apart (R160, R181). -/
def inWindow (s : State) (p : StandId × Nat) (dst : Word) (n : Nat) : Bool :=
  let base := chanWord s p.1.val p.2 1
  let size := chWsize (chanWord s p.1.val p.2 2)
  let a := put 32 2 0 dst
  aSpace a == 0 && !aDp a && aAlias dst != 3 && decide (walkPos base ≤ walkPos a) && decide (walkPos a + n ≤ walkPos base + size)

/-- `DST` of an MCAST has the form of R194. -/
def landFormOk (a : Word) : Bool := aLocal a && aSpace a == 0 && fld a 26 34 == 0

/-- A range lies on this die (R194). -/
def rangeHere (s : State) (a : Word) (n : Nat) : Bool := namesThisDie s a && namesThisDie s (addrPlus a (n - 1))

/-- Step 5 of R154 for an opcode: the address checks. -/
def addrCheck (s : State) (a : Acceptor) (raw : List Byte) : Bool :=
  let op := dOp raw
  let n := dLen raw
  let src := dSrc s raw
  let dst := dDst s raw
  if op = opCopy then copySpace src && copySpace dst && !addrBad s (dSrcRaw raw) n && !addrBad s (dDstRaw raw) n
  else if op = opFill then copySpace dst && !addrBad s (dDstRaw raw) n
  else if op = opSend then
    (match sendSlotOf s (dHandle raw) with
    | none => false
    | some p => n == 0 || (readSpace src && !addrBad s (dSrcRaw raw) n && !addrBad s (dDstRaw raw) n && inWindow s p dst n))
  else if op = opMcastD then
    copySpace src && landFormOk (dDstRaw raw) && decide (fld dst 0 26 + n ≤ 2 ^ 26) && !addrBad s (dSrcRaw raw) n &&
    (n == 0 || rangeHere s src n) && ccValid (chainReg s (dHandle raw % 64))
  else if op = opSignalD then !addrBad s (dDstRaw raw) 4 && classOk dst opSignal
  else if op = opWait then !addrBad s (dSrcRaw raw) 4 && aSpace src == 2 && aSyncWord src == 0
  else if op = opAtomicD then !addrBad s (dDstRaw raw) n && classOk dst opAtomic && decide (dst.toNat % n = 0)
  else if op = opGroup then (aSpace src == 0 || aSpace src == 4) && (n == 0 || !addrBad s (dSrcRaw raw) n)
  else (match a with | _ => true)

/-- The checks of steps 1 to 5 of R154: the status of the first that fails. -/
def descCheck (s : State) (d : DescSt) : Option Status :=
  let raw := d.raw
  let op := dOp raw
  let n := dLen raw
  let isPort := match d.acc with | .port _ => true | .ring _ => false
  let slot := sendSlotOf s (dHandle raw)
  let group := groupAt s (aGroup raw)
  if !descCrcOk raw || !descFormOk raw then some .badDesc
  else if isPort && !coreMay op then some .badDesc
  else if (tenantOf s d.tag16).isNone then some .owner
  else if op = opSend && (match slot with
      | some p => chTag (chanWord s p.1.val p.2 0) != d.tag16 || !slotIsFor s d.acc p
      | none => false) then some .owner
  else if op = opMcastD && ccTag (chainReg s (dHandle raw % 64)) != d.tag16 then some .owner
  else if op = opGroup && group.valid && group.tag != d.tag16 then some .owner
  else if op = opSend && decide (4096 < n) then some .lenRange
  else if op = opMcastD && decide (2 ^ 26 < n) then some .lenRange
  else if op = opAtomicD && ((n != 4 && n != 8) || dOpx raw == 3) then some .lenRange
  else if op = opGroup && n != 256 && (n != 0 || dSrcRaw raw != 0) then some .lenRange
  else if op = opAllsum || (op = opArm && !aDisarm raw) then allsumCheck s d.tag16 raw
  else if op = opArm && group.tag != d.tag16 then some .owner
  else if !addrCheck s d.acc raw then some .addrRange
  else none

/-- The charge of a single message of a descriptor, if its opcode sends one (R137, R323): none on the planes, none charged. A WAIT's is the
leg that registers it at another die (log 41). -/
def descCharge (s : State) (raw : List Byte) : Option Nat :=
  let op := dOp raw
  if op = opSend then some (chargeOf (dLen raw))
  else if op = opAtomicD then some (chargeOf (dLen raw))
  else if op = opSignalD then (if namesThisDie s (dDst s raw) then none else some (chargeOf 4))
  else if op = opMcastD then some (chargeItem (dLen raw))
  else if op = opWait then (if namesThisDie s (dSrc s raw) then none else some (chargeOf 11))
  else none

/-- A member before it in its chain was refused under R154 (R177). -/
def chainBroken (s : State) (a : Acceptor) (d : DescSt) (id : Nat) : Bool :=
  match d.chain with
  | none => false
  | some c => (chainMembers s a c).any (fun m => decide (m.1 < id) && m.2.refused)

/-- Policing and shaping of a charge of `n` messages (R141, R145, R138): its colour, kept once it is metered and counted
(R467), and whether the shaper lets it go; no colour for RATE_EXCEEDED. -/
def meterShape (s : State) (a : Acceptor) (old : Option (BitVec 2)) (charge n : Nat) : Option (BitVec 2) × Bool × State :=
  let (c, s) := match old with
    | some c => (c, s)
    | none =>
      let (c, s) := meterAt s a charge
      (c, if c = yellow then tally s 0xC0180 n else if c = red then tally s 0xC0188 n else s)
  if c = red then (none, false, s)
  else
    let (ok, s) := shapeAt s a charge
    (some c, ok, s)

/-- Read a message's source bytes at an executor's own stand; none where a byte lies elsewhere (R155). -/
def readHere (s : State) (st : StandId) (tag : BitVec 16) (a : Word) (n : Nat) : Option (Served × State) :=
  let here := (aSpace a == 0 || aSpace a == 3) && namesThisDie s a && (msgPieces a n).all (fun p => match hubResolve st.val false s p.addr with
    | .bank b _ => b == st.val | .dp b => b == st.val | _ => false)
  if here then some (memRead s tag true (hubResolve st.val false) a n) else none

/-- The READ_REQ by which a core port reads the source of a SEND from elsewhere, as one message that the port injects (R137, R181). -/
def readCharge (s : State) (a : Acceptor) (d : DescSt) : Option Nat :=
  match a with
  | .port k =>
    if dOp d.raw = opSend ∧ dLen d.raw ≠ 0 ∧ !d.rpaid ∧ (readHere s k d.tag16 (dSrc s d.raw) (dLen d.raw)).isNone then some (chargeOf 2) else none
  | .ring _ => none

/-- The steps 6 and 7 of R154 for the read of a descriptor's source: refused, or held, or passed. -/
def admitRead (s : State) (a : Acceptor) (id : Nat) (d : DescSt) (go : State → DescSt → State) : State :=
  match readCharge s a d with
  | none => go s d
  | some n =>
    match meterShape s a d.rcol n 1 with
    | (none, _, s) => refuseDesc s id .rateExceeded
    | (some c, ok, s) =>
      let d := { d with rcol := some c, rpaid := ok, phase := if ok then d.phase else .held, since := s.time }
      let s := modDesc s id (fun _ => d)
      if ok then go s d else s

/-- The steps 6 and 7 of R154 for a descriptor's single message. -/
def admitCharge (s : State) (a : Acceptor) (id : Nat) (d : DescSt) : State :=
  admitRead s a id d fun s d =>
  match descCharge s d.raw with
  | none => modDesc s id (fun d => { d with phase := .ready })
  | some n =>
    match meterShape s a d.colour n (max 1 (itemMsgs (dLen d.raw)).length) with
    | (none, _, s) => refuseDesc s id .rateExceeded
    | (some c, ok, s) => modDesc s id (fun d => { d with colour := some c, phase := if ok then .ready else .held, since := s.time })

/-- An ARM that is refused for its trigger object sets that object's MISUSE flag (R254). -/
def objMisuse (s : State) (d : DescSt) (r : Status) : State :=
  if r = .addrRange ∧ dOp d.raw = opArm ∧ !aDisarm d.raw ∧ tobjOnly s d.tag16 d.raw then misuse s (aTobj d.raw) else s

/-- The accepting unit checks the next descriptor of its queue (R154): refused, held by its shaper, or ready. -/
def descriptorAccept (a : Acceptor) (s : State) : State :=
  match nextDesc s a with
  | none => s
  | some (id, d) =>
    if d.phase ≠ .queued then s
    else if fatalLatched s then refuseDesc s id .fabricDown
    else if workHeld s then s
    else if (match a with | .port _ => !afterS4 s | .ring _ => false) then refuseDesc s id .notReady
    else if chainBroken s a d id then
      let s := modDesc s id (fun d => { d with phase := .complete, skip := true })
      (match d.chain with | some c => chainDone s a c | none => s)
    else match descCheck s d with
    | some r => refuseDesc (objMisuse s d r) id r
    | none => admitCharge s a id d

/-- The entry of a tenant tag. -/
def entryOfTag (s : State) (tag : BitVec 16) : Option Nat := (tenantOf s tag).map Prod.fst

/-- The message at `off` of a work item begins at its executor: pattern, own slice, host memory, or a READ_REQ (R155, R156). -/
def itemMsg (s : State) (i off n : Nat) : State :=
  match itemAt s i with
  | none => s
  | some x =>
    match x.w.fill with
    | some p => itemWrite s i off (fillBytes p (addrPlus x.w.dst off) n)
    | none =>
      let a := addrPlus x.w.src off
      let ask (s : State) : State :=
        later (sendImplicit s x.ex (readMsg s x.ex (planeOf (off / 4096)) x.w.tenant a n x.w.express) (.work i off))
      match x.ex with
      | .hostAgent =>
        if aSpace a = 4 then
          (match hostAddr s (entryOfTag s x.w.tenant) (aHostOff a) n with
          | .ok b => hostRead s (.item i off) b n
          | .error r => itemReadFail s i off r)
        else ask s
      | .mover st =>
        (match readHere s st x.w.tenant a n with
        | some (.ok d, s) => itemWrite s i off d
        | some (.fail r _, s) => itemReadFail s i off r
        | some (.busy, s) => itemReadFail s i off .notReady
        | none => ask s)
      | _ => ask s

/-- An executor starts a work item (R155, R156). -/
def itemStart (s : State) (i : Nat) : State :=
  match itemAt s i with
  | none => s
  | some x =>
    if x.started then s
    else
      let s := modItem s i (fun x => { x with started := true })
      (itemMsgs x.w.len).foldl (fun s p => itemMsg s i p.1 p.2) s

/-- The executor of a work item on this die, from its home (R155): none on another die, or the failure. -/
def executorOf (s : State) (w : WorkItem) : Except Status (Option SrcUnit) :=
  let a := match w.fill with | some _ => w.dst | none => w.src
  let p := centreTap s
  let home := match resolve s p.val a true with
    | .refuse .remoteWriteFault => if w.fill.isSome then Home.refuse .remoteWriteFault else resolve s p.val a false
    | h => h
  match home with
  | .away => .ok none
  | .host => .ok (some .hostAgent)
  | .refuse r => .error r
  | h => .ok (some (.mover (standOf (homeStand s h))))

/-- Hand a work item to its executor (R155): a CTRL frond on VC 0, or directly where the accepting unit itself executes. -/
def handItem (s : State) (id : Nat) (a : Acceptor) (w : WorkItem) : State :=
  match executorOf s w with
  | .error r =>
    let s := modDesc s id (fun d => noteFail d w.off r false)
    checkDesc s id
  | .ok ex =>
    let i := s.host.nextItem
    let n := (itemMsgs w.len).length
    let u := ex.getD .hostAgent
    let x : ItemSt := { w := w, ex := u, todo := n, unack := n, reading := if w.fill.isSome || ex.isNone then 0 else n }
    let s := { s with host := { s.host with nextItem := i + 1, items := oset s.host.items i (some x) } }
    let s := modDesc s id (fun d => { d with todo := d.todo + 1, unack := d.unack + 1 })
    if ex = some (accUnit a) then itemStart s i
    else
      let dest := match w.fill with | some _ => w.dst | none => w.src
      let m := newMsg s (accUnit a) (planeOf 0) opCtrl vcReq w.tenant dest (itemBytes w) 0 0 w.express ex.isNone
      later (sendImplicit s (accUnit a) (if w.yellow then { m with colour := yellow } else m) (.hand i))

/-- Dispatch work items while the meter and the shaper let them go (R140, R145, R155); `n` bounds them. A red one ends the
descriptor: what was dispatched stands, and where nothing was, it is a refusal under R154. The first dispatch is the start of the
descriptor (R470). -/
def runItems (s : State) (a : Acceptor) (id : Nat) : Nat → State
  | 0 => s
  | n + 1 =>
    match descAt s id with
    | none => s
    | some d =>
      match d.items with
      | [] => checkDesc (copyFlushOf (modDesc s id (fun d => { d with phase := if d.phase = .complete then d.phase else .running })) id) id
      | w :: r =>
        match meterShape s a d.colour (chargeItem w.len) (itemMsgs w.len).length with
        | (none, _, s) =>
          if w.off = 0 then refuseDesc (modDesc s id (fun d => { d with items := [], colour := none })) id .rateExceeded
          else
          let d := noteFail { d with items := [], colour := none, refused := true } w.off .rateExceeded false
          let s := modDesc s id (fun _ => d)
          copyFlushOf (complete s id d.status d.flags d.addr d.result false) id
        | (some c, false, s) => modDesc s id (fun d => { d with colour := some c, phase := .held, since := s.time })
        | (some c, true, s) =>
          let s := modDesc s id (fun d => { d with items := r, colour := none })
          let s := if w.off = 0 then traceStart s id else s
          runItems (handItem s id a { w with yellow := decide (c = yellow) }) a id n

/-- A COPY or FILL is dispatched (R155, R160). -/
def copyStart (s : State) (a : Acceptor) (id : Nat) (d : DescSt) : State :=
  let raw := d.raw
  let fill := dOp raw == opFill
  if dLen raw = 0 then
    complete (modDesc (traceStart s id) id (fun d => { d with phase := .running })) id .okZeroLen 0 0 0 true
  else
    let src := dSrc s raw
    let dst := dDst s raw
    let w : WorkItem := { desc := id, off := 0, len := 0, total := dLen raw, src := src, dst := dst,
                          fill := if fill then some (dPattern raw) else none, tenant := d.tag16,
                          express := dExpress raw && accExpOk s a, deliv := dDelivered raw, yellow := false }
    let items := cutItems w (dLen raw) (itemBound (dLen raw))
    let s := modDesc s id (fun d => { d with items := items, lvl := lvByte (if fill then 0 else levelOf src) (levelOf dst) })
    runItems s a id (items.length + 1)

def rowCopy (a : Acceptor) (s : State) : State := match readyDesc s a opCopy with | some (id, d) => copyStart s a id d | none => s
def rowFill (a : Acceptor) (s : State) : State := match readyDesc s a opFill with | some (id, d) => copyStart s a id d | none => s

/-- The unit that sends a SEND of an acceptor (R181): the core port, or the mover at the send slot's stand. -/
def sendUnit (a : Acceptor) (p : StandId × Nat) : SrcUnit := match a with | .port k => .port k | .ring _ => .mover p.1

/-- The message of a SEND goes, its data known (R181). -/
def sendGo (s : State) (id : Nat) : State :=
  match descAt s id with
  | none => s
  | some d =>
    let s := modDesc s id (fun d => { d with since := 0, data := [] })
    match sendSlotOf s (dHandle d.raw) with
    | none => complete (modDesc s id (fun d => { d with todo := 0, unack := 0, rd := 0 })) id .addrRange 0 0 0 false
    | some p =>
      let u := sendUnit d.acc p
      let w := chanWord s p.1.val p.2 0
      let dest := if d.data.isEmpty then chanWord s p.1.val p.2 1 else dDst s d.raw
      let m := newMsg s u (planeOf (chPlane w)) opWrite (if chSkiden w then vcSkid else vcReq) d.tag16 dest d.data 0 0
        (dExpress d.raw && accExpOk s d.acc) (dDelivered d.raw)
      later (sendChannel s u { m with colour := d.colour.getD 0 } false (chNo w) false (.desc id 0))

/-- The first SEND of an acceptor on a channel whose message has not gone: its field `since` is 1 while its source is read, 2 once its
data are known. -/
def unsent (s : State) (a : Acceptor) (ch : Nat) : Option (Nat × DescSt) :=
  (queueOf s a).findSome? (fun i => match descAt s i with
    | some d => if d.phase = .running ∧ dOp d.raw = opSend ∧ dHandle d.raw = ch ∧ d.since ≠ 0 then some (i, d) else none
    | none => none)

/-- The messages of a channel go in the order in which its SENDs were submitted (R162): one whose data are known waits for those before
it; `n` bounds them. -/
def sendPump (s : State) (a : Acceptor) (ch : Nat) : Nat → State
  | 0 => s
  | n + 1 => match unsent s a ch with
    | some (i, d) => if d.since = 2 then sendPump (sendGo s i) a ch n else s
    | none => s

/-- What of a channel can go, goes. -/
def sendNext (s : State) (id : Nat) : State :=
  match descAt s id with
  | some d => sendPump s d.acc (dHandle d.raw) (queueOf s d.acc).length
  | none => s

/-- The data of a SEND are known. -/
def sendData (s : State) (id : Nat) (data : List Byte) : State :=
  sendNext (modDesc s id (fun d => { d with since := 2, data := data })) id

/-- A SEND whose source read fails completes with that status, and nothing is sent (R155); the channel's later messages go on. -/
def sendFailed (s : State) (id : Nat) (r : Status) : State :=
  match descAt s id with
  | some d =>
    let s := complete (modDesc s id (fun d => { d with todo := 0, unack := 0, rd := 0 })) id r 0 0 0 false
    sendPump s d.acc (dHandle d.raw) (queueOf s d.acc).length
  | none => s

/-- A SEND is dispatched: its source is read, then its message goes (R181). -/
def sendStart (s : State) (a : Acceptor) (id : Nat) (d : DescSt) : State :=
  let n := dLen d.raw
  let src := dSrc s d.raw
  let s := traceStart s id
  let s := modDesc s id (fun d => { d with phase := .running, todo := 1, unack := 1, since := 1, rd := n, lvl := lvByte (if n = 0 then 0 else levelOf src) 1 })
  match sendSlotOf s (dHandle d.raw) with
  | none => sendFailed s id .addrRange
  | some p =>
    if n = 0 then sendData s id []
    else
      let u := sendUnit a p
      match readHere s (unitStand s u) d.tag16 src n with
      | some (.ok b, s) => sendData s id b
      | some (.fail r _, s) => sendFailed s id r
      | some (.busy, s) => sendFailed s id .notReady
      | none =>
        later (sendImplicit s u { readMsg s u (planeOf 0) d.tag16 src n false with colour := d.rcol.getD green } (.source id))

def rowSend (a : Acceptor) (s : State) : State := match readyDesc s a opSend with | some (id, d) => sendStart s a id d | none => s

/-- An MCAST is queued for its chain (R196). -/
def rowMcast (a : Acceptor) (s : State) : State :=
  match readyDesc s a opMcastD with
  | some (id, _) => modDesc s id (fun d => { d with phase := .waiting, since := s.time })
  | none => s

/-- A SIGNAL descriptor (R321, R323). -/
def rowSignal (a : Acceptor) (s : State) : State :=
  match readyDesc s a opSignalD with
  | none => s
  | some (id, d) =>
    let s := traceStart s id
    let s := modDesc s id (fun d => { d with phase := .running, todo := 1, unack := 1 })
    let m := newMsg s (accUnit a) (planeOf 0) opSignal vcReq d.tag16 (dDst s d.raw) (leBytes 4 (dIncrement d.raw).toNat) 0 0
      (dExpress d.raw && accExpOk s a) (dDelivered d.raw)
    later (sendImplicit s (accUnit a) { m with colour := d.colour.getD 0 } (.desc id 0))

/-- An ATOMIC descriptor (R78, R159). -/
def rowAtomic (a : Acceptor) (s : State) : State :=
  match readyDesc s a opAtomicD with
  | none => s
  | some (id, d) =>
    let s := traceStart s id
    let s := modDesc s id (fun d => { d with phase := .running, todo := 1, unack := 1 })
    let m := newMsg s (accUnit a) (planeOf 0) opAtomic vcReq d.tag16 (dDst s d.raw) (leBytes (dLen d.raw) (dPattern d.raw).toNat)
      (dOpx d.raw) 0 (dExpress d.raw && accExpOk s a) (dDelivered d.raw)
    later (sendImplicit s (accUnit a) { m with colour := d.colour.getD 0 } (.desc id 0))

/-- The blaze record of a MARK (R473). -/
def blazeOf (d : DescSt) (t : Nat) : List Byte :=
  traceRecord t tkBlaze (accSrcu d.acc) (dBlazeKind d.raw) d.raw d.tag16 (dPattern d.raw).toNat

/-- A record of a source has been staged, dropped or discarded: the first running MARK whose blaze it is completes (R473). -/
def markDone (srcu : Nat) (s : State) (r : List Byte) : State :=
  match s.host.descs.findSome? (fun p => p.2.bind (fun d =>
    if d.phase = .running ∧ dOp d.raw = opMark ∧ accSrcu d.acc = srcu ∧ blazeOf d d.start = r then some p.1 else none)) with
  | some id => complete (modDesc s id (fun d => { d with todo := 0 })) id .ok 0 0 0 false
  | none => s

/-- A MARK (R473): its blaze record, and its completion once the record has entered the unit's staging or is dropped. One that its source
holds has not been dropped. -/
def rowMark (a : Acceptor) (s : State) : State :=
  match readyDesc s a opMark with
  | none => s
  | some (id, d) =>
    let s := traceStart s id
    let s := modDesc s id (fun d => { d with phase := .running, todo := 1 })
    let on := traced s (accEntry s a) 1
    let s := if on then sourceTrace s (accSrcu a) (blazeOf d s.time) else s
    if on && decide ((cget {} s.obs.srcDrop (accSrcu a)).n = 0) then s
    else complete (modDesc s id (fun d => { d with todo := 0 })) id .ok 0 0 0 false

/-- Every descriptor before a FENCE is complete and acknowledged, and no DEFERRED record of its ring waits in the holding (R164, R175). -/
def fenceClear (s : State) (a : Acceptor) (id : Nat) (d : DescSt) : Bool :=
  ((queueOf s a).takeWhile (· ≠ id)).all (fun i => match descAt s i with
    | some e => decide (e.phase = .complete) && decide (e.unack = 0) && decide (e.todo = 0) && (e.chain.isNone || e.chain == d.chain)
    | none => true) &&
  (match a with | .ring n => s.host.holding.all (fun h => h.1 != n.val) | .port _ => true)

/-- A FENCE completes where it may, else it waits (R164). -/
def fenceTry (s : State) (a : Acceptor) (id : Nat) (d : DescSt) : State :=
  if fenceClear s a id d then complete (modDesc s id (fun d => { d with phase := .running })) id .ok 0 0 0 false
  else modDesc s id (fun d => { d with phase := .waiting })

def rowFence (a : Acceptor) (s : State) : State :=
  match readyDesc s a opFence with | some (id, d) => fenceTry (traceStart s id) a id d | none => s

/-- A waiting FENCE completes (R164). -/
def rowFenceRelease (a : Acceptor) (s : State) : State :=
  match nextDesc s a with
  | some (id, d) => if d.phase = .waiting ∧ dOp d.raw = opFence then fenceTry s a id d else s
  | none => s

/-- A leg of a WAIT to its object's home on another die, with the colour of its charge: 1 registers, 2 releases (R32, R137, R326). -/
def watchSend (s : State) (a : Acceptor) (w : WaitSt) (kind : Nat) (c : BitVec 2) : State :=
  let tag := ((descAt s w.desc).map DescSt.tag16).getD 0
  later (sendImplicit s (accUnit a) { farMsg s (accUnit a) tag w.addr kind (accNo a) w.desc w.target.toNat with colour := c }
    (if kind = 1 then .watch (accNo a) w.desc else .none_))

/-- The unit of a WAIT releases its watch (R326). The release of one at another die is metered and charged, and goes at once, whatever the
meter and the shaper say: its WAIT is over (R137; log 41). -/
def watchDrop (s : State) (a : Acceptor) (w : WaitSt) : State :=
  if namesThisDie s w.addr then sendRhz s (.watchRelease (aObject w.addr) a)
  else
    let (c, _, s) := meterShape s a none (chargeOf 11) 1
    watchSend s a w 2 (c.getD yellow)

/-- A WAIT registers at its object's home and holds later descriptors (R161, R326). -/
def rowWait (a : Acceptor) (s : State) : State :=
  match readyDesc s a opWait with
  | none => s
  | some (id, d) =>
    let s := traceStart s id
    let s := modDesc s id (fun d => { d with phase := .waiting })
    let src := dSrc s d.raw
    let w : WaitSt := { desc := id, addr := src, target := dTarget d.raw, tmo := dTimeout d.raw, start := s.time }
    let s := { s with sync := { s.sync with waits := oset s.sync.waits (accNo a) (some w) } }
    if namesThisDie s src then sendRhz s (.watch (aObject src) (dTarget d.raw).toNat a) else watchSend s a w 1 (d.colour.getD green)

/-- A WAIT completes (R326). -/
def waitEnd (s : State) (a : Acceptor) (w : WaitSt) (r : Status) : State :=
  let s := { s with sync := { s.sync with waits := oset s.sync.waits (accNo a) none } }
  complete (modDesc s w.desc (fun d => { d with phase := .running })) w.desc r 0 0 0 false

/-- The acceptor of a number. -/
def accOf (no : Nat) : Acceptor := if no < 4096 then .ring ⟨no % 4096, Nat.mod_lt _ (by decide)⟩ else .port (standOf (no - 4096))

/-- The registration of a WAIT at another die fails: with POISON where the home is LOST (R324, R329), else with its status. -/
def watchDone (s : State) (no id : Nat) (x : Done) : State :=
  match oget s.sync.waits no with
  | none => s
  | some w =>
    if w.desc ≠ id ∨ w.mode ≠ .asking ∨ (x.stage ≠ .final ∧ x.stage ≠ .refused) ∨ x.status = .ok then s
    else waitEnd (modDesc s id (fun d => { d with unknown := d.unknown || x.unknown })) (accOf no) w
      (if x.status = .remoteWriteFault then .poison else x.status)

/-- A poll's answer: word 0 the count, 4 the target (R327). One that comes after its WAIT, of descriptor `id`, has ended is nothing to the
next WAIT. -/
def pollDone (s : State) (no id word : Nat) (x : Done) : State :=
  let a := accOf no
  match oget s.sync.waits no with
  | none => s
  | some w =>
    if w.mode ≠ .polling ∨ w.desc ≠ id ∨ (x.stage ≠ .final ∧ x.stage ≠ .refused) then s
    else if x.status ≠ .ok then
      let s := if x.status = .addrRange ∧ namesThisDie s w.addr then misuse s (aObject w.addr) else s
      waitEnd (modDesc s w.desc (fun d => { d with unknown := d.unknown || x.unknown })) a w x.status
    else
      let v := bytesBv 32 x.data
      if word = 0 then
        if w.target = 0 then { s with sync := { s.sync with waits := oset s.sync.waits no (some { w with count := some v }) } }
        else if w.target.toNat ≤ v.toNat then waitEnd s a w .ok else s
      else match w.count with
        | some c => if v.toNat ≤ c.toNat then waitEnd s a w .ok else s
        | none => s

/-- A GROUP's record is known, or it dissolves: refused, waiting for RUN, or written (R248). -/
def groupTry (s : State) (id : Nat) (d : DescSt) : State :=
  let g := aGroup d.raw
  let rec_ := if dLen d.raw = 0 then none else some d.data
  match groupJudge s g rec_ with
  | some r => complete (modDesc s id (fun d => { d with phase := .running, rd := 0, lvl := 0 })) id r 0 0 0 true
  | none =>
    if (groupAt s g).run then modDesc s id (fun d => { d with phase := .waiting, since := 1 })
    else
      let s := groupWrite s g d.tag16 rec_
      complete (modDesc s id (fun d => { d with phase := .running, rd := dLen d.raw })) id .ok 0 0 0 false

/-- The data of a source range arrives for a SEND or a GROUP (R181, R248); a read that failed as a replay leaves UNKNOWN (R501). -/
def sourceData (s : State) (id : Nat) (r : Except Status (List Byte)) : State :=
  match descAt s id with
  | none => s
  | some d =>
    if d.phase = .complete then s
    else if dOp d.raw = opGroup then
      (match r with
      | .ok b => groupTry (modDesc s id (fun d => { d with data := b })) id { d with data := b }
      | .error e => complete (modDesc s id (fun d => { d with phase := .running })) id e 0 0 0 false)
    else match r with
      | .ok b => sendData s id b
      | .error e => sendFailed s id e

/-- A GROUP is dispatched: its record is read (R248). It waits, holding later descriptors, until it is read. -/
def rowGroup (a : Acceptor) (s : State) : State :=
  match readyDesc s a opGroup with
  | none => s
  | some (id, d) =>
    let s := traceStart s id
    let src := dSrc s d.raw
    let s := modDesc s id (fun d => { d with phase := .waiting, lvl := lvByte (if dLen d.raw = 0 then 0 else levelOf src) 0 })
    if dLen d.raw = 0 then groupTry s id d
    else if aSpace src = 4 then
      (match hostAddr s (accEntry s a) (aHostOff src) 256 with
      | .ok b => hostRead s (.source id) b 256
      | .error r => sourceData s id (.error r))
    else
      later (sendImplicit s (accUnit a) (readMsg s (accUnit a) (planeOf 0) d.tag16 src 256 false) (.source id))

/-- An ALLSUM or ARM passes its checks again and starts, or waits for RUN (R254). -/
def collectiveTry (s : State) (id : Nat) (d : DescSt) : State :=
  match allsumCheck s d.tag16 d.raw with
  | some r => refuseDesc (objMisuse s d r) id r
  | none =>
    if (groupAt s (aGroup d.raw)).run then modDesc s id (fun d => { d with phase := .waiting, since := 1 })
    else if dOp d.raw = opAllsum then allsumStart s id d.raw
    else
      let n := aTobj d.raw
      if objLost s n then refuseDesc s id .poison else armStart s id d.raw

def rowAllsum (a : Acceptor) (s : State) : State :=
  match readyDesc s a opAllsum with | some (id, d) => collectiveTry s id d | none => s

def rowArm (a : Acceptor) (s : State) : State :=
  match readyDesc s a opArm with
  | some (id, d) => if aDisarm d.raw then s else collectiveTry s id d
  | none => s

/-- An ARM with DISARM (R262). -/
def rowArmDisarm (a : Acceptor) (s : State) : State :=
  match readyDesc s a opArm with
  | some (id, d) =>
    if !aDisarm d.raw then s
    else
      let s := modDesc (traceStart s id) id (fun d => { d with phase := .running })
      let (r, s) := disarm s (aGroup d.raw)
      complete s id r 0 0 0 false
  | none => s

/-- The acceptor whose next descriptor waits for RUN of a group (R248, R254). -/
def runWaiter (s : State) (g : Nat) : Option (Nat × DescSt) :=
  s.host.descs.findSome? (fun (id, d) => d.bind (fun d =>
    if d.phase = .waiting ∧ d.since = 1 ∧ (dOp d.raw = opGroup ∨ dOp d.raw = opAllsum ∨ dOp d.raw = opArm) ∧ aGroup d.raw = g then some (id, d)
    else none))

/-- A GROUP, ALLSUM or ARM that waited for RUN goes on (R248, R254). -/
def groupRunResume (g : Fin 64) (s : State) : State :=
  if (groupAt s g.val).run then s
  else match runWaiter s g.val with
  | some (id, d) => if dOp d.raw = opGroup then groupTry s id d else collectiveTry s id d
  | none => s

/-- The held item of an acceptor is dispatched once its bucket has refilled (R138, R140). -/
def shaperDispatch (a : Acceptor) (s : State) : State :=
  match nextDesc s a with
  | none => s
  | some (id, d) =>
    if d.phase ≠ .held ∨ workHeld s then s
    else
      let s := advanceTo s (shapeDue s a)
      if d.items.isEmpty then admitCharge s a id d else runItems s a id (d.items.length + 1)

/-- A mover or the host agent receives a work item (R155, R156): the one handed to it on this die, or one of another die. A stopped one starts none
(R484). -/
def workItemReceive (ex : SrcUnit) (w : WorkItem) (s : State) : State :=
  match s.host.items.find? (fun (_, x) => match x with
    | some x => !x.started && decide (x.ex = ex) && decide (x.w = w) | none => false) with
  | some (i, _) => if frozenAt s (match ex with | .hostAgent => 48 | u => (unitStand s u).val) then s else itemStart s i
  | none => s

end Sys2Proof.Machine
end

