-- ==== Sys2Proof/Machine/Finish.lean ====
section
/-! DEFINITION. Reporting the outcomes of messages to what they belong to, in the step in which they are known (R113, R187,
R188). -/

namespace Sys2Proof.Machine

/-- A done message has ended: with a response, an acknowledgement, a timeout or a refusal. -/
def hasEnded (x : Done) : Bool := decide (x.stage = .final) || decide (x.stage = .refused)

/-- The data or the failure of a read. -/
def readOutcome (x : Done) : Except Status (List Byte) := if x.status = .ok then .ok x.data else .error x.status

/-- One outcome at what its message belongs to (R159, R187, R188). -/
def finish (s : State) (x : Done) : State :=
  match x.owner with
  | .desc id _ => descDone s id x
  | .work i off => itemDone s i off x
  | .hand i => handDone s i x
  | .direct k rid =>
    let s := directDone s k rid x
    if isTile x.m && decide (x.stage ≠ .sent) then later (pumpFinals s (.port k)) else s
  | .poll no id word => pollDone s no id word x
  | .source id =>
    if hasEnded x then sourceData (modDesc s id (fun d => { d with unknown := d.unknown || x.unknown })) id (readOutcome x) else s
  | .mcRead c =>
    if hasEnded x then
      let s := match execAt s c.val with | some e => modDesc s e.desc (fun d => { d with unknown := d.unknown || x.unknown }) | none => s
      let (more, s) := execData s c (match readOutcome x with | .ok b => some b | .error _ => none)
      if more then execRun s c (execFuel s c.val) else s
    else s
  | .mcast st c desc => mcastDone s st c desc x
  | .mcWrite st c opid => if hasEnded x then memberWrote s st c.val opid (decide (x.status = .ok)) else s
  | .landing st j => landingDone s st j x
  | .stage _ g => stageDone s g x
  | .landed a tag idx => if x.status = .ok then s else deferredOf s a tag idx x
  | .watch no id => watchDone s no id x
  | .none_ => s

/-- The unit that makes a read again after `COLLIDE`: a mover, the host agent or a reducer (R298). -/
def rereader (m : Msg) : Option SrcUnit :=
  let st := standOf (fld m.src 0 6)
  if m.unit = unitMover then some (.mover st)
  else if m.unit = unitHost then some .hostAgent
  else if m.unit = unitReducer then some (.reducer st)
  else none

/-- The collisions in a row of a read. -/
def collisions (s : State) (x : Done) : Nat :=
  ((s.trans.colls.find? (fun c => decide (c.1 = x.owner) && decide (c.2.1 = x.m.dest))).map (fun c => c.2.2)).getD 0

/-- Set them; 0 forgets the read. -/
def setCollisions (s : State) (x : Done) (n : Nat) : State :=
  let l := s.trans.colls.filter (fun c => !(decide (c.1 = x.owner) && decide (c.2.1 = x.m.dest)))
  { s with trans := { s.trans with colls := if n = 0 then l else (x.owner, x.m.dest, n) :: l } }

/-- One outcome, but for a read answered `COLLIDE`, which its unit makes again up to 15 further times (R298). -/
def finishOrReread (s : State) (x : Done) : State :=
  if x.m.op ≠ opReadReq ∨ x.stage ≠ .final then finish s x
  else
    let n := collisions s x + 1
    match (if x.answered ∧ x.status = .collide ∧ n < 16 then rereader x.m else none) with
    | some u => later (sendImplicit (setCollisions s x n) u { x.m with seq := 0, replay := false, openFl := false } x.owner)
    | none => finish (setCollisions s x 0) x

/-- Work off what is to be reported, `n` outcomes at most. -/
def settleN : Nat → State → State
  | 0, s => s
  | n + 1, s =>
    match s.todo with
    | [] => s
    | x :: r => settleN n (finishOrReread { s with todo := r } x)

/-- Work off everything: the bound lies above what one step can raise. -/
def settle (s : State) : State := settleN 1000000 s

/-- A command's effect with the reports it gives rise to. -/
def runMsg (s : State) (f : State → State) : Step := run s (fun s => settle (f s))

/-- A register write's effect with the reports it gives rise to. -/
def settled (eff : Word → Word → State → State) (wm v : Word) (s : State) : State := settle (eff wm v s)

def execSignalApply (n : Fin 4096) (inc : BitVec 32) (s : State) : Step := runMsg s (signalApply n inc)
def execSyncObjectWrite (n : Fin 4096) (v : Word) (s : State) : Step := mgStep s (0x80000 + n.val * 16) v (settled (syncObjWrite n.val))
def execSyncControlWrite (n : Fin 4096) (v : Word) (s : State) : Step := mgStep s (0x80000 + n.val * 16 + 8) v (settled (syncCtlWrite n.val))
def execDescriptorAccept (a : Acceptor) (s : State) : Step := runMsg s (descriptorAccept a)
def execCopy (a : Acceptor) (s : State) : Step := runMsg s (rowCopy a)
def execFill (a : Acceptor) (s : State) : Step := runMsg s (rowFill a)
def execSend (a : Acceptor) (s : State) : Step := runMsg s (rowSend a)
def execMcast (a : Acceptor) (s : State) : Step := runMsg s (rowMcast a)
def execAllsum (a : Acceptor) (s : State) : Step := runMsg s (rowAllsum a)
def execSignal (a : Acceptor) (s : State) : Step := runMsg s (rowSignal a)
def execWait (a : Acceptor) (s : State) : Step := runMsg s (rowWait a)
def execMark (a : Acceptor) (s : State) : Step := runMsg s (rowMark a)
def execAtomic (a : Acceptor) (s : State) : Step := runMsg s (rowAtomic a)
def execFence (a : Acceptor) (s : State) : Step := runMsg s (rowFence a)
def execGroup (a : Acceptor) (s : State) : Step := runMsg s (rowGroup a)
def execArm (a : Acceptor) (s : State) : Step := runMsg s (rowArm a)
def execArmDisarm (a : Acceptor) (s : State) : Step := runMsg s (rowArmDisarm a)
def execFenceRelease (a : Acceptor) (s : State) : Step := runMsg s (rowFenceRelease a)
def execGroupRunResume (g : Fin 64) (s : State) : Step := runMsg s (groupRunResume g)
def execWorkItemReceive (ex : SrcUnit) (w : WorkItem) (s : State) : Step := runMsg s (workItemReceive ex w)
def execHoldingRecordWrite (s : State) : Step := runMsg s holdingWrite
def execMcastDispatch (c : Fin 64) (s : State) : Step :=
  runMsg s (fun s => if workHeld s || fatalLatched s then s else mcastDispatch c s)
def execMcastReportReceive (st : Option StandId) (c : Fin 64) (bits : BitVec 128) (s : State) : Step :=
  runMsg s (mcastReport st c.val bits)
def execMcastReportTimeout (st : Option StandId) (c : Fin 64) (s : State) : Step := runMsg s (mcastReportTimeout st c.val)
def execLandingWriteComplete (st : StandId) (j : Fin 8) (s : State) : Step := runMsg s (landingComplete st j)
def execCombiningTimeout (st : StandId) (j : Fin 8) (s : State) : Step := runMsg s (combiningTimeout st j)
def execTriggerReceive (st : StandId) (g : Fin 64) (s : State) : Step := runMsg s (triggerReceive st g)
def execAllsumLossWaitExpiry (st : StandId) (g : Fin 64) (seg share : Nat) (stage : Fin 6) (s : State) : Step :=
  runMsg s (lossWaitExpiry st g seg share stage)
def execAllsumResultAbandon (st : StandId) (g : Fin 64) (seg : Nat) (s : State) : Step := runMsg s (resultAbandon st g seg)

end Sys2Proof.Machine
end

