-- ==== Sys2Proof/Machine/Hub.lean ====
section
/-! DEFINITION. Stand hubs: the receive tables, the handling of a whole message that arrives, transport acknowledgements and
the timers of a flow (R60 to R67, R82, R112 to R119, R146, R147, R354, R501). -/

namespace Sys2Proof.Machine

/-- The receive table of a stand. -/
def recvTable (s : State) (st : StandId) : List RecvEntry := cget [] s.trans.recv st.val

def setRecv (s : State) (st : StandId) (l : List RecvEntry) : State :=
  { s with trans := { s.trans with recv := cset [] s.trans.recv st.val l } }

/-- An entry counts as present until it has been idle for 8.4 ms (R114). -/
def entryLive (s : State) (e : RecvEntry) : Bool := decide (s.time < e.last + ms8_4)

/-- The entry of a flow, where it is present. -/
def findEntry (s : State) (st : StandId) (k : FlowKey) : Option RecvEntry :=
  (recvTable s st).find? (fun e => decide (e.key = k) && entryLive s e)

/-- Put an entry in place of the flow's earlier one; idle entries give their places. -/
def putEntry (s : State) (st : StandId) (e : RecvEntry) : State :=
  setRecv s st (e :: (recvTable s st).filter (fun x => decide (x.key ≠ e.key) && entryLive s x))

/-- What a destination makes of a message it may take: applied, answered, or NACK BUSY. -/
inductive Taken where
  | applied
  | reply (r : Status) (data : List Byte)
  | busy
  deriving DecidableEq, Repr

/-- The moment of a GAP NACK: at once, then once per retransmission interval (R116). -/
def gapDue (s : State) (e : RecvEntry) (m : Msg) : Bool :=
  match e.gapAt with
  | none => true
  | some t => decide (t + retransNs s (BitVec.ofNat 64 (m.src.toNat * 2 ^ 34)) ≤ s.time)

/-- A NACK BUSY, with the refusal mask of the flow's entry where it has one (R116, R147). -/
def busyNack (s : State) (st : StandId) (m : Msg) : State :=
  match findEntry s st (keyOf m) with
  | some e => sendAck s st e.key m.tenant e.e 3 e.rmask
  | none => sendAck s st (keyOf m) m.tenant 0 3 0

/-- A message accepted with SEQ = E: applied or refused, E advances, acknowledged after 8 (R115, R116, R146, R147). One that its response
acknowledges at once counts neither toward the 8 nor for the 200 ns (R116; log 112). One refused BUSY leaves
the entry as it was but for the moment of its last arrival, and makes none (R114, R183; log 91). -/
def acceptMsg (s : State) (st : StandId) (m : Msg) (e : RecvEntry) (take : State → Taken × State) : State :=
  let red_ := m.colour == red
  let (t, s) := if red_ then (Taken.reply .rateExceeded [], s) else take s
  match t with
  | .busy =>
    let s := match findEntry s st e.key with
      | some x => putEntry s st { x with last := s.time }
      | none => s
    busyNack s st m
  | t =>
    let answered := match t with | .reply _ _ => true | _ => false
    let n := if answered then e.unacked else e.unacked + 1
    let e' : RecvEntry := { e with
      e := m.seq + 1, last := s.time, rmask := (e.rmask <<< 1) ||| (if red_ then 1 else 0), unacked := if n ≥ 8 then 0 else n,
      oldest := if e.unacked = 0 then s.time else e.oldest,
      atom := match t with | .reply r d => if m.op = opAtomic then some (m.seq, r, d) else e.atom | _ => e.atom }
    let s := putEntry s st e'
    let s := match t with | .reply r d => answer s st m r d | _ => s
    if n ≥ 8 then sendAck s st e.key m.tenant e'.e 0 e'.rmask else s

/-- A duplicate (R117, R147): the acknowledgement again, and what its class has again. -/
def duplicateMsg (s : State) (st : StandId) (m : Msg) (e : RecvEntry) (again : State → Taken × State) : State :=
  let s := putEntry s st { e with last := s.time, unacked := 0 }
  let s := sendAck s st e.key m.tenant e.e 0 e.rmask
  let i := (e.e - 1 - m.seq).toNat
  if i < 32 ∧ bitAt e.rmask i then answer s st m .rateExceeded []
  else if m.op = opAtomic then
    (match e.atom with
    | some (q, r, d) => if q = m.seq then answer s st m r d else s
    | none => s)
  else match again s with
    | (.reply r d, s) => answer s st m r d
    | (_, s) => s

/-- A message at its destination by the table of R115: `take` applies it, `again` gives what a duplicate has again. A new incarnation sets E
alone: the entry's held ATOMIC, its refusals, the acceptances not acknowledged and the moment of its last GAP NACK stay (R116, R117, R147). -/
def byEntry (s : State) (st : StandId) (m : Msg) (take again : State → Taken × State) : State :=
  let k := keyOf m
  let fresh : RecvEntry := { key := k, e := m.seq, last := s.time, rmask := 0, atom := none, unacked := 0, oldest := s.time, gapAt := none }
  match findEntry s st k with
  | none =>
    if 4096 ≤ ((recvTable s st).filter (entryLive s)).length then sendAck s st k m.tenant 0 3 0
    else if m.openFl then acceptMsg s st m fresh take
    else sendAck s st k m.tenant 0 2 0
  | some e =>
    if m.seq = e.e then acceptMsg s st m e take
    else if isBehind e.e m.seq then duplicateMsg s st m e again
    else if m.openFl then acceptMsg s st m { e with e := m.seq, rmask := e.rmask <<< (m.seq - e.e).toNat } take
    else if gapDue s e m then
      sendAck (putEntry s st { e with last := s.time, gapAt := some s.time, unacked := 0 }) st k m.tenant e.e 1 e.rmask
    else putEntry s st { e with last := s.time }

/-- The lengths that R82 refuses, with whether an event is raised. -/
def lengthBad (m : Msg) : Option Bool :=
  let n := m.len.toNat
  if decide (4096 < n) then some true
  else if (m.shape != .multi && decide (56 < n)) || (m.shape == .multi && decide (n ≤ 56)) then some true
  else if m.op == opReadReq && (msgBytes m == 0 || decide (4096 < msgBytes m)) then some false
  else if m.op == opAtomic && ((n != 4 && n != 8) || msgOpx m == 3) then some false
  else if m.op == opSignal && n != 4 then some false
  else none

/-- A swap of an entry has been made and its re-home command has not reached a hub, which holds the entry until then (R428). -/
def swapDue (s : State) (st n : Nat) : Bool :=
  let h := hubCoppice s st n
  let c := coppice s n
  copTwin h && copTStand h == copPStand c && copTBank h == copPBank c

/-- The entry of a write or atomic is in hold for a swap at this hub (R428). -/
def inHold (s : State) (st : StandId) (m : Msg) : Bool :=
  isWriting m && aSpace m.dest == 0 && !aDp m.dest &&
  (msgPieces m.dest (max 1 m.data.length)).any (fun p => swapDue s st.val (aEntry p.addr) ||
    heldEntry s (aEntry p.addr))

/-- A write, read or atomic of slice memory or a mailbox gives its outcome. -/
def servedTaken (m : Msg) : Served → Taken
  | .busy => .busy
  | .fail r d => .reply r d
  | .ok d => if m.op = opReadReq ∨ m.op = opAtomic ∨ m.delivered then .reply .ok (if m.op = opWrite then [] else d) else .applied

/-- An ATOMIC at its home: aligned, in one bank or region (R69, R299). -/
def atomicAt (s : State) (st : StandId) (m : Msg) : Served × State :=
  match serveHome st true s m.dest with
  | .bank _ b => bankAtomic s st b m.tenant false (aByte m.dest) (msgOpx m) m.data
  | .dp _ => dpAtomic s st m.tenant (if aSpace m.dest = 0 then aDpByte m.dest else aMbox m.dest) (msgOpx m) m.data
  | .refuse r => (.fail r [], s)
  | _ => (.fail .addrRange [], s)

/-- The release word that a mailbox address names (R184). -/
def releaseSlot (a : Word) : Option Nat :=
  if (if aSpace a = 3 then !aDoorbell a else aSpace a == 0 && aDp a && decide (aDpByte a < 0x10000)) ∧ 0xFC00 ≤ aMbox a then
    some ((aMbox a - 0xFC00) / 8)
  else none

/-- An access to a release word, as its message puts it (R184). -/
def relAccess (m : Msg) : RelAccess :=
  if aMbox m.dest % 8 ≠ 0 ∨ msgBytes m ≠ 8 ∨ (aSpace m.dest = 0 ∧ aAlias m.dest ≠ 0) then .other
  else if m.op = opReadReq then .read
  else if m.op = opAtomic ∧ msgOpx m = 2 then .add (BitVec.ofNat 64 (leNat m.data))
  else .other

/-- Target requests of a stand's port that are outstanding (R354). -/
def targetKey (k : StandId) (tid : Nat) : Nat := k.val * 32 + tid

/-- A target request that is outstanding for a message (R354). -/
def targetHeld (s : State) (k : StandId) (m : Msg) : Bool :=
  (List.range 32).any (fun t => match oget s.port.tgts (targetKey k t) with
    | some x => decide (keyOf x.m = keyOf m) && x.m.seq == m.seq | none => false)

/-- The port takes no message of the core, neither RQ nor TR: it is not up, girdled, fenced or frozen (R365, R370, R372, R375, R484). -/
def portClosed (s : State) (k : StandId) : Bool :=
  girdled s k.val || portGirdled s k.val || fenced s k.val || frozenAt s k.val || decide (cget .reset s.port.xst k.val ≠ .up)

/-- The open target requests of a port with their TIDs, in the order in which the hub took them. -/
def openTargets (s : State) (k : StandId) : List (Nat × Target) :=
  let put (l : List (Nat × Target)) (x : Nat × Target) : List (Nat × Target) :=
    l.filter (fun y => decide (y.2.no ≤ x.2.no)) ++ x :: l.filter (fun y => decide (x.2.no < y.2.no))
  ((List.range 32).filterMap (fun i => (oget s.port.tgts (targetKey k i)).map (fun x => (i, x)))).foldl put []

/-- The first target request that the core has been offered and is not known to have taken (R364; log 80). -/
def untaken (s : State) (k : StandId) : Option (Nat × Target) := (openTargets s k).find? (fun x => x.2.offered && !x.2.taken)

/-- The next place in the order of a port's target requests. -/
def nextTargetNo (s : State) (k : StandId) : Nat := ((openTargets s k).map (fun x => x.2.no + 1)).foldl max 0

/-- An answer shows that the core has taken its request and every one offered before it, since a channel keeps its order (R353, R364; log 80). -/
def targetsTaken (s : State) (k : StandId) (no : Nat) : State :=
  { s with port := { s.port with tgts := (List.range 32).foldl (fun t i => tmod (fun _ => none) t (targetKey k i)
      (Option.map (fun x => if x.no ≤ no then { x with taken := true } else x))) s.port.tgts } }

/-- The hub takes a target request into its table and offers it to the core (R353, R354), at once where the port is up; after a core reset
none is taken until RESYNC completes (R367). -/
def targetTake (s : State) (k : StandId) (m : Msg) : Taken × State :=
  if portGirdled s k.val then (.reply (if m.op = opWrite then .remoteWriteFault else .poison) [], s)
  else if cget false s.port.lossy k.val then (.busy, s)
  else match (List.range 32).find? (fun t => (oget s.port.tgts (targetKey k t)).isNone) with
  | none => (.busy, s)
  | some t =>
    let up := decide (cget .reset s.port.xst k.val = .up)
    let x : Target := { m := m, offered := up, no := nextTargetNo s k, since := s.time }
    let s := { s with port := { s.port with tgts := oset s.port.tgts (targetKey k t) (some x) } }
    let s := lvl s k.val 7 (if m.op = opReadReq then 0 else m.data.length)
    (.applied, if up then emit s (.tq k (tqBytes t m)) else s)

/-- A fabric doorbell write (R46, R169): the host agent gets it over the rhizome. -/
def doorbellTake (s : State) (m : Msg) : Taken × State :=
  let n := fld m.dest 12 12
  match tenantAt s n with
  | some t =>
    if t.tag ≠ m.tenant then (.reply .owner [], s)
    else
      let byte := fld m.dest 0 12
      let ok := (byte == 0 || byte == 8) && (m.data.length == 4 || m.data.length == 8)
      let s := if ok then sendRhz s (.doorbell n byte (bytesBv 64 m.data)) else s
      (if m.delivered then .reply .ok [] else .applied, s)
  | none => (.reply .owner [], s)

/-- A host-memory access of a message (R172, R173). -/
def hostTake (s : State) (m : Msg) : Taken × State :=
  match hostAddr s (entryOfTag s m.tenant) (aHostOff m.dest) (msgBytes m) with
  | .error r => (.reply r [], s)
  | .ok a =>
    if m.op = opReadReq then (.applied, hostRead s (.answer m) a (msgBytes m))
    else (if m.delivered then .reply .ok [] else .applied, hostWrite s a m.data)

/-- A SEND at its landing stand (R182, R183). -/
def sendTake (s : State) (st : StandId) (m : Msg) : Taken × State :=
  match landSlot s st m with
  | none => (.reply .addrRange [], raise s cNoSlot st.val 0 0)
  | some j =>
    if m.tenant ≠ chTag (chanWord s st.val j 0) then (.reply .owner [], s)
    else match land s st j m with
    | (none, s) => (.applied, s)
    | (some .busy, s) => (.busy, s)
    | (some r, s) => (servedTaken m r, s)

/-- A request breaks the forms, the range or the alignment of its space (R45, R69); an access to a release word meets the order of R184
instead. -/
def memBad (m : Msg) : Bool :=
  let n := msgBytes m
  let edge := aSpace m.dest != 0 || aDp m.dest
  !addrFormOk m.dest || !classOk m.dest m.op ||
  ((releaseSlot m.dest).isNone && ((edge && !directRangeOk m.dest n) || (m.op == opAtomic && decide (m.dest.toNat % n ≠ 0))))

/-- A twin of a home of this message is at a hub that has stopped, so that the response waits for it (R67, R484; log 53). -/
def twinWaits (s : State) (st : StandId) (m : Msg) : Bool :=
  (msgPieces m.dest m.data.length).any (fun p => match serveHome st true s p.addr with
    | .bank a b => (match twinOf s a b with | some (_, t, _) => frozenAt s t.val && !girdled s t.val | none => false)
    | _ => false)

/-- A WRITE, READ_REQ or ATOMIC to an address (R45, R59, R69). A ring context area comes before the release block (R168, R293). -/
def memTake (s : State) (st : StandId) (m : Msg) : Taken × State :=
  let n := msgBytes m
  if memBad m then (.reply .addrRange [], s)
  else if isSend m then sendTake s st m
  else match aSpace m.dest with
  | 1 => targetTake s st m
  | 2 =>
    let (r, d) := syncRead s (aObject m.dest) (aSyncWord m.dest)
    (.reply r d, s)
  | 4 => hostTake s m
  | _ =>
    if aSpace m.dest = 3 ∧ aDoorbell m.dest then doorbellTake s m
    else match (if inCtxArea s st.val (aMbox m.dest) n then none else releaseSlot m.dest) with
    | some j =>
      if !inService s st.val then (.reply .notReady [], s)
      else if j < 128 then
        let (r, s) := releaseAccess s st j m.tenant (relAccess m)
        (match r with | .ok d => .reply .ok d | .fail e _ => .reply e [] | .busy => .busy, s)
      else (.reply .addrRange [], s)
    | none =>
      let (r, s) :=
        if m.op = opReadReq then memRead s m.tenant false (serveHome st false) m.dest n
        else if m.op = opAtomic then atomicAt s st m
        else memWrite s m.tenant false (serveHome st true) m.dest m.data
      match r with
      | .ok _ => (if m.op ≠ opReadReq ∧ aSpace m.dest = 0 ∧ twinWaits s st m then .applied else servedTaken m r, s)
      | _ => (servedTaken m r, s)

/-- A contribution, tile or stage message at a stand's reducer (R211, R259, R255). -/
def reduceTake (s : State) (st : StandId) (m : Msg) : Taken × State :=
  match msgLow m with
  | 2 =>
    (match tileJudge s st m with
    | .refuse r => (.reply r [], s)
    | .busy => (.busy, s)
    | .take => (.applied, tileTake s st m))
  | 3 =>
    (match stageJudge s st m with
    | .refuse r => (.reply r [], stageRefused s st m)
    | .busy => (.busy, s)
    | .take => (.applied, stageTake s st m))
  | _ =>
    match cmbJudge s st m with
    | .refuse r => (.reply r [], cmbRefused s st m)
    | .busy => (.busy, s)
    | .take => (.applied, cmbTake s st m)

/-- An MCAST message at a member's hub (R198): a close with DELIVERED is answered by the report, later. -/
def mcastTake (s : State) (st : StandId) (m : Msg) : Taken × State :=
  match mcastSlot s st m with
  | .error r => (.reply r [], if r = .addrRange then raise s cNoSlot st.val 0 0 else s)
  | .ok j => (.applied, mcastApply s st j m)

/-- A WAIT of another die registers at the home of its object (R326, R327): reported at once, held as a watch, or refused because the home
is full, which its unit is told by NOT_READY. -/
def farRegister (s : State) (n : Nat) (target : BitVec 32) (f : FarUnit) : State :=
  let h := objHome n
  if objLost s n then farReport s h f .poison
  else if !(syncObj s n).alloc then farReport (misuse s n) h f .addrRange
  else if waitHolds (syncObj s n) target then farReport s h f .ok
  else if 128 ≤ (watchesOf s n).length then farReport s h f .notReady
  else setWatches s h (watchesOf s n ++ [{ obj := n, target := target, acc := accOf f.no, desc := f.id, far := some f }])

/-- The report of a watch of another die reaches the stand of the unit that waits: it goes on over the rhizome (R32), or the unit polls
from now (R327). -/
def farReported (s : State) (no id : Nat) (r : Status) : State :=
  match oget s.sync.waits no with
  | none => s
  | some w =>
    if w.desc ≠ id ∨ w.mode ≠ .asking ∨ namesThisDie s w.addr then s
    else if r = .notReady then { s with sync := { s.sync with waits := oset s.sync.waits no (some { w with mode := .polling }) } }
    else reportTo s (accOf no) id r

/-- A leg of a WAIT that another die has sent, or the request of a node there for a partial (R32, R282, R326). -/
def farTake (s : State) (st : StandId) (m : Msg) : State :=
  let no := leAt m.data 1 2
  let id := leAt m.data 3 4
  let v := leAt m.data 7 4
  let f : FarUnit := { src := m.src, no := no, id := id }
  let n := aObject m.dest
  match leAt m.data 0 1 with
  | 1 => if aSpace m.dest = 2 then farRegister s n (BitVec.ofNat 32 v) f else s
  | 4 => askTake s st m.data
  | 2 => setWatches s (objHome n) ((watchesOf s n).filter (fun w => decide (w.far ≠ some f)))
  | _ => farReported s no id (statusOfCode v)

/-- A CTRL frond at a stand (R32, R155): a work item of this die waits for WORK_ITEM_RECEIVE already; one of another die is
kept with its message until it is answered. -/
def ctrlTake (s : State) (st : StandId) (m : Msg) : Taken × State :=
  if fld m.src 6 20 = selfUpper s then (.applied, s)
  else if farLeg m then (.applied, farTake s st m)
  else
    let w := itemOf m.data
    let n := (itemMsgs w.len).length
    let x : ItemSt := { w := w, ex := if aSpace m.dest = 4 then .hostAgent else .mover st, ctrl := some m, todo := n, unack := n,
                          reading := if w.fill.isSome then 0 else n }
    (.applied, { s with host := { s.host with nextItem := s.host.nextItem + 1, items := oset s.host.items s.host.nextItem (some x) } })

/-- A SIGNAL at its home's die (R321 to R324). -/
def signalTake (s : State) (m : Msg) : Taken × State :=
  if aSpace m.dest ≠ 2 ∨ aSyncWord m.dest ≠ 0 ∨ !addrFormOk m.dest then (.reply .addrRange [], s)
  else
    let (r, s) := signalOp s (aObject m.dest) (bytesBv 32 m.data)
    (if r = .ok ∧ !m.delivered then .applied else .reply r [], s)

/-- A message is taken by its class (R45). -/
def takeMsg (s : State) (st : StandId) (m : Msg) : Taken × State :=
  match lengthBad m with
  | some ev => (.reply .lenRange [], if ev then raise s cLength st.val 0 0 else s)
  | none =>
    if inHold s st m then (.busy, s)
    else if m.op = opReduce then reduceTake s st m
    else if m.op = opMcast then mcastTake s st m
    else if m.op = opCtrl then ctrlTake s st m
    else if m.op = opSignal then signalTake s m
    else memTake s st m

/-- The message is a spilled one that has not landed (R117). -/
def stillSpilled (s : State) (st : StandId) (m : Msg) : Bool :=
  match landSlot s st m with
  | some j => (chanCnt s st.val j).spill.any (fun x => x.seq == m.seq)
  | none => false

/-- The status a duplicate WRITE with DELIVERED is answered with: what the checks give its address now (R117). -/
def dupStatus (s : State) (st : StandId) (m : Msg) : Status :=
  if memBad m then .addrRange
  else if isSend m then
    (match landSlot s st m with
    | none => .addrRange
    | some j => if m.tenant ≠ chTag (chanWord s st.val j 0) then .owner
                else if m.data.isEmpty then .ok else writeStatus s m.tenant (serveHome st true) m.dest m.data.length)
  else match aSpace m.dest with
  | 1 => (match serveHome st true s m.dest with | .refuse r => r | _ => .ok)
  | 4 => (match hostAddr s (entryOfTag s m.tenant) (aHostOff m.dest) m.len.toNat with | .ok _ => .ok | .error r => r)
  | _ =>
    if aSpace m.dest = 3 ∧ aDoorbell m.dest then
      (match tenantAt s (fld m.dest 12 12) with | some t => if t.tag = m.tenant then .ok else .owner | none => .owner)
    else writeStatus s m.tenant (serveHome st true) m.dest m.data.length

/-- What a duplicate has again (R117, R354). The refusal stub of a READ_REQ that was applied has no length to read, and is answered LEN_RANGE
(log 92). -/
def againMsg (s : State) (st : StandId) (m : Msg) : Taken × State :=
  if m.op = opReadReq then
    (if aSpace m.dest = 1 ∧ targetHeld s st m then (.applied, s) else takeMsg s st m)
  else if m.op = opWrite then
    (if aSpace m.dest = 1 then (if targetHeld s st m then (.applied, s) else (.reply (dupStatus s st m) [], s))
     else if !m.delivered || (isSend m && stillSpilled s st m) then (.applied, s)
     else (.reply (dupStatus s st m) [], s))
  else if m.op = opSignal ∧ m.delivered then
    (.reply (if objLost s (aObject m.dest) then .remoteWriteFault else if (syncObj s (aObject m.dest)).alloc then .ok else .addrRange) [], s)
  else (.applied, s)

/-- A whole request message at the hub of a stand (R60, R64, R82, R115). One from another die is refused BUSY during dormancy, but for a
SIGNAL, which is already inside the die and applied (R343); a frozen hub takes none (R484). What comes on VC 5 or 6 is traffic within the
block whose effect the step that sent it has had (R83; log 39, 96). Dormancy and the die's coordinates come before the freshness of R115, and
what is refused or discarded here, before the table of R115, does not renew the entry of its flow (R114; log 113). -/
def arrive (st : StandId) (m : Msg) (s : State) : State :=
  if girdled s st.val || frozenAt s st.val || m.vc == vcSpill || m.vc == vcBackground then s
  else if dormHeld s && fld m.src 6 20 != selfUpper s && m.op != opSignal then busyNack s st m
  else
    let (m, s) := regain s m
    if !namesThisDie s m.dest then raise (answer s st m .addrRange []) cDieMismatch st.val 0 0
    else if m.broken then (if m.op = opMcast then mcastBroken s st m else s)
    else if !isFresh s m then raise s cStaleCopy st.val 0 0
    else match strayTo s st m with
    | some b => if m.fwd then busyNack s st m else forwardHome s st m b
    | none =>
      let (m, s) := markFwd s m
      byEntry s st m (fun s => takeMsg s st m) (fun s => againMsg s st m)

def execMessageArrival (st : StandId) (m : Msg) (s : State) : Step := runMsg s (arrive st m)

/-- The same for a message of one class: a row of its own receives nothing else. -/
def execMcastReceive (st : StandId) (m : Msg) (s : State) : Step :=
  runMsg s (fun s => if m.op = opMcast then arrive st m s else s)
def execContributionReceive (st : StandId) (m : Msg) (s : State) : Step :=
  runMsg s (fun s => if m.op = opReduce ∧ msgLow m < 2 then arrive st m s else s)
def execTileReceive (st : StandId) (m : Msg) (s : State) : Step :=
  runMsg s (fun s => if m.op = opReduce ∧ msgLow m = 2 then arrive st m s else s)
def execStageMessageReceive (st : StandId) (m : Msg) (s : State) : Step :=
  runMsg s (fun s => if m.op = opReduce ∧ msgLow m = 3 then arrive st m s else s)
def execTargetRequestReceive (st : StandId) (m : Msg) (s : State) : Step :=
  runMsg s (fun s => if aSpace m.dest = 1 ∧ (m.op = opWrite ∨ m.op = opReadReq) then arrive st m s else s)

/-- 200 ns after the oldest acceptance that is not acknowledged (R116). -/
def ackTimer (st : StandId) (key : FlowKey) (s : State) : State :=
  match findEntry s st key with
  | none => s
  | some e =>
    if e.unacked = 0 then s
    else
      let s := advanceTo s (e.oldest + 200)
      sendAck (putEntry s st { e with unacked := 0 }) st key 0 e.e 0 e.rmask

def execAckTimer (st : StandId) (key : FlowKey) (s : State) : Step := run s (ackTimer st key)

/-- The range of a WRITE that ends in TIMEOUT (R67, R187). -/
def timeoutBytes (s : State) (x : Done) : State :=
  if x.status = .timeout ∧ x.m.op = opWrite ∧ namesThisDie s x.m.dest ∧ (aSpace x.m.dest = 0 ∨ (aSpace x.m.dest = 3 ∧ !aDoorbell x.m.dest)) then
    freeRange s x.m.tenant x.m.dest x.m.data.length
  else s

/-- Transport acknowledgements, responses and timers at the source units (R113, R116, R118, R119, R112). -/
def execTransportAckReceive (u : SrcUnit) (a : AckMsg) (s : State) : Step := runMsg s (fun s => later (ackReceive s u a))
def execResponseReceive (u : SrcUnit) (m : Msg) (s : State) : Step := runMsg s (fun s => later (responseReceive s u m))
def execRetransmitTimeout (u : SrcUnit) (impl : Bool) (chan : BitVec 12) (s : State) : Step :=
  runMsg s (fun s => later (retransmit s u (flowKey u impl chan.toNat)))
def execMessageTimeout (u : SrcUnit) (impl : Bool) (chan : BitVec 12) (s : State) : Step :=
  runMsg s (fun s =>
    let (l, s) := timeoutFlow s u (flowKey u impl chan.toNat)
    later (l, l.foldl timeoutBytes s))
def execImplicitSlotFree (u : SrcUnit) (s : State) : Step := runMsg s (fun s => later (slotFreed s u))

/-- A core answers a target request (R353, R354): its status and data go back to the requester unchanged. A port that takes nothing takes no
answer (R374, R375, R484). -/
def trAnswer (st : StandId) (tid : BitVec 8) (status : BitVec 16) (data : List Byte) (s : State) : State :=
  if portClosed s st then s
  else
  let s := hungEnd s st .tr
  let known := allStatus.any (fun r => statusCode r == status.toNat)
  let off := tid.toNat
  match (if off < 32 then oget s.port.tgts (targetKey st off) else none) with
  | none => raise s cBadTr st.val 0 0
  | some x =>
    if !known then raise s cBadTr st.val 0 0
    else
      let s := if x.taken then s else targetsTaken (hungEnd s st .tq) st x.no
      let s := { s with port := { s.port with tgts := oset s.port.tgts (targetKey st off) none } }
      let r := statusOfCode status.toNat
      let d := if x.m.op = opReadReq ∧ r = .ok then sub data 0 (msgBytes x.m) else []
      answer (lvl s st.val 7 d.length) st x.m r d

def execTrAnswer (st : StandId) (tid : BitVec 8) (status : BitVec 16) (data : List Byte) (s : State) : Step :=
  run s (trAnswer st tid status data)

end Sys2Proof.Machine
end

