-- ==== Sys2Proof/Machine/Edges.lean ====
section
/-! DEFINITION. Fronds that leave the die: the slot of a bridge module and the hall port's wait for its peer (R26, R379 to R382,
R393, R397, R102). -/

namespace Sys2Proof.Machine

/-- CRC-4 of a tag's bits [27:0]: x^4 + x + 1, initial value 0xF, most significant bit first (R380). -/
def crc4 (t : Nat) : Nat := (msbBits 28 t).foldl (crcStep 4 0x3) 0xF

/-- A tag of its low 28 bits, with `TCRC` (R380). -/
def sealTag (t : Nat) : BitVec 32 := BitVec.ofNat 32 (t + crc4 t * 2 ^ 28)

/-- The VC that a frond uses at a facing edge input: a skid ends at the outward port, and its fronds go on in VC 0 (text of
R102; log 20). -/
def edgeTxVc (vc : Nat) : Nat := if vc = 2 then 0 else vc

/-- The slot of a frond on a module (R379, R380): KIND 5 is an abort tail; BODY, TAIL and ABORT carry no stem (R381). -/
def slotOf (pl : PlaneId) (f : Frond) : Slot :=
  let k := stKind f.stem
  let tk := if k = 3 ∧ stValid f.stem = 127 then 5 else k
  let vc := edgeTxVc (stVc f.stem)
  let stem := if stVc f.stem = 2 then sealStem (BitVec.ofNat 128 (f.stem.toNat - 2 * 2 ^ 122)) else f.stem
  { tag := sealTag (tk + pl.val % 2 * 8 + vc * 16 + f.pcheck.toNat * 2 ^ 12), payload := f.payload,
    stem := if startsMsg f.stem then stem else 0 }

/-- What a slot puts on the lanes, unit interval by unit interval: the 64 data lanes and the 4 tag lanes (R379). UI 0 to 7 carry the payload
and the tag; the stem of a SINGLE, HEAD or CTRL follows in UI 8 and 9 with the tag lanes at 0. -/
def slotUis (x : Slot) : List (BitVec 64 × BitVec 4) :=
  let k := x.tag.toNat % 8
  (List.range 8).map (fun i => (BitVec.ofNat 64 (fld x.payload (i * 64) 64), BitVec.ofNat 4 (fld x.tag (i * 4) 4))) ++
  (if k = 0 ∨ k = 1 ∨ k = 4 then (List.range 2).map (fun i => (BitVec.ofNat 64 (fld x.stem (i * 64) 64), 0)) else [])

/-- The slot that unit intervals carry (R379). -/
def slotOfUis (l : List (BitVec 64 × BitVec 4)) : Slot :=
  let n (w : Nat) (g : BitVec 64 × BitVec 4 → Nat) (l : List (BitVec 64 × BitVec 4)) : Nat := l.foldr (fun u a => g u + a * 2 ^ w) 0
  { tag := BitVec.ofNat 32 (n 4 (fun u => u.2.toNat) (l.take 8)), payload := BitVec.ofNat 512 (n 64 (fun u => u.1.toNat) (l.take 8)),
    stem := BitVec.ofNat 128 (n 64 (fun u => u.1.toNat) (l.drop 8)) }

/-- An IDLE slot that returns no credit (R379, R380). -/
def idleSlot : Slot := { tag := sealTag 6, payload := 0, stem := 0 }

/-- Send a slot on a module of an edge. In the fatal safe state and in a dump only IDLE slots without credits go (R433, R484). -/
def sendAnySlot (s : State) (e m : Nat) (x : Slot) : State :=
  if (fatalLatched s || frozenAt s (edgeStand e (m / 2))) && decide (x ≠ idleSlot) then s
  else emit s (.slot ⟨e % 4, Nat.mod_lt _ (by decide)⟩ ⟨m % 16, Nat.mod_lt _ (by decide)⟩ x)

/-- Send a frond's slot, counted in `OBS_MOD` (R467). -/
def sendSlot (s : State) (e m : Nat) (x : Slot) : State :=
  if fatalLatched s then s else sendAnySlot (tally s (0xC3800 + e * 256 + m * 16) 1) e m x

/-- Return a credit of an edge input: an IDLE slot with `CRV`, while the module is UP (R382, R386). -/
def sendCredit (s : State) (e m : Nat) (pl : PlaneId) (vc : Nat) : State :=
  if (modAt s e m).state = .up then
    sendAnySlot s e m { tag := sealTag (6 + 2 ^ 7 + pl.val % 2 * 2 ^ 8 + vc * 2 ^ 9), payload := 0, stem := 0 }
  else s

/-- The MAC address of a hall port of a die, by its physical coordinates (R393). -/
def hallMac (pfx rack tray pkg die n : Nat) : BitVec 48 :=
  BitVec.ofNat 48 (pfx % 2 ^ 24 * 2 ^ 24 + rack % 1024 * 2 ^ 14 + tray % 32 * 2 ^ 9 + pkg % 8 * 2 ^ 6 + die % 4 * 2 ^ 4 + n % 8)

/-- `MACPFX` and `ETYPE` (R403). -/
def macPfx (s : State) : Nat := regFld s 0xB8000 40 24
def hallEtype (s : State) : Nat := regFld s 0xB8000 24 16

/-- The own address of hall port `h` (R393). -/
def ownMac (s : State) (h : Nat) : BitVec 48 :=
  hallMac (macPfx s) (regFld s 0x18 16 10) (regFld s 0x18 11 5) (regFld s 0x18 8 3) (regFld s 0x18 0 2) h

/-- The peer of a frond that leaves by hall port `h`: the same port of the die that holds the destination, by the tier maps of the
frond's epoch (R393). -/
def peerMac (s : State) (h : Nat) (stem : BitVec 128) : BitVec 48 :=
  let par := stEpoch stem
  let a := stDest stem
  hallMac (macPfx s) (tierPhys s par a 3) (tierPhys s par a 2) (tierPhys s par a 1) (tierPhys s par a 0) h

/-- A hall port. -/
def hallAt (s : State) (h : Nat) : HallPort := cget {} s.hall.ports h

/-- Set a hall port. -/
def setHall (s : State) (h : Nat) (x : HallPort) : State := { s with hall := { s.hall with ports := cset {} s.hall.ports h x } }

/-- Change a hall port. -/
def modHall (s : State) (h : Nat) (f : HallPort → HallPort) : State := setHall s h (f (hallAt s h))

/-- `RTO` in ns, and `RETRIES` (R403). -/
def hallRto (s : State) : Nat := 500 * max 1 (regFld s 0xB8000 8 8)
def hallRetries (s : State) : Nat := regFld s 0xB8000 4 4

/-- Registers of a hall port (R403). -/
def hallOff (h : Nat) : Nat := 0xB8100 + h * 0x40

/-- The Ethernet header and the Quoren header of a frame (R393, R394). -/
def hallHead (s : State) (h : Nat) (peer : BitVec 48) (typ n len lseq cum flags : Nat) : List Byte :=
  beBytes 6 peer.toNat ++ beBytes 6 (ownMac s h).toNat ++ beBytes 2 (hallEtype s) ++
  leBytes 1 (1 + typ * 16) ++ leBytes 1 n ++ leBytes 2 len ++ leBytes 4 lseq ++ leBytes 4 cum ++ leBytes 1 flags ++ leBytes 3 0

/-- A port can hand a frame to its MAC: it is up, not quiesced and its tap stand in service (R28, R392, R401); a frozen or fatal die sends
nothing (R433, R484). -/
def hallSends (s : State) (h : Nat) : Bool :=
  let x := hallAt s h
  x.up && !x.quiet && !girdled s (hallTap h) && !fatalLatched s && !frozenAt s (hallTap h)

/-- Hand a frame to the MAC. -/
def hallEmit (s : State) (h : Nat) (peer : BitVec 48) (b : List Byte) : State :=
  if hallSends s h then emit s (.hall ⟨h % 8, Nat.mod_lt _ (by decide)⟩ peer b) else s

/-- A control frame, 60 bytes to the MAC (R394, R396): types 1 ACK, 2 OPEN, 3 OPEN_ACK, 4 REFUSE, 5 SKIP. -/
def hallControl (s : State) (h : Nat) (peer : BitVec 48) (typ lseq cum flags sack : Nat) : State :=
  hallEmit s h peer (hallHead s h peer typ 0 32 lseq cum flags ++ leBytes 8 sack ++ List.replicate 22 0)

/-- The 80 bytes of a frond entry (R394). -/
def hallEntry (f : HallFrond) : List Byte := leBytes 16 f.stem.toNat ++ leBytes 64 f.payload.toNat

/-- Send a DATA frame (R394, R467). -/
def hallData (s : State) (h : Nat) (peer : BitVec 48) (pl : PlaneId) (l : List HallFrond) (lseq : Nat) (seqd : Bool) : State :=
  hallEmit (if hallSends s h then tally s (0xC3C00 + h * 16) (64 * l.length) else s) h peer
    (hallHead s h peer 0 l.length (16 + 80 * l.length) lseq 0 ((if seqd then 1 else 0) + pl.val * 4) ++ l.flatMap hallEntry)

/-- A frond that ends a message. -/
def endsMsg (x : BitVec 128) : Bool := stKind x == 0 || stKind x == 3 || stKind x == 4

/-- The bytes that a port's replay store holds (R397). -/
def replayBytes (x : HallPort) : Nat :=
  x.send.foldl (fun n p => match p.2 with
    | some c => c.frames.foldl (fun n f => n + 16 + 80 * f.fronds.length) n | none => n) 0

/-- A send context. -/
def sendCtx (s : State) (h : Nat) (peer : BitVec 48) : Option SendCtx := oget (hallAt s h).send peer.toNat

/-- Set a send context. -/
def setSend (s : State) (h : Nat) (peer : BitVec 48) (c : Option SendCtx) : State :=
  modHall s h (fun x => { x with send := oset x.send peer.toNat c })

/-- The fronds of whole messages that wait for a peer on a plane, in order, at most 114; a message of which a part has gone on goes on
with it (R396, R397). -/
def hallReady (x : HallPort) (peer : BitVec 48) (pl : PlaneId) : List PeerFrond :=
  let l := x.wait.filter (fun w => decide (w.peer = peer) && decide (w.plane = pl))
  let whole (w : PeerFrond) (r : List PeerFrond) : Bool :=
    endsMsg w.f.stem || r.any (fun y => stVc y.f.stem == stVc w.f.stem && endsMsg y.f.stem)
  (((List.range l.length).filterMap (fun i => (l[i]?).bind (fun w => if whole w (l.drop (i + 1)) then some w else none))).take 114)

/-- Fronds of a frame of an unsequenced context: whole messages only (R397). A message holds at most 65 fronds. -/
def cutWhole (l : List PeerFrond) : List PeerFrond :=
  l.filter (fun w => endsMsg w.f.stem || l.any (fun y => stVc y.f.stem == stVc w.f.stem && endsMsg y.f.stem))

/-- The send window of a context is open: less than 64 beyond the oldest frame not acknowledged, with room in the replay store (R399). -/
def windowOpen (x : HallPort) (c : SendCtx) (n : Nat) : Bool :=
  (match c.frames.head? with | some f => decide ((c.next - f.lseq).toNat < 64) | none => true) &&
  decide (replayBytes x + 16 + 80 * n ≤ 2 ^ 20)

/-- Remove fronds from the waiting ones, the first equal one for each. -/
def takeWaiting (w l : List PeerFrond) : List PeerFrond := l.foldl (fun w y => w.erase y) w

/-- Send what waits for a peer on a plane, while its context lets it, `n` frames at most (R397, R399). -/
def hallFlush (h : Nat) (peer : BitVec 48) (pl : PlaneId) : Nat → State → State
  | 0, s => s
  | n + 1, s =>
    let x := hallAt s h
    match sendCtx s h peer, hallReady x peer pl with
    | some c, a :: r =>
      let l := a :: r
      (match c.phase with
      | .opening => s
      | .isOpen =>
        if windowOpen x c l.length then
          let s := setHall s h { x with wait := takeWaiting x.wait l }
          let fr : TxFrame := { lseq := c.next, plane := pl, fronds := l.map PeerFrond.f, sends := 1, last := s.time }
          let s := setSend s h peer (some { c with next := c.next + 1, frames := c.frames ++ [fr], since := s.time })
          hallFlush h peer pl n (hallData s h peer pl fr.fronds fr.lseq.toNat true)
        else s
      | .unseq =>
        match cutWhole l with
        | [] => s
        | b :: q =>
          let l := b :: q
          let s := setHall s h { x with wait := takeWaiting x.wait l }
          let s := regCount s (hallOff h + 16) 0 16 1
          hallFlush h peer pl n (hallData s h peer pl (l.map PeerFrond.f) 0 false))
    | _, _ => s

/-- Send what waits for a peer on every plane. -/
def hallFlushAll (s : State) (h : Nat) (peer : BitVec 48) : State :=
  planes.foldl (fun s pl => hallFlush h peer pl ((hallAt s h).wait.length + 1) s) s

/-- A hall port takes a frond from its tap stand's hub: it waits for its peer, and goes with its whole message where the context is open
or unsequenced (R397). A BODY or TAIL goes where its HEAD goes. In the fatal safe state it is dropped (R433). -/
def hallTakeFrond (s : State) (h : Nat) (pl : PlaneId) (f : Frond) : State :=
  if fatalLatched s then s
  else
    let x := hallAt s h
    let k := pl.val * 8 + stVc f.stem
    let peer := if startsMsg f.stem then peerMac s h f.stem else cget 0 x.dest k
    let s := setHall s h { x with wait := x.wait ++ [⟨peer, pl, ⟨f.stem, f.payload⟩⟩], dest := cset 0 x.dest k peer }
    if endsMsg f.stem then hallFlush h peer pl (x.wait.length + 1) s else s

/-- A frond waits for its peer's context: it is being opened, or is still to be (R397). -/
def waitsOpen (s : State) (h : Nat) (peer : BitVec 48) : Bool :=
  match sendCtx s h peer with
  | none => true
  | some c => decide (c.phase = .opening)

/-- The port takes no more fronds of a plane and VC: one of them waits for its context, or a whole message of them waits (R397). -/
def hallFull (s : State) (h pl vc : Nat) : Bool :=
  (hallAt s h).wait.any (fun w => w.plane.val == pl && stVc w.f.stem == vc && (endsMsg w.f.stem || waitsOpen s h w.peer))

end Sys2Proof.Machine
end

