-- ==== Sys2Proof/Machine/Mesh.lean ====
section
/-! DEFINITION. Routers: fronds arriving at a plane input, checks and discards, routing, credits, audits, flushes,
output arbitration and stalls (chapter 03; R131, R133, R388). -/

namespace Sys2Proof.Machine

/-- Key of a plane input (also of its audit). -/
def inKey (st pl inp : Nat) : Nat := (st * 4 + pl) * 6 + inp

/-- A VC of a plane input. -/
def inVc (s : State) (st pl inp vc : Nat) : InVc := cget {} s.mesh.inv (inKey st pl inp * 8 + vc)

/-- Set a VC of a plane input. -/
def setInVc (s : State) (st pl inp vc : Nat) (x : InVc) : State :=
  { s with mesh := { s.mesh with inv := cset {} s.mesh.inv (inKey st pl inp * 8 + vc) x } }

/-- A router output. -/
def outPort (s : State) (st pl outp : Nat) : OutPort := cget {} s.mesh.outs (inKey st pl outp)

/-- Set a router output. -/
def setOutPort (s : State) (st pl outp : Nat) (x : OutPort) : State :=
  { s with mesh := { s.mesh with outs := cset {} s.mesh.outs (inKey st pl outp) x } }

/-- A credit audit runs on a plane input (R88). -/
def auditing (s : State) (st pl inp : Nat) : Bool := cget false s.mesh.audit (inKey st pl inp)

/-- Start or end an audit. -/
def setAudit (s : State) (st pl inp : Nat) (b : Bool) : State :=
  { s with mesh := { s.mesh with audit := cset false s.mesh.audit (inKey st pl inp) b } }

/-- SUB of a mesh event: [4:2] input port, [1:0] plane (R407). -/
def meshSub (pl inp : Nat) : Nat := inp * 4 + pl

/-- An input or output as a port number below 6. -/
def portOf (n : Nat) : Fin 6 := ⟨n % 6, Nat.mod_lt _ (by decide)⟩

/-- Where a router sends a frond, or why it discards it (R97, R98, R103, R388): `goes`; EXIT names no port; UNREACHABLE or
a girdled link; a module that is not UP; or a girdled target, answered in its place (R61). -/
inductive Route where
  | goes (outp : Fin 6)
  | noExit
  | unreachable
  | moduleDown (e m : Nat)
  | deadTarget
  deriving DecidableEq, Repr

/-- An output toward a neighbour or a bridge that can carry a frond of a plane, or why it cannot. A frond whose target's stand is girdled
is answered where the way on is girdled, at the last stand before the girdle (R61). -/
def routeOut (s : State) (st pl dir pstand exit : Nat) : Route :=
  match neighbour st dir with
  | some n =>
    if girdled s n then (if girdled s pstand ∧ exit = 0 then .deadTarget else .unreachable)
    else if (match planeLink st pl dir with | some l => linkGirdled s l | none => false) then .unreachable
    else .goes (portOf dir)
  | none =>
    let m := moduleOf (edgePos dir st) pl
    if (modAt s dir m).state = .up then .goes (portOf dir) else .moduleDown dir m

/-- The port that EXIT names at PSTAND (R98). A hall port that is down or quiesced holds the frond (R19). -/
def routeExit (s : State) (st pl exit : Nat) : Route :=
  match exit with
  | 0 => .goes 4
  | 1 => if (tapHall st).isSome then .goes 5 else .noExit
  | 2 => if sy st = 0 then routeOut s st pl 0 st exit else if sy st = 5 then routeOut s st pl 2 st exit else .noExit
  | _ => if sx st = 7 then routeOut s st pl 1 st exit else if sx st = 0 then routeOut s st pl 3 st exit else .noExit

/-- Packet-mode routing with the bank of the frond's parity (R97, R98, R106). -/
def routePacket (s : State) (par : Bool) (st : StandId) (pl pstand exit : Nat) : Route :=
  if pstand = st.val then routeExit s st.val pl exit
  else
    let p := fld (bkGet s par (stdOff st (0x200 + pstand * 8))) (pl * 4) 3
    if p < 4 ∧ (neighbour st.val p).isSome then routeOut s st.val pl p pstand exit else .unreachable

/-- The code of an input port in a skid entry: 0 N, 1 E, 2 S, 3 W, 4 LOCAL, 5 HALL (R102). -/
def skidCode (p : Nat) : Nat := p

/-- The skid slot that a VC 2 HEAD or SINGLE matches, with its output (R103). A source slot injects on its primary or, with ALT set, on
its alternate route (R104). At any other slot P_IN is tried first; where A_IN names the same port too, the spec does not say which
output is taken (log 86). -/
def skidMatch (s : State) (par : Bool) (st : StandId) (pl inp src pstand exit : Nat) : Option (Nat × Nat) :=
  let hit (j : Nat) : Option (Nat × Nat) :=
    let w := bkGet s par (stdOff st (0x800 + j * 32))
    if bitAt w 63 && fld w 58 2 == pl && fld w 44 6 == src && fld w 38 6 == pstand && fld w 36 2 == exit then
      let prim := if fld w 27 3 = skidCode inp then some (j, fld w 24 3) else none
      let alt := if fld w 21 3 = skidCode inp then some (j, fld w 18 3) else none
      if bitAt w 60 then (if bitAt w 62 then alt else prim) else prim.or alt
    else none
  (List.range 64).findSome? hit

/-- The output of a VC 2 frond that starts a message (R103); a hall port holds as in packet mode. -/
def routeSkid (s : State) (par : Bool) (st : StandId) (pl inp src pstand exit : Nat) : Route :=
  match skidMatch s par st pl inp src pstand exit with
  | none => .unreachable
  | some (_, o) =>
    if o < 4 then routeOut s st.val pl o pstand exit
    else if o = 4 then .goes 4
    else if o = 5 ∧ (tapHall st.val).isSome then .goes 5
    else .unreachable

/-- The skid slot that a frond starting a message on VC 2 matches (R103). -/
def skidOf (s : State) (st : StandId) (pl inp : Nat) (f : Frond) : Option (Nat × Nat) :=
  skidMatch s (stEpoch f.stem) st pl inp (fld (stSrc f.stem) 0 6) (fld (header f) 48 6) (fld (header f) 54 2)

/-- The route of a frond that starts a message (R97, R98, R103). -/
def routeOf (s : State) (st : StandId) (pl inp : Nat) (f : Frond) : Route :=
  let h := header f
  let par := stEpoch f.stem
  if stVc f.stem = 2 then routeSkid s par st pl inp (fld (stSrc f.stem) 0 6) (fld h 48 6) (fld h 54 2)
  else routePacket s par st pl (fld h 48 6) (fld h 54 2)

/-- A frond of known VC is lost at an input (R89): the open message is closed downstream with an abort tail, and the VC
enters skip state. A tail that comes into an empty queue begins its wait now (R101). -/
def vcLoss (s : State) (st pl inp vc : Nat) : State :=
  let x := inVc s st pl inp vc
  let q := match x.opened with
    | some o => x.q ++ [{ f := abortTail o.stem o.seq, outp := o.outp, own := true }]
    | none => x.q
  setInVc s st pl inp vc { x with q := q, opened := none, skip := true, since := if x.q.isEmpty then s.time else x.since }

/-- Return a credit for a discarded or taken frond (R85); at an edge input by its module (R382). -/
def giveCredit (s : State) (st : StandId) (pl : PlaneId) (inp : Fin 6) (vc : Nat) : State :=
  match outwardEdge st.val inp.val with
  | some e => sendCredit s e (moduleOf (edgePos e st.val) pl.val) pl vc
  | none => emit s (.credit st pl inp vc)

/-- A frond leaves the queue of an input: its credit returns; an abort tail that the router itself made holds none (R85, R89). -/
def leaveInput (s : State) (st : StandId) (pl : PlaneId) (inp : Fin 6) (vc : Nat) (h : QFrond) : State :=
  if h.own then s else giveCredit s st pl inp vc

/-- Count a frond as delivered, discarded or sent out of the die (R108); an abort tail, which nothing injected, does not count. -/
def countOut (s : State) (st : StandId) (pl : PlaneId) (f : Frond) : State :=
  if isAbort f then s else countEj s (stEpoch f.stem) st.val pl.val 1

/-- Discard a frond of known VC: its credit returns, it counts as discarded, and R89 applies to its VC (R87). -/
def discardKnown (s : State) (st : StandId) (pl : PlaneId) (inp : Fin 6) (f : Frond) : State :=
  let s := countOut (giveCredit s st pl inp (stVc f.stem)) st pl f
  vcLoss s st.val pl.val inp.val (stVc f.stem)

/-- What a flush leaves in a queue: the abort tail of the message whose first fronds have gone on, whether its last is still to come or is in
the queue; a message none of which has gone on is dropped whole (R90). -/
def flushTail (x : InVc) : List QFrond :=
  match x.q with
  | [] => (match x.opened with | some o => [{ f := abortTail o.stem o.seq, outp := o.outp, own := true }] | none => [])
  | h :: _ => if startsMsg h.f.stem then [] else [{ f := abortTail h.f.stem (stSeq h.f.stem), outp := h.outp, own := true }]

/-- Both ends flush a plane-link direction: every frond of the input is dropped, open messages are closed with abort
tails, 8 credits per VC are restored, and a LINK FLUSH event is raised (R90). -/
def flushInput (s : State) (st : StandId) (pl : PlaneId) (inp : Fin 6) : State :=
  let s := (List.range 8).foldl (fun s vc =>
    let x := inVc s st.val pl.val inp.val vc
    let s := x.q.foldl (fun s h => countOut s st pl h.f) s
    setInVc s st.val pl.val inp.val vc { q := flushTail x, since := s.time }) s
  let s := match (if inp.val < 4 then neighbour st.val inp.val else none) with
    | some n =>
      let back := (inp.val + 2) % 4
      let o := outPort s n pl.val back
      setOutPort s n pl.val back { o with credits := List.replicate 8 8, sent := List.replicate 8 0 }
    | none => s
  raise (emit (setAudit s st.val pl.val inp.val false) (.flushed st pl inp)) cFlush st.val (meshSub pl.val inp.val) 0

/-- An output can carry nothing from now on: the fronds queued for it are discarded with their credits, the messages open toward it
go into skip state, and nothing holds its VCs (R86, R89, R98, R388); what stays in such a queue begins its wait anew (R101). Of each message lost, `onStart` has its first frond, and
`onCut` stands for one whose first frond has gone. -/
def discardRouted (s : State) (st : StandId) (pl : PlaneId) (outp : Nat) (onStart : State → Frond → State) (onCut : State → State) : State :=
  let s := (List.range 48).foldl (fun s k =>
    let inp := k / 8
    let vc := k % 8
    let x := inVc s st.val pl.val inp vc
    let gone := x.q.filter (fun f => f.outp.val == outp)
    let isOpen := match x.opened with | some o => o.outp.val == outp | none => false
    if gone.isEmpty && !isOpen then s
    else
      let s := setInVc s st.val pl.val inp vc { x with
        q := x.q.filter (fun f => f.outp.val != outp), opened := if isOpen then none else x.opened, skip := x.skip || isOpen,
        since := s.time, stalled := false }
      let s := gone.foldl (fun s f => countOut (leaveInput s st pl (portOf inp) vc f) st pl f.f) s
      let s := gone.foldl (fun s f => if startsMsg f.f.stem then onStart s f.f else s) s
      let cut := match gone.head? with | some f => !startsMsg f.f.stem | none => isOpen
      if cut then onCut s else s) s
  let o := outPort s st.val pl.val outp
  setOutPort s st.val pl.val outp { o with holder := List.replicate 8 none }

/-- The status that answers a request bound for a girdled stand (R61), a message of an MCAST (R202), a SIGNAL (R324) or a contribution to a queue (R215, by RKIND in
the header's W); none for a class that no rule answers. -/
def deadAnswer (f : Frond) : Option Status :=
  match stOp f.stem with
  | 0 => some .remoteWriteFault
  | 1 => some .poison
  | 3 => some .remoteWriteFault
  | 4 => some .remoteWriteFault
  | 5 => if fld (header f) 56 2 < 2 then some .remoteWriteFault else none
  | 6 => some .remoteWriteFault
  | 7 => some .remoteWriteFault
  | _ => none

/-- A write or atomic of an entry whose primary is in service now: a swap has taken it from the girdled stand, and no such write is answered
under R61 (R428). -/
def swappedAway (s : State) (m : Msg) : Bool :=
  let c := coppice s (aEntry m.dest)
  isWriting m && namesThisDie s m.dest && aSpace m.dest == 0 && !aDp m.dest && copState c == 1 && !girdled s (copPStand c)

/-- A message bound for a girdled stand is answered in its stead, or refused so that its transport sends it again to the entry's new primary
(R61, R428); none for a class that no rule answers. -/
def deadReply (s : State) (st : StandId) (f : Frond) (m : Msg) : Option State :=
  let (m, s) := regain s m
  if swappedAway s m then some (sendAck s st (keyOf m) m.tenant 0 3 0) else (deadAnswer f).map (fun r => answer s st m r [])

/-- A frond that starts a message takes its route or is discarded (R98, R61, R388). -/
def acceptStart (s : State) (st : StandId) (pl : PlaneId) (inp : Fin 6) (f : Frond) : State :=
  let vc := stVc f.stem
  let drop (c : Cause) (loc sub : Nat) : State := raise (discardKnown s st pl inp f) c loc sub 0
  match routeOf s st pl.val inp.val f with
  | .goes o =>
    let x := inVc s st.val pl.val inp.val vc
    let op := if stKind f.stem = 1 then some { stem := f.stem, seq := headSeq f, outp := o : OpenMsg } else none
    setInVc s st.val pl.val inp.val vc
      { x with q := x.q ++ [{ f := f, outp := o }], skip := false, opened := op, since := if x.q.isEmpty then s.time else x.since }
  | .noExit => drop cNoExit st.val (meshSub pl.val inp.val)
  | .unreachable => drop cGirdleDiscard st.val (meshSub pl.val inp.val)
  | .moduleDown e m => drop cModuleDown (locEdge e) m
  | .deadTarget =>
    match deadReply (discardKnown s st pl inp f) st f (headMsg pl f) with
    | some s => s
    | none => drop cGirdleDiscard st.val (meshSub pl.val inp.val)

/-- A BODY or TAIL: in skip state, or with no open message, it is discarded; else it follows its HEAD, unless the link
ahead has been girdled (R89, R98). -/
def acceptRest (s : State) (st : StandId) (pl : PlaneId) (inp : Fin 6) (f : Frond) : State :=
  let vc := stVc f.stem
  let x := inVc s st.val pl.val inp.val vc
  let gone (s : State) : State := countOut (giveCredit s st pl inp vc) st pl f
  match (if x.skip then none else x.opened) with
  | none => gone (setInVc s st.val pl.val inp.val vc { x with skip := x.skip && decide (stKind f.stem ≠ 3) })
  | some o =>
    let ahead := if o.outp.val < 4 then routeOut s st.val pl.val o.outp.val 64 1 else .goes o.outp
    match ahead with
    | .goes _ =>
      setInVc s st.val pl.val inp.val vc
        { x with q := x.q ++ [{ f := f, outp := o.outp }], opened := if stKind f.stem = 3 then none else x.opened,
                 since := if x.q.isEmpty then s.time else x.since }
    | .moduleDown e m =>
      raise (gone (setInVc s st.val pl.val inp.val vc { x with opened := none, skip := decide (stKind f.stem ≠ 3) })) cModuleDown (locEdge e) m 0
    | _ =>
      raise (gone (setInVc s st.val pl.val inp.val vc { x with opened := none, skip := decide (stKind f.stem ≠ 3) }))
        cGirdleDiscard st.val (meshSub pl.val inp.val) 0

/-- An input carries nothing: its link or either stand is girdled (R86, R420). -/
def inputDead (s : State) (st pl inp : Nat) : Bool :=
  girdled s st ||
  (decide (inp < 4) && ((match planeLink st pl inp with | some l => linkGirdled s l | none => false) ||
    (match neighbour st inp with | some n => girdled s n | none => false)))

/-- A frond under way on a plane-link direction that carries no transfer is lost: it counts as discarded (R86, R88, R90, R108), one that fails
CHECK, whose EPOCH is not known, in the current parity (log 82). -/
def lostTransfer (s : State) (st : StandId) (pl : PlaneId) (f : Frond) : State :=
  if checkOk f then countOut s st pl f else countEj s (parity s) st.val pl.val 1

/-- The neighbour at an input is girdled: what comes from it counts neither as received nor as discarded (R108). -/
def fromGirdled (s : State) (st inp : Nat) : Bool := match neighbour st inp with | some n => girdled s n | none => false

/-- A transfer at a plane input (R73, R76, R87 to R90, R98). A frond that fails CHECK counts as discarded in the current parity, since its own
is not known (log 82). -/
def frondReceive (st : StandId) (pl : PlaneId) (inp : Fin 6) (f : Frond) (s : State) : State :=
  let sub := meshSub pl.val inp.val
  if girdled s st.val || frozenAt s st.val || fromGirdled s st.val inp.val then s
  else if inputDead s st.val pl.val inp.val then lostTransfer s st pl f
  else if auditing s st.val pl.val inp.val then
    (let s := lostTransfer s st pl f
     if checkOk f then s else flushInput (raise s cStemCrc st.val sub 0) st pl inp)
  else if !checkOk f then
    setAudit (countEj (raise s cStemCrc st.val sub 0) (parity s) st.val pl.val 1) st.val pl.val inp.val true
  else
    let vc := stVc f.stem
    let x := inVc s st.val pl.val inp.val vc
    if 8 ≤ (x.q.filter (fun h => !h.own)).length then s
    else
    let s := setInVc s st.val pl.val inp.val vc { x with recv := (x.recv + 1) % 16 }
    let s := match neighbour st.val inp.val with
      | some b => if isAbort f then s else { s with epoch := { s.epoch with
          nbFrom := cmod 0 s.epoch.nbFrom ((parNo (stEpoch f.stem) * 48 + b) * 4 + pl.val) (· + 1) } }
      | none => s
    if !pcheckOk f then raise (discardKnown s st pl inp f) cPayloadCrc st.val sub 0
    else if reservedStem f then raise (discardKnown s st pl inp f) cReservedValue st.val sub 0
    else if startsMsg f.stem then acceptStart s st pl inp f
    else acceptRest s st pl inp f

def execFrondReceive (st : StandId) (pl : PlaneId) (inp : Fin 6) (f : Frond) (s : State) : Step :=
  run s (frondReceive st pl inp f)

/-- The VCs whose sent and received counts differ, with the difference modulo 16 (R88). -/
def auditDiff (s : State) (st pl inp : Nat) (counts : BitVec 32) : List (Nat × Nat) :=
  ((List.range 8).map (fun vc => (vc, (fld counts (vc * 4) 4 + 16 - (inVc s st pl inp vc).recv % 16) % 16))).filter (fun p => p.2 != 0)

/-- The sender's counts reach the receiver: exactly one VC differs by 1: one credit and R89 for it; else both ends flush (R88, R90). -/
def auditCounts (st : StandId) (pl : PlaneId) (inp : Fin 6) (counts : BitVec 32) (s : State) : State :=
  if !auditing s st.val pl.val inp.val || frozenAt s st.val then s
  else match auditDiff s st.val pl.val inp.val counts with
  | [(vc, 1)] =>
    let x := inVc s st.val pl.val inp.val vc
    let s := setInVc s st.val pl.val inp.val vc { x with recv := (x.recv + 1) % 16 }
    setAudit (vcLoss (giveCredit s st pl inp vc) st.val pl.val inp.val vc) st.val pl.val inp.val false
  | _ => flushInput s st pl inp

def execCreditAuditCounts (st : StandId) (pl : PlaneId) (inp : Fin 6) (counts : BitVec 32) (s : State) : Step :=
  run s (auditCounts st pl inp counts)

/-- A returned credit: at most the depth of the receiving input (R85, R382). -/
def creditReturn (st : StandId) (pl : PlaneId) (outp : Fin 6) (vc : Fin 8) (s : State) : State :=
  if frozenAt s st.val then s
  else match outwardEdge st.val outp.val with
  | some e =>
    let x := edgeVc s e (edgePos e st.val) pl.val vc.val
    setEdgeVc s e (edgePos e st.val) pl.val vc.val { x with credits := min 32 (x.credits + 1) }
  | none =>
    let o := outPort s st.val pl.val outp.val
    setOutPort s st.val pl.val outp.val { o with credits := o.credits.set vc.val (min 8 (o.credits.getD vc.val 8 + 1)) }

def execCreditReturn (st : StandId) (pl : PlaneId) (outp : Fin 6) (vc : Fin 8) (s : State) : Step :=
  run s (creditReturn st pl outp vc)

/-- A downstream credit for a VC: the stand hub takes fronds without one, and its hall port while it is UP, not quiesced, and has no
whole message of the VC waiting (R19); a plane-link direction under audit carries nothing (R88); an outward port uses the credits of the facing edge input, while its module is UP (R85, R382,
R386, R397; log 12). -/
def creditOk (s : State) (st pl outp vc : Nat) : Bool :=
  if outp = 5 then (match tapHall st with | some h => (hallAt s h.val).up && !(hallAt s h.val).quiet && !hallFull s h.val pl vc | none => true)
  else if outp = 4 then true
  else match outwardEdge st outp with
  | some e => decide ((modAt s e (moduleOf (edgePos e st) pl)).state = .up) &&
      decide (0 < (edgeVc s e (edgePos e st) pl (edgeTxVc vc)).credits)
  | none => decide (0 < (outPort s st pl outp).credits.getD vc 0) &&
      (match neighbour st outp with | some n => !auditing s n pl ((outp + 2) % 4) | none => true)

/-- Spend a credit, and count the frond as sent (R85, R88). -/
def spendCredit (s : State) (st pl outp vc : Nat) : State :=
  if 4 ≤ outp then s
  else match outwardEdge st outp with
  | some e =>
    let v := edgeTxVc vc
    let x := edgeVc s e (edgePos e st) pl v
    setEdgeVc s e (edgePos e st) pl v { x with credits := x.credits - 1, sent := (x.sent + 1) % 16 }
  | none =>
    let o := outPort s st pl outp
    setOutPort s st pl outp { o with credits := o.credits.set vc (o.credits.getD vc 0 - 1), sent := o.sent.set vc ((o.sent.getD vc 0 + 1) % 16) }

/-- The head of a VC's queue at an input, if it goes to an output. -/
def headFor (s : State) (st pl inp vc outp : Nat) : Option Frond :=
  match (inVc s st pl inp vc).q with
  | [] => none
  | x :: _ => if x.outp.val = outp then some x.f else none

/-- The input that may send on a VC of an output now: the holder of the VC, else the next input in round robin that
waits with a frond that starts a message and that `p` admits (R84, R91). R91 gives the round robin for step 1 alone; for VC 2, a DRR VC
and a share class the spec does not say which of several inputs goes first, and the model takes the same turn for all, one pointer for
each output (log 87). -/
def pickInput (s : State) (st pl outp vc : Nat) (p : Fin 6 → Frond → Bool) : Option (Fin 6) :=
  let o := outPort s st pl outp
  match o.holder.getD vc none with
  | some i => (match headFor s st pl i.val vc outp with | some f => if p i f then some i else none | none => none)
  | none =>
    (((List.range 6).map (fun k => portOf (o.rr + 1 + k))).find? (fun i =>
      match headFor s st pl i.val vc outp with | some f => startsMsg f.stem && p i f | none => false))

/-- The express handshakes of the last 79 (R92). -/
def expressUsed (o : OutPort) : Nat := ((o.hist.take 79).filter id).length

/-- An express frond may go at step 1 of R91: the output's allowance is not spent. -/
def expressPick (s : State) (st pl outp : Nat) : Option (Nat × Fin 6) :=
  let o := outPort s st pl outp
  if 8 ≤ expressUsed o then none
  else
    let try_ (vc : Nat) : Option (Nat × Fin 6) :=
      if creditOk s st pl outp vc then (pickInput s st pl outp vc (fun _ f => stExpress f.stem)).map (fun i => (vc, i)) else none
    match try_ o.eturn with
    | some x => some x
    | none => try_ (1 - o.eturn)

/-- The ring of DRR (R93). -/
def drrRing : List Nat := [0, 1, 3, 4, 5, 6, 7]

/-- The quantum of a VC at a stand: 0 to 63 act as 64 (R94). -/
def quantum (s : State) (st : StandId) (vc : Nat) : Nat := max 64 (regFld s (stdOff st (0x100 + vc * 8)) 0 16)

/-- The quantum of a share class at a stand (R132). -/
def squantum (s : State) (st : StandId) (c : Nat) : Nat := max 64 (regFld s (stdOff st (0x140 + c * 8)) 0 16)

/-- Some input has a frond of a VC for an output, that may be sent: what `queue_empty` of R93 denies. While a message holds the VC with no
frond of it waiting, a frond of another input cannot be sent, and the model takes the VC as empty, which zeroes its deficit; R93 does
not speak of that case (log 88). -/
def vcWaiting (s : State) (st pl outp vc : Nat) : Bool :=
  (pickInput s st pl outp vc (fun _ _ => true)).isSome

/-- `CAP` of `OBS_CTL`: observation handshakes of any 100 at an output (R477). -/
def obsCap (s : State) : Nat := regFld s 0xC0000 56 2

/-- VC 6 may take the next handshake of an output for an observation frond: with it observation and cruise fronds together take at most
`CAP`, which is at most 3, of any 100 handshakes (R95, R477). -/
def bgRoom (s : State) (o : OutPort) : Bool := decide ((o.bg.filter (· != 0)).length < obsCap s)

/-- A VC may be served by DRR: its credit is there, and on VC 6 the caps leave room (R91, R95). -/
def drrOpen (s : State) (st pl outp v : Nat) : Bool :=
  creditOk s st pl outp v && (v != 6 || bgRoom s (outPort s st pl outp))

/-- DRR state: deficits, position, fresh (R93). -/
structure Drr where
  deficit : List Nat
  cur     : Nat
  fresh   : Bool
  deriving DecidableEq, Repr

/-- DRR over the VCs (R93); `n` bounds the visits: a VC gains at least 64 at each fresh visit, so one that is eligible
is served at its first or second visit. Called only when some VC is eligible. -/
def drrPick (s : State) (st : StandId) (pl outp : Nat) (d : Drr) : Nat → Option (Nat × Drr)
  | 0 => none
  | n + 1 =>
    let v := drrRing.getD d.cur 0
    let nxt := (d.cur + 1) % 7
    if !vcWaiting s st.val pl outp v then
      drrPick s st pl outp { deficit := d.deficit.set v 0, cur := nxt, fresh := true } n
    else if !drrOpen s st.val pl outp v then drrPick s st pl outp { d with cur := nxt, fresh := true } n
    else
      let q := d.deficit.getD v 0 + (if d.fresh then quantum s st v else 0)
      if 64 ≤ q then some (v, { deficit := d.deficit.set v (q - 64), cur := d.cur, fresh := false })
      else drrPick s st pl outp { deficit := d.deficit.set v q, cur := nxt, fresh := true } n

/-- The share class of a frond at a stand (R131). -/
def classOf (s : State) (st : StandId) (f : Frond) : Nat :=
  let m := cget 0xFEDCBA9876543210 s.mesh.shareMap st.val
  fld m (4 * fld (stTenant f.stem) 12 4) 4

/-- The share-class arbitration of VC 0 and VC 1 (R133): `n` bounds the visits. -/
def sharePick (s : State) (st : StandId) (pl outp vc : Nat) (h : ShareSt) : Nat → Option (Fin 6 × ShareSt)
  | 0 => none
  | n + 1 =>
    let c := h.cur
    let nxt := (c + 1) % 16
    match pickInput s st.val pl outp vc (fun _ f => classOf s st f == c) with
    | none => sharePick s st pl outp vc { h with sdef := h.sdef.set c (min (h.sdef.getD c 0) 0), cur := nxt, fresh := true } n
    | some i =>
      let q := h.sdef.getD c 0 + (if h.fresh then (squantum s st c : Int) else 0)
      let h' := { h with sdef := h.sdef.set c q }
      if 0 < q then some (i, { h' with fresh := false })
      else sharePick s st pl outp vc { h' with cur := nxt, fresh := true } n

/-- The share state of VC 0 or VC 1. -/
def shareOfVc (o : OutPort) (vc : Nat) : ShareSt := if vc = 0 then o.sh0 else o.sh1

/-- Set the share state of VC 0 or VC 1. -/
def setShare (o : OutPort) (vc : Nat) (h : ShareSt) : OutPort := if vc = 0 then { o with sh0 := h } else { o with sh1 := h }

/-- Visits that a share class may need: a negative deficit is worked off in steps of at least 64. -/
def shareFuel (h : ShareSt) : Nat :=
  16 * (h.sdef.foldl (fun a d => max a ((-d).toNat / 64)) 0 + 3)

/-- What the shaper of a source slot holds, in 1/64 frond: at most 8 fronds (R105). -/
def skidTokens (s : State) (st j : Nat) : Nat := cget 512 s.mesh.skid (st * 64 + j)

/-- Set what a shaper holds. -/
def setSkidTokens (s : State) (st j n : Nat) : State :=
  { s with mesh := { s.mesh with skid := cset 512 s.mesh.skid (st * 64 + j) n } }

/-- One handshake of an output passes: each source slot whose skid leaves by it gains `WEIGHT` / 64 frond, so that its share is that
of the link at the prevailing pace (R105). -/
def skidAccrue (s : State) (st : StandId) (pl outp : Nat) : State :=
  s.mesh.skid.foldl (fun s e =>
    let j := e.1 % 64
    let w := bkGet s (parity s) (stdOff st (0x800 + j * 32))
    let out := if bitAt w 62 then fld w 18 3 else fld w 24 3
    if e.1 / 64 = st.val ∧ bitAt w 63 ∧ bitAt w 60 ∧ fld w 58 2 = pl ∧ out = outp then
      setSkidTokens s st.val j (min 512 (skidTokens s st.val j + fld w 30 6))
    else s) s

/-- The source slot whose shaper a frond on VC 2 from an input comes under: that of a message the stand injects (R105). -/
def skidSource (s : State) (st : StandId) (pl outp : Nat) (i : Fin 6) (f : Frond) : Option Nat :=
  if i ≠ 4 then none
  else if startsMsg f.stem then (skidOf s st pl 4 f).map Prod.fst
  else (outPort s st.val pl outp).skid

/-- A frond on VC 2 may be injected now: its source's shaper holds a frond (R105). -/
def skidReady (s : State) (st : StandId) (pl outp : Nat) (i : Fin 6) (f : Frond) : Bool :=
  match skidSource s st pl outp i f with
  | some j => decide (64 ≤ skidTokens s st.val j)
  | none => true

/-- A skid's frond is injected: its shaper gives one frond, and the slot is kept while the message holds VC 2 (R105). -/
def skidSpend (s : State) (st : StandId) (pl outp : Nat) (i : Fin 6) (f : Frond) : State :=
  let j := skidSource s st pl outp i f
  let s := match j with
    | some j => setSkidTokens s st.val j (skidTokens s st.val j - 64)
    | none => s
  let o := outPort s st.val pl outp
  setOutPort s st.val pl outp { o with skid := if stKind f.stem = 1 ∨ stKind f.stem = 2 then j else none }

/-- The hub of a stand takes a frond: with the last of a message it has the whole of it (R82). A message whose home is another stand by this
hub's copy of the map is sent on at once, so that it counts as delivered at no moment (R60, R108). -/
def hubTakes (s : State) (st : StandId) (pl : PlaneId) (vc : Nat) (f : Frond) : State :=
  let key := (st.val * 4 + pl.val) * 8 + vc
  let l := cget [] s.mesh.asm key ++ [f]
  let put (l : List Frond) : State := { s with mesh := { s.mesh with asm := cset [] s.mesh.asm key l } }
  if stKind f.stem = 1 ∨ stKind f.stem = 2 then put l
  else match assemble pl l with
  | some m =>
    let (m, s) := markFwd (put []) m
    (match (if m.fwd || !hubMayTake s m then none else strayTo s st m) with
    | some b => forwardHome s st m b
    | none => emit s (.whole st m))
  | none => put []

/-- Take the head of an input's queue and send it on an output: the credit of the input returns, the downstream credit
is spent, the holder follows R84 and keeps the share class its message began with (R131), and tallies and drain counts count it. -/
def sendHead (s : State) (st : StandId) (pl : PlaneId) (outp inp : Fin 6) (vc : Nat) : State :=
  let x := inVc s st.val pl.val inp.val vc
  match x.q with
  | [] => s
  | h :: r =>
    let s := setInVc s st.val pl.val inp.val vc { x with q := r, since := s.time, stalled := false }
    let s := leaveInput s st pl inp vc h
    let s := spendCredit s st.val pl.val outp.val vc
    let s := if vc = 2 then skidSpend s st pl.val outp.val inp h.f else s
    let o := outPort s st.val pl.val outp.val
    let k := stKind h.f.stem
    let s := setOutPort s st.val pl.val outp.val
      { o with holder := o.holder.set vc (if k = 1 then some inp else if k = 2 then o.holder.getD vc none else none),
               hcls := if k = 1 then o.hcls.set vc (classOf s st h.f) else o.hcls,
               rr := if startsMsg h.f.stem then inp.val else o.rr }
    let s := match neighbour st.val outp.val, planeLink st.val pl.val outp.val with
      | some b, some n =>
        let s := tally s (0xC2000 + n * 16 + (if outp.val = 1 ∨ outp.val = 2 then 0 else 8)) 1
        if isAbort h.f then s
        else { s with epoch := { s.epoch with nbTo := cmod 0 s.epoch.nbTo ((parNo (stEpoch h.f.stem) * 48 + b) * 4 + pl.val) (· + 1) } }
      | _, _ => countOut s st pl h.f
    match outwardEdge st.val outp.val with
    | some e => sendSlot s e (moduleOf (edgePos e st.val) pl.val) (slotOf pl h.f)
    | none =>
      if outp.val = 5 then (match tapHall st.val with | some p => hallTakeFrond s p.val pl h.f | none => s)
      else
        let s := emit s (.frond st pl outp vc h.f)
        if outp.val = 4 then hubTakes s st pl vc h.f else s

/-- An output's history after a handshake that carried `ex` express under step 1, and `bg` on VC 6 (R92, R477). -/
def recordHandshake (s : State) (st : StandId) (pl outp : Nat) (ex : Bool) (bg : Nat) : State :=
  let o := outPort s st.val pl outp
  setOutPort s st.val pl outp { o with hist := (ex :: o.hist).take 80, bg := (bg :: o.bg).take 99 }

/-- The share class that a message holding a VC charges: that of its first frond, for the map as it then was (R131). -/
def heldClass (o : OutPort) (vc : Nat) : Nat := o.hcls.getD vc 0

/-- A module's transmitter has no frond to send: neither of its planes has one for the output that may go, and it sends an IDLE slot
(R379). -/
def idleOut (s : State) (st outp : Nat) (pl : Nat) : State :=
  match outwardEdge st outp with
  | none => s
  | some e =>
    let waits (p : Nat) : Bool := (List.range 8).any (fun v => creditOk s st p outp v && vcWaiting s st p outp v)
    let m := moduleOf (edgePos e st) pl
    if decide ((modAt s e m).state = .up) && !waits pl && !waits (pl / 2 * 2 + (1 - pl % 2)) then sendAnySlot s e m idleSlot else s

/-- One handshake of an output: express within the allowance, then VC 2, then DRR (R91); with nothing to send, an outward output's module
sends an IDLE slot (R379). -/
def arbitrate (st : StandId) (pl : PlaneId) (outp : Fin 6) (s : State) : State :=
  if girdled s st.val || frozenAt s st.val then s
  else
  let s := skidAccrue s st pl.val outp.val
  let o := outPort s st.val pl.val outp.val
  let record (s : State) (ex : Bool) (bg : Nat) : State := recordHandshake s st pl.val outp.val ex bg
  match expressPick s st.val pl.val outp.val with
  | some (vc, i) =>
    let s := setOutPort s st.val pl.val outp.val { o with eturn := 1 - vc }
    record (sendHead s st pl outp i vc) true 0
  | none =>
  match (if creditOk s st.val pl.val outp.val 2 then pickInput s st.val pl.val outp.val 2 (skidReady s st pl.val outp.val) else none) with
  | some i => record (sendHead s st pl outp i 2) false 0
  | none =>
  if drrRing.any (fun v => vcWaiting s st.val pl.val outp.val v && drrOpen s st.val pl.val outp.val v) then
    match drrPick s st pl.val outp.val { deficit := o.deficit, cur := o.cur, fresh := o.fresh } 15 with
    | none => s
    | some (v, d) =>
      let o := { o with deficit := d.deficit, cur := d.cur, fresh := d.fresh }
      let s := setOutPort s st.val pl.val outp.val o
      if v = 0 ∨ v = 1 then
        let h := shareOfVc o v
        match o.holder.getD v none with
        | some i =>
          let c := heldClass o v
          let h := { h with sdef := h.sdef.set c (h.sdef.getD c 0 - 64) }
          record (sendHead (setOutPort s st.val pl.val outp.val (setShare o v h)) st pl outp i v) false 0
        | none =>
          match sharePick s st pl.val outp.val v h (shareFuel h) with
          | none => s
          | some (i, h) =>
            let c := h.cur
            let h := { h with sdef := h.sdef.set c (h.sdef.getD c 0 - 64) }
            record (sendHead (setOutPort s st.val pl.val outp.val (setShare o v h)) st pl outp i v) false 0
      else
        match pickInput s st.val pl.val outp.val v (fun _ _ => true) with
        | none => s
        | some i => record (sendHead s st pl outp i v) false (if v = 6 then 1 else 0)
  else record (idleOut s st.val outp.val pl.val) false 0

/-- `STALL_US` in ns: 0 acts as 1, above 10,000 as 10,000 (R101). -/
def stallNs (s : State) (st : StandId) : Nat := 1000 * min 10000 (max 1 (regFld s (stdOff st 0) 16 16))

/-- A plane input VC that holds a frond without progress for `STALL_US` raises ROUTER STALL once per stall (R101). -/
def stallDetect (st : StandId) (pl : PlaneId) (inp : Fin 6) (vc : Fin 8) (s : State) : State :=
  let x := inVc s st.val pl.val inp.val vc.val
  if x.q.isEmpty || x.stalled || girdled s st.val || frozenAt s st.val then s
  else
    let s := advanceTo s (x.since + stallNs s st)
    raise (setInVc s st.val pl.val inp.val vc.val { x with stalled := true }) cStall st.val (meshSub pl.val inp.val) 0

def execStallDetect (st : StandId) (pl : PlaneId) (inp : Fin 6) (vc : Fin 8) (s : State) : Step := run s (stallDetect st pl inp vc)

/-- The epoch controller is not IDLE: staged writes have no effect (R111). -/
def stagingShut (s : State) : Bool := decide (s.epoch.phase ≠ .idle)

/-- Stage a route entry: refused when it sets a PORT to 5 or 6 (R97). -/
def routeStage (off : Nat) (wm v : Word) (s : State) : State :=
  let new := merge (wm &&& (mask 0 3 ||| mask 4 3 ||| mask 8 3 ||| mask 12 3)) (bkGet s (!parity s) off) v
  if (List.range 4).any (fun p => fld new (p * 4) 3 == 5 || fld new (p * 4) 3 == 6) then refuseWrite s off
  else bkSet s (!parity s) off new

/-- A write of `STD_ROUTE[d]`: no effect outside IDLE or with VIEW 1 (R97, R101, R111). -/
def routeWrite (st : StandId) (d : Nat) (wm v : Word) (s : State) : State :=
  if stagingShut s || regBit s (stdOff st 0) 0 then s else routeStage (stdOff st (0x200 + d * 8)) wm v s

def execStdRouteWrite (st : StandId) (d : StandId) (v : Word) (s : State) : Step :=
  mgStep s (stdOff st (0x200 + d.val * 8)) v (routeWrite st d.val)

/-- Stage an exit entry: refused for KIND 10 or 11, or MASK bit 6 or 7 with KIND 00 on E1 or E3 (R99). -/
def exitStage (off : Nat) (wm v : Word) (s : State) : State :=
  let new := merge (wm &&& (mask 63 1 ||| mask 0 12)) (bkGet s (!parity s) off) v
  let kind := fld new 10 2
  let odd := fld new 8 2 = 1 ∨ fld new 8 2 = 3
  if 2 ≤ kind ∨ (kind = 0 ∧ odd ∧ fld new 6 2 ≠ 0) then refuseWrite s off
  else bkSet s (!parity s) off new

/-- A write of a staged `GLB_EXIT[n]`: no effect outside IDLE (R99, R111). -/
def exitWrite (n : Nat) (wm v : Word) (s : State) : State :=
  if stagingShut s then s else exitStage (0x200 + n * 8) wm v s

def execGlbExitWrite (n : Fin 45) (v : Word) (s : State) : Step := mgStep s (0x200 + n.val * 8) v (exitWrite n.val)

/-- A write of a staged skid register: no effect outside IDLE or with VIEW 1 (R101, R102, R111). -/
def skidWrite (st : StandId) (o : Nat) (wm v : Word) (s : State) : State :=
  if stagingShut s || regBit s (stdOff st 0) 0 then s else bkWrite wm (stdOff st o) v s

/-- A write of a staged tier-map entry: no effect while the active banks are copied into the staged ones (R55), nor before that from
the request of a switch on, when the staged bank still serves the old epoch (R54; log 28). -/
def tierWrite (tier n : Nat) (wm v : Word) (s : State) : State :=
  if stagingShut s then s else bkWrite wm (tierOff false tier n) v s

/-- A tier-map write names an entry of the tier's map; an index past it holds no register (R52, R490). -/
def execTierMapStagedWrite (tier : Fin 4) (n : Fin 1024) (v : Word) (s : State) : Step :=
  mgStep s (tierOff false tier.val n.val) v (fun wm v s =>
    if n.val < tierSize tier.val then tierWrite tier.val n.val wm v s else s)

end Sys2Proof.Machine
end

