-- ==== Sys2Proof/Machine/Bridge.lean ====
section
/-! DEFINITION. The bridge edges: link messages, the modules' state machine, slots arriving at an edge stand (R379 to R388). -/

namespace Sys2Proof.Machine

/-- The edge stand of a module, and the planes it carries (R26). -/
def modStand (e m : Nat) : StandId := standOf (edgeStand e (m / 2))
def modPlane (m tpl : Nat) : PlaneId := planeOf (m % 2 * 2 + tpl)

/-- A module that its edge has (R25). -/
def modExists (e m : Nat) : Bool := decide (m < edgeMods e)

/-- A module may begin training: `BRG_CTL.EN`, its edge stand in service, its edge not held under TOPO (R386, R387). -/
def mayTrain (s : State) (e m : Nat) : Bool :=
  modExists e m && regBit s 0xB0000 0 && !girdled s (modStand e m).val && !s.brg.topo

/-- The module starts UCIe link training. -/
def trainStart (s : State) (e m : Nat) : State :=
  emit (setMod s e m { modAt s e m with state := .training, trains := 0, since := s.time, retry := false, heard := false })
    (.retrain ⟨e % 4, Nat.mod_lt _ (by decide)⟩ ⟨m % 16, Nat.mod_lt _ (by decide)⟩)

/-- The outward direction of a module's planes starts afresh: 32 credits per VC per plane, counts 0 (R86, R382). -/
def grantCredits (s : State) (e m : Nat) : State :=
  [0, 1].foldl (fun s t => (List.range 8).foldl (fun s vc =>
    let x := edgeVc s e (m / 2) (modPlane m t).val vc
    setEdgeVc s e (m / 2) (modPlane m t).val vc { x with credits := 32, sent := 0 }) s) s

/-- Both directions of a module are flushed under R90, plane by plane. -/
def modFlush (s : State) (e m : Nat) : State :=
  grantCredits ([0, 1].foldl (fun s t => flushInput s (modStand e m) (modPlane m t) (portOf e)) s) e m

/-- A module leaves service for FAILED or DOWN: what waits for it is discarded as at a girdled link (R388), and its edge may lose
its sideband (R390). -/
def modGone (s : State) (e m : Nat) (st : MState) : State :=
  let s := setMod s e m { modAt s e m with state := st, since := s.time, retry := false }
  let down (s : State) : State := raise s cModuleDown (locEdge e) m 0
  let s := [0, 1].foldl (fun s t => discardRouted s (modStand e m) (modPlane m t) e (fun s _ => down s) down) s
  barCheckAll s

/-- A write of `BRG_EDGE`: `RETRAIN` starts the modules that are DOWN or FAILED (R386, R402). -/
def edgeWrite (e : Nat) (wm v : Word) (s : State) : State :=
  if !bitAt (v &&& wm) 59 then s
  else (List.range 16).foldl (fun s m =>
    if !mayTrain s e m then s
    else match (modAt s e m).state with
    | .down => trainStart s e m
    | .failed => trainStart (regPut s (0xB0100 + e * 0x80 + m * 8) 48 8 0) e m
    | _ => s) s

def execEdgeRetrain (e : Fin 4) (v : Word) (s : State) : Step := mgStep s (0xB0010 + e.val * 8) v (edgeWrite e.val)

/-- The PHY is up: at x64 and 32 GT/s the module goes on to HELLO (R386); one that has trained otherwise is FAILED (R377), with the event of
a module that enters FAILED from training (log 93). -/
def phyUp (e m : Nat) (good : Bool) (s : State) : State :=
  let x := modAt s e m
  if x.state ≠ .training ∨ x.retry then s
  else if good then setMod s e m { x with state := .hello, since := s.time }
  else raise (modGone s e m .failed) cTrainFail (locEdge e) m 0

def execModulePhyUp (e : Fin 4) (m : Fin 16) (x64at32 : Bool) (s : State) : Step := run s (phyUp e.val m.val x64at32)

/-- A training attempt fails (R386). -/
def trainFail (e m : Nat) (s : State) : State :=
  let x := modAt s e m
  if x.state = .training ∧ !x.retry then
    let s := regCount s (0xB0100 + e * 0x80 + m * 8) 48 8 1
    if 8 ≤ x.trains + 1 then raise (modGone (setMod s e m { x with trains := x.trains + 1 }) e m .failed) cTrainFail (locEdge e) m 0
    else setMod s e m { x with trains := x.trains + 1, retry := true, since := s.time }
  else s

def execModuleTrainFail (e : Fin 4) (m : Fin 16) (s : State) : Step := run s (trainFail e.val m.val)

/-- The wait of 1 ms ends, and the next attempt starts (R386). -/
def trainRetry (e : Fin 4) (m : Fin 16) (s : State) : State :=
  let x := modAt s e.val m.val
  if x.state = .training ∧ x.retry then
    let s := advanceTo s (x.since + oneMs)
    emit (setMod s e.val m.val { x with retry := false, since := s.time }) (.retrain e m)
  else s

def execModuleTrainRetry (e : Fin 4) (m : Fin 16) (s : State) : Step := run s (trainRetry e m)

/-- The edges with a module in UP, as a mask (R385 SHAPE, R387). -/
def trainedEdges (s : State) : Nat := (List.range 4).foldl (fun n e => n + if edgeLive s e then 2 ^ e else 0) 0

/-- What the partners over an edge last said of themselves, one for each module in UP (R387). -/
def partners (s : State) (e : Nat) : List ModSt :=
  ((List.range (edgeMods e)).map (modAt s e)).filter (fun x => decide (x.state = .up))

/-- The `WCOUNT` this die knows for itself; none while unknown, in a package that is no row, or above 3 (R385, R387). -/
def ownWcount (s : State) : Option Nat :=
  match trainedEdges s with
  | 2 => some 0
  | 8 | 10 => ((partners s 3).find? (fun x => decide (x.wcount < 3))).map (fun x => x.wcount + 1)
  | _ => none

/-- The trained edges of a row (R387). -/
def rowShape (s : State) : Bool := trainedEdges s == 2 || trainedEdges s == 8 || trainedEdges s == 10

/-- `ROW` and `WCOUNT` as this die knows them: by its trained edges until S4 ends, and as fixed then (R385, R387). -/
def rowNow (s : State) : Bool := if afterS4 s then packageRow s else rowShape s
def wcountNow (s : State) : Option Nat :=
  if afterS4 s then (if packageRow s then some (pdie s) else none) else ownWcount s

/-- A HELLO (R385). -/
def helloBytes (s : State) (e m : Nat) : List Byte :=
  leBytes 1 1 ++ leBytes 1 1 ++ leBytes 2 0x1E2A ++ leBytes 1 0xB1 ++ leBytes 1 e ++ leBytes 1 m ++
  leBytes 1 (trainedEdges s + if rowNow s then 16 else 0) ++ leBytes 1 ((wcountNow s).getD 0xFF) ++ List.replicate 55 0

/-- A LINK slot (R380, R385). -/
def linkSlot (b : List Byte) : Slot := { tag := sealTag (7 + crc16 b * 2 ^ 12), payload := bytesBv 512 b, stem := 0 }

/-- Every 1 µs a module that is neither DOWN nor FAILED sends a HELLO (R386). -/
def helloSend (e m : Nat) (s : State) : State :=
  match (modAt s e m).state with
  | .down => s
  | .failed => s
  | _ => sendAnySlot s e m (linkSlot (helloBytes s e m))

def execHelloSend (e : Fin 4) (m : Fin 16) (s : State) : Step := run s (helloSend e.val m.val)

/-- The module fails in HELLO (R386). -/
def helloFail (s : State) (e m : Nat) : State := raise (modGone s e m .failed) cTrainFail (locEdge e) m 0

/-- A HELLO arrives (R385, R386): in HELLO it brings the module UP or fails it; in UP it tells what the partner knows. -/
def helloReceive (e m : Nat) (l : List Byte) (s : State) : State :=
  let x := modAt s e m
  let ok := byteAt l 1 == 1 && leAt l 5 1 % 4 == (e + 2) % 4 && leAt l 6 1 == m
  if byteAt l 0 ≠ 1 then s
  else
    let y := { x with heard := true, shape := leAt l 7 1 % 16, row := (leAt l 7 1).testBit 4, wcount := leAt l 8 1 }
    match x.state with
    | .hello =>
      if ok then barCheckAll (grantCredits (setMod s e m { y with state := .up, since := s.time }) e m) else helloFail s e m
    | .up => if ok then setMod s e m y else s
    | _ => s

def execHelloReceive (e : Fin 4) (m : Fin 16) (link : List Byte) (s : State) : Step := run s (helloReceive e.val m.val link)

/-- 10 ms pass in HELLO without a valid HELLO (R386). -/
def helloTimeout (e m : Nat) (s : State) : State :=
  let x := modAt s e m
  if x.state = .hello then helloFail (advanceTo s (x.since + 10 * oneMs)) e m else s

def execHelloTimeout (e : Fin 4) (m : Fin 16) (s : State) : Step := run s (helloTimeout e.val m.val)

/-- An in-service recalibration starts: slots stop, and credits are withheld (R386). -/
def recalStart (e m : Nat) (s : State) : State :=
  let x := modAt s e m
  if x.state = .up then barCheckAll (setMod s e m { x with state := .retrain, since := s.time }) else s

def execModuleRecalStart (e : Fin 4) (m : Fin 16) (s : State) : Step := run s (recalStart e.val m.val)

/-- The PHY is up again in time: both directions are flushed and the module is UP (R386). -/
def recalDone (e m : Nat) (s : State) : State :=
  let x := modAt s e m
  if x.state = .retrain then modFlush (setMod s e m { x with state := .up, since := s.time }) e m else s

def execModuleRecalDone (e : Fin 4) (m : Fin 16) (s : State) : Step := run s (recalDone e.val m.val)

/-- 100 µs pass in RETRAIN (R386). -/
def recalTimeout (e m : Nat) (s : State) : State :=
  let x := modAt s e m
  if x.state = .retrain then
    raise (modGone (modFlush (advanceTo s (x.since + 100000)) e m) e m .failed) cRetrainTimeout (locEdge e) m 0
  else s

def execModuleRecalTimeout (e : Fin 4) (m : Fin 16) (s : State) : Step := run s (recalTimeout e.val m.val)

/-- A credit that a slot returns (R380, R382). -/
def slotCredit (s : State) (e m : Nat) (tag : Nat) : State :=
  if !tag.testBit 7 then s
  else
    let pl := (modPlane m (tag / 2 ^ 8 % 2)).val
    let vc := tag / 2 ^ 9 % 8
    let x := edgeVc s e (m / 2) pl vc
    setEdgeVc s e (m / 2) pl vc { x with credits := min 32 (x.credits + 1) }

/-- An AUDIT slot: the plane within the module and the eight counts of what this die has sent on it (R88, R385). -/
def auditBytes (s : State) (e m : Nat) (pl : PlaneId) : List Byte :=
  let n := (List.range 8).foldl (fun n vc => n + (edgeVc s e (m / 2) pl.val vc).sent % 16 * 16 ^ vc) 0
  leBytes 1 2 ++ leBytes 1 (pl.val % 2) ++ leBytes 4 n ++ List.replicate 58 0

/-- This die passes its counts for a plane to the partner (R383, R385; log 94). -/
def auditSend (s : State) (e m : Nat) (pl : PlaneId) : State := sendAnySlot s e m (linkSlot (auditBytes s e m pl))

/-- An audit starts on a plane of a module direction, or, where one runs, the direction is flushed (R88, R90, R383). The AUDIT slot that
asks the partner for its counts carries this die's own (log 94). -/
def edgeAudit (s : State) (e m : Nat) (pl : PlaneId) : State :=
  let st := modStand e m
  if auditing s st.val pl.val e then flushInput s st pl (portOf e)
  else auditSend (setAudit s st.val pl.val e true) e m pl

/-- The stem of a BODY, TAIL or ABORT slot from the open message's HEAD, or one that names the VC alone (R381). -/
def rebuildStem (s : State) (e m : Nat) (pl : PlaneId) (tk vc : Nat) : BitVec 128 :=
  let st := modStand e m
  let k := if tk = 2 then 2 else 3
  match (inVc s st.val pl.val e vc).opened with
  | some o =>
    let len := (edgeVc s e (m / 2) pl.val vc).len
    bodyStem o.stem k (if tk = 5 then 127 else if tk = 2 then 64 else (len - 57) % 64 + 1) o.seq
  | none => sealStem (BitVec.ofNat 128 (k * 2 ^ 125 + vc * 2 ^ 122 + if standParity s st then 2 ^ 121 else 0))

/-- A stem that arrives takes the stand's parity (R106, R382). -/
def arriveStem (s : State) (st : StandId) (x : BitVec 128) : BitVec 128 := sealStem (setBit x 121 (standParity s st))

/-- The header with the target that the arrival stand resolves (R96). -/
def retarget (f : Frond) (p : BitVec 6) (x : BitVec 2) : Frond :=
  let h := put 48 6 p.toNat (put 54 2 x.toNat (header f))
  sealFrond f.stem (leBytes 8 h.toNat ++ (payloadBytes f).drop 8)

/-- A frond is taken out of the planes at its arrival stand: it counts as delivered and its credit returns (R85, R108). -/
def takenHere (s : State) (st : StandId) (pl : PlaneId) (inp : Fin 6) (f : Frond) : State :=
  countOut (giveCredit s st pl inp (stVc f.stem)) st pl f

/-- The answer to a work item that a unit of this die has handed to another die: a completion notice (R32, R155). -/
def isNotice (s : State) (m : Msg) : Bool :=
  m.op == opReadRsp && m.shape == .single && namesThisDie s m.dest &&
  (List.range 97).any (fun n => match (if n < 48 then some (SrcUnit.port (standOf n)) else if n = 96 then some .hostAgent else none) with
    | some u => unitCode u == m.unit && decide ((unitStand s u).val = aStand m.dest) &&
        (flowAt s (flowKey u m.impl m.chan.toNat)).win.any (fun c => c.m.seq == m.seq && c.m.op == opCtrl)
    | none => false)

/-- A one-frond message that goes on by the rhizome from its arrival stand: a SIGNAL, a doorbell write, a leg of a WAIT, a completion notice
(R31, R32, R323). -/
def joinsRhizome (s : State) (m : Msg) : Bool := (rhizomeLeg m && namesThisDie s m.dest) || isNotice s m

/-- A frond that starts a message, at its arrival stand (R96, R382): it goes to its target, one of R32 by the rhizome. One that has none is not
delivered: a request is answered with the refusal, with a TABLE event where it names another die (R64, R71). While the die is dormant it is
refused with NACK BUSY (R343). A SIGNAL whose home is on a girdled stand is answered REMOTE_WRITE_FAULT (R324). -/
def arriveStart (s : State) (st : StandId) (pl : PlaneId) (inp : Fin 6) (f : Frond) : State :=
  let m := headMsg pl f
  if dormHeld s then
    let s := discardKnown s st pl inp f
    if m.op = opReadRsp then s else busyNack s st m
  else match targetOf s st m with
  | .ok (p, x) =>
    if joinsRhizome s m && !(girdled s p.toNat && m.op != opSignal) then
      if girdled s p.toNat then
        let (m, s) := regain s m
        answer (discardKnown s st pl inp f) st m .remoteWriteFault []
      else emit (takenHere s st pl inp f) (.msg st unitHub m)
    else acceptStart s st pl inp (retarget f p x)
  | .error r =>
    let s := discardKnown s st pl inp f
    if m.op = opReadRsp then
      (if namesThisDie s m.dest then raise s cGirdleDiscard st.val (meshSub pl.val inp.val) 0 else raise s cDieMismatch st.val 0 0)
    else
      let (m, s) := regain s m
      let s := answer s st m r []
      if namesThisDie s m.dest then s else raise s cDieMismatch st.val 0 0

/-- A frond's slot on a plane that carries transfers (R380 to R383). -/
def slotFrond (s : State) (e m : Nat) (pl : PlaneId) (tag : Nat) (x : Slot) : State :=
  let st := modStand e m
  let inp := portOf e
  let tk := tag % 8
  let vc := if tk < 2 ∨ tk = 4 then stVc x.stem else tag / 16 % 8
  let v := inVc s st.val pl.val e vc
  if 32 ≤ (v.q.filter (fun h => !h.own)).length then s
  else
    let s := setInVc s st.val pl.val e vc { v with recv := (v.recv + 1) % 16 }
    let stem := if tk < 2 ∨ tk = 4 then arriveStem s st x.stem else rebuildStem s e m pl tk vc
    let f : Frond := { stem := stem, payload := x.payload, pcheck := BitVec.ofNat 16 (tag / 2 ^ 12 % 2 ^ 16) }
    let s := wakeRequest (if isAbort f then s else countInj s (stEpoch stem) st.val pl.val 1) (.stand st)
    if !pcheckOk f then
      raise (discardKnown (regCount s (0xB0100 + e * 0x80 + m * 8) 0 16 1) st pl inp f) cBrgPayload (locEdge e) m 0
    else if reservedStem f then raise (discardKnown s st pl inp f) cReservedValue st.val (meshSub pl.val e) 0
    else if startsMsg stem then
      let z := edgeVc s e (m / 2) pl.val vc
      arriveStart (setEdgeVc s e (m / 2) pl.val vc { z with len := fld (header f) 28 13 }) st pl inp f
    else acceptRest s st pl inp f

/-- A slot arrives at a module (R379 to R383). -/
def slotReceive (e m : Nat) (x : Slot) (s : State) : State :=
  let st := modStand e m
  let tag := x.tag.toNat
  let tk := tag % 8
  if (modAt s e m).state ≠ .up || girdled s st.val || frozenAt s st.val then s
  else if sealTag (tag % 2 ^ 28) ≠ x.tag then
    let s := raise (regCount s (0xB0100 + e * 0x80 + m * 8) 32 16 1) cBrgTag (locEdge e) m 0
    [0, 1].foldl (fun s t => edgeAudit s e m (modPlane m t)) s
  else
    let s := slotCredit s e m tag
    if tk = 7 ∧ tag / 2 ^ 12 % 2 ^ 16 ≠ crc16 (leBytes 64 x.payload.toNat) then
      raise (regCount s (0xB0100 + e * 0x80 + m * 8) 0 16 1) cBrgPayload (locEdge e) m 0
    else if 6 ≤ tk then s
    else
      let pl := modPlane m (tag / 8 % 2)
      let s := tally s (0xC3808 + e * 256 + m * 16) 1
      if (tk < 2 ∨ tk = 4) ∧ fld x.stem 0 8 ≠ crc8 x.stem then
        edgeAudit (raise (regCount s (0xB0100 + e * 0x80 + m * 8) 16 16 1) cBrgStem (locEdge e) m 0) e m pl
      else if auditing s st.val pl.val e then s
      else slotFrond s e m pl tag x

def execBridgeSlotReceive (e : Fin 4) (m : Fin 16) (x : Slot) (s : State) : Step := runMsg s (slotReceive e.val m.val x)

/-- An AUDIT LINK slot arrives with the sender's counts of a plane (R88, R383, R385): they end the audit that runs here; where none runs, the
partner's does, and this die answers with its own counts (log 94). -/
def bridgeAudit (e m : Nat) (l : List Byte) (s : State) : State :=
  let pl := modPlane m (leAt l 1 1)
  if (modAt s e m).state ≠ .up ∨ byteAt l 0 ≠ 2 ∨ 2 ≤ leAt l 1 1 then s
  else if auditing s (modStand e m).val pl.val e then auditCounts (modStand e m) pl (portOf e) (BitVec.ofNat 32 (leAt l 2 4)) s
  else auditSend s e m pl

def execBridgeAuditReceive (e : Fin 4) (m : Fin 16) (link : List Byte) (s : State) : Step := run s (bridgeAudit e.val m.val link)

end Sys2Proof.Machine
end

