-- ==== Sys2Proof/Machine/Rings.lean ====
section
/-! DEFINITION. Rings and doorbells, the fetch of descriptors, the answers of host memory, and WAITs with their watches
(chapters 05 and 10). -/

namespace Sys2Proof.Machine

/-- The page, byte, size and value of a doorbell write that reaches the page of an ACTIVE entry (R169, R500): through `HA_*` only inside the
enabled window, by a fabric write only under the owner's tag (R46). -/
def doorbellOf (s : State) (d : DbAccess) : Option (Nat × Nat × Nat × Word) :=
  match d with
  | .ha a size v =>
    let w := regGet s 0x4008
    if bitAt w 0 ∧ fld a 24 40 = fld w 24 40 ∧ (tenantAt s (fld a 12 12)).isSome then some (fld a 12 12, fld a 0 12, size, v) else none
  | .haRead _ _ => none
  | .fabric page byte tenant size v =>
    match tenantAt s page.val with
    | some t => if t.tag = tenant then some (page.val, byte.toNat, size, v) else none
    | none => none

/-- The record that an invalid index draws (R170): one without a reserved slot, which goes the way of R171 and R176 for a DEFERRED or STAGE
record, by the held-back slots and then the holding (log 118). -/
def badIndex (s : State) (n : Nat) (c : RingCtx) (v : Nat) : State :=
  unsolicited s n (record recNormal 0 .badDesc 0xFFFFFFFF (BitVec.ofNat 64 v) 0 c.sqHead)

/-- A doorbell write that names an index: 4 or 8 bytes at its place (R169). -/
def doorbellWrite (s : State) (d : DbAccess) (at_ : Nat) (f : State → Nat → RingCtx → Nat → State) : State :=
  match doorbellOf s d with
  | none => s
  | some (n, byte, size, v) =>
    let s := wakeRequest s .hostAgent
    if byte = at_ ∧ (size = 4 ∨ size = 8) then
      match ctxGet s n with
      | some c => if c.isOpen then f s n c (fld v 0 32) else s
      | none => s
    else s

/-- A new SQ tail (R170). -/
def sqTail (d : DbAccess) (s : State) : State :=
  doorbellWrite s d 0 (fun s n c t =>
    if idxDiff t c.sqTail ≤ 2 ^ sqK c ∧ idxDiff t c.sqHead ≤ 2 ^ sqK c then ctxPut s n { c with sqTail := t } else badIndex s n c t)

/-- A new CQ head (R170). -/
def cqHead (d : DbAccess) (s : State) : State :=
  doorbellWrite s d 8 (fun s n c h =>
    if idxDiff h c.cqHead ≤ idxDiff c.cqTail c.cqHead then ctxPut s n { c with cqHead := h } else badIndex s n c h)

/-- A read through `HA_*` is answered with 0, and reads nothing (R169). -/
def doorbellRead (d : DbAccess) (s : State) : State := match d with | .haRead _ _ => emit s (.ha 0) | _ => s

def execSqTailDoorbell (d : DbAccess) (s : State) : Step := run s (fun s => sqTail d (doorbellRead d s))
def execCqHeadDoorbell (d : DbAccess) (s : State) : Step := run s (fun s => cqHead d (doorbellRead d s))

def execDoorbellBaseWrite (v : Word) (s : State) : Step := mgStep s 0x4008 v (fun wm v s => regWritePlain wm 0x4008 v s)

/-- The answer of a ring command (R166). -/
def ringResult (s : State) (n : Nat) (r : Status) (flag : Bool) (v : Nat) : State :=
  { s with host := { s.host with ringRes := { till := cmdEnd s, overrun := false, flag := flag, index := n, status := r, value := BitVec.ofNat 32 v } } }

/-- A ring command while another runs has no effect and sets OVERRUN (R126, R166). -/
def ringCommand (s : State) (f : State → State) : State :=
  if cmdDone s s.host.ringRes then f s else { s with host := { s.host with ringRes := { s.host.ringRes with overrun := true } } }

/-- A ring size is in its range (R166). -/
def kOk (w : Word) : Bool := decide (4 ≤ fld w 0 5) && decide (fld w 0 5 ≤ 16)

/-- OPEN (R167, R447). Where both stands that could hold the entry's context are girdled, OPEN answers OK and no context is kept: CLOSE and
PEEK then answer ADDR_RANGE (log 119). -/
def ringOpenCmd (n : Nat) (s : State) : State :=
  if (tenantAt s n).isNone then ringResult s n .addrRange false 0
  else if !afterS4 s || ringsOpen s n then ringResult s n .notReady false 0
  else if !kOk (regGet s 0x4020) || !kOk (regGet s 0x4028) || decide (2 ^ 28 < regFld s 0x4038 12 29) then ringResult s n .lenRange false 0
  else
    let c : RingCtx := { sq := regGet s 0x4020, cq := regGet s 0x4028, hwin := regGet s 0x4030, hsize := regGet s 0x4038, isOpen := true }
    ringResult (ctxPut s n c) n .ok false 0

/-- CLOSE (R167). -/
def ringCloseCmd (n : Nat) (s : State) : State :=
  if (tenantAt s n).isNone || !ringsOpen s n then ringResult s n .addrRange false 0
  else if unfetched s n || incomplete s n then ringResult s n .notReady false 0
  else match ctxGet s n with
    | some c => ringResult (ringClosed s n c) n .ok false 0
    | none => ringResult s n .addrRange false 0

/-- PEEK (R166, R167). -/
def ringPeekCmd (n : Nat) (s : State) : State :=
  if (tenantAt s n).isNone || !ringsOpen s n then ringResult s n .addrRange false 0
  else ringResult s n .ok true (match ctxGet s n with | some c => c.sqHead | none => 0)

def execRingClose (n : Fin 4096) (s : State) : Step := mgStep s 0x4040 0 (fun _ _ s => ringCommand s (ringCloseCmd n.val))
def execRingPeek (n : Fin 4096) (s : State) : Step := mgStep s 0x4040 0 (fun _ _ s => ringCommand s (ringPeekCmd n.val))

/-- The held-back slots of a completion ring (R171). -/
def heldBack (c : RingCtx) : Nat := if 6 ≤ cqK c then 16 else if cqK c = 5 then 8 else 4

/-- A fetch of an entry is outstanding. -/
def fetching (s : State) (n : Nat) : Bool :=
  s.host.reads.any (fun (_, r) => match r with | some (.fetch m _ _) => m == n | _ => false)

/-- The host agent fetches up to 8 descriptors in one read, up to the ring's end (R171, R173); its bytes count (R467). -/
def descriptorFetch (n : Fin 4096) (s : State) : State :=
  if workHeld s || fatalLatched s then s
  else match ctxGet s n.val with
  | none => s
  | some c =>
    if !c.isOpen || c.sqTail == c.sqHead || fetching s n.val || decide (2 ^ cqK c < idxDiff c.cqTail c.cqHead + c.resv + 1 + heldBack c) then s
    else
      let k := min (min 8 (idxDiff c.sqTail c.sqHead)) (2 ^ sqK c - c.sqHead % 2 ^ sqK c)
      let s := tally s 0xC0100 (64 * k)
      emit { s with host := { s.host with nextTag := s.host.nextTag + 1,
                                          reads := oset s.host.reads s.host.nextTag (some (.fetch n.val c.sqHead k)) } }
        (.hostRead s.host.nextTag (ringAddr c.sq (sqK c) 64 c.sqHead) (64 * k))

def execDescriptorFetch (n : Fin 4096) (s : State) : Step := run s (descriptorFetch n)

/-- The chain that a new descriptor of a queue belongs to (R177): that of the last one, where it has CHAIN set, else its own
where it is a COPY or FILL with CHAIN. -/
def chainOf (s : State) (a : Acceptor) (id : Nat) (raw : List Byte) : Option Nat :=
  match (queueOf s a).getLast?.bind (descAt s) with
  | some d => if dChain d.raw ∧ d.chain.isSome then d.chain else if dChain raw ∧ (dOp raw = opCopy ∨ dOp raw = opFill) then some id else none
  | none => if dChain raw ∧ (dOp raw = opCopy ∨ dOp raw = opFill) then some id else none

/-- The records a new descriptor needs: its own, or those of its chain at the first member (R171). Its last member, whose TALLY decides, need
not be known then, so that a chain always has room for two (log 100). -/
def ownRecords (id : Nat) (ch : Option Nat) (raw : List Byte) : Nat :=
  match ch with
  | some c => if c = id then 2 else 0
  | none => if dTally raw then 2 else 1

/-- Put a descriptor at the end of its queue. -/
def enqueue (s : State) (a : Acceptor) (d : DescSt) : State :=
  let id := s.host.nextId
  { s with host := { s.host with nextId := id + 1, descs := oset s.host.descs id (some d),
                                 queues := cset [] s.host.queues (accNo a) (queueOf s a ++ [id]) } }

/-- Fetched descriptors enter their queue while the completion ring has room for their records (R171). -/
def admitFetched (s : State) (n : Fin 4096) (tag : BitVec 16) : List (List Byte) → State
  | [] => s
  | raw :: r =>
    match ctxGet s n.val with
    | none => s
    | some c =>
      let a : Acceptor := .ring n
      let id := s.host.nextId
      let ch := chainOf s a id raw
      let own := ownRecords id ch raw
      if !c.isOpen || decide (2 ^ cqK c < idxDiff c.cqTail c.cqHead + c.resv + own + heldBack c) then s
      else
        let d : DescSt := { acc := a, idx := c.sqHead, raw := raw, tag16 := tag, chain := ch, resv := own, since := s.time }
        let s := ctxPut s n.val { c with sqHead := (c.sqHead + 1) % 2 ^ 32, resv := c.resv + own }
        admitFetched (enqueue s a d) n tag r

/-- The 64-byte pieces of a fetch. -/
def pieces64 : Nat → List Byte → List (List Byte)
  | 0, _ => []
  | n + 1, l => sub l 0 64 :: pieces64 n (l.drop 64)

/-- A completion of a host-memory read (R171, R173, R155, R196, R248). -/
def hostReadDone (tag : Nat) (data : List Byte) (s : State) : State :=
  match oget s.host.reads tag with
  | none => s
  | some p =>
    let s := { s with host := { s.host with reads := oset s.host.reads tag none } }
    match p with
    | .fetch n first count =>
      (match ctxGet s n, tenantAt s n with
      | some c, some t => if c.isOpen ∧ c.sqHead = first then admitFetched s ⟨n % 4096, Nat.mod_lt _ (by decide)⟩ t.tag (pieces64 count data) else s
      | _, _ => s)
    | .answer m => answer s (centreTap s) m .ok (sub data 0 (msgBytes m))
    | .item i off =>
      (match itemAt s i with
      | some x => itemWrite s i off (sub data 0 (min 4096 (x.w.len - off)))
      | none => s)
    | .source id => sourceData s id (.ok (match descAt s id with | some d => sub data 0 (dLen d.raw) | none => data))
    | .mcast c =>
      let n := match (execAt s c.val) with
        | some x => (match descAt s x.desc with | some d => min 4096 (dLen d.raw - x.next * 4096) | none => 0)
        | none => 0
      let (more, s) := execData s c (some (sub data 0 n))
      if more then execRun s c (execFuel s c.val) else s

def execHostMemoryReadCompletion (tag : Nat) (data : List Byte) (s : State) : Step := runMsg s (hostReadDone tag data)

/-- Watches of a home: 128 at most (R326). A WAIT on an object of this die: reported at once where the condition holds, refused
where the object is not allocated or LOST, NACK BUSY where the home is full (R165, R324, R327). -/
def watchRegister (a : Acceptor) (s : State) : State :=
  match oget s.sync.waits (accNo a) with
  | none => s
  | some w =>
    let n := aObject w.addr
    if w.mode ≠ .asking ∨ !namesThisDie s w.addr then s
    else if objLost s n then reportTo s a w.desc .poison
    else if !(syncObj s n).alloc then reportTo (misuse s n) a w.desc .addrRange
    else if waitHolds (syncObj s n) w.target then reportTo s a w.desc .ok
    else if 128 ≤ (watchesOf s n).length then
      sendRhz { s with sync := { s.sync with waits := oset s.sync.waits (accNo a) (some { w with mode := .polling }) } } (.watchNack a)
    else
      let s := setWatches s (objHome n) (watchesOf s n ++ [{ obj := n, target := w.target, acc := a, desc := w.desc }])
      { s with sync := { s.sync with waits := oset s.sync.waits (accNo a) (some { w with mode := .watched }) } }

/-- A report reaches the waiting unit (R326); it waits for SERVICE during dormancy (R343). -/
def watchReportIn (a : Acceptor) (s : State) : State :=
  match oget s.sync.waits (accNo a) with
  | some w => (match w.mode with
    | .reported r => if workHeld s then s else waitEnd s a w r
    | _ => s)
  | none => s

/-- A watch of a WAIT that has ended is removed at its home (R326). -/
def watchReleaseIn (a : Acceptor) (s : State) : State :=
  let live (x : Watch) : Bool := match oget s.sync.waits (accNo a) with
    | some w => (match w.mode with | .watched => w.desc == x.desc && aObject w.addr == x.obj | _ => false)
    | none => false
  stands.foldl (fun s st => setWatches s st.val ((cget [] s.sync.watches st.val).filter (fun w => !(w.far.isNone && decide (w.acc = a) && !live w)))) s

/-- `TIMEOUT` µs after its start a WAIT completes with TIMEOUT and releases its watch (R165, R326); a `TIMEOUT` of 0 sets no limit
(R153). The expiry is a wake request (R340). -/
def waitTimeout (a : Acceptor) (s : State) : State :=
  match oget s.sync.waits (accNo a) with
  | none => s
  | some w =>
    if w.tmo = 0 then s
    else
    let s := wakeRequest (advanceTo s (w.start + w.tmo * 1000)) (match a with | .port k => .stand k | .ring _ => .hostAgent)
    watchDrop (waitEnd s a w .timeout) a w

/-- One read of a poll goes, once its core port's meter and shaper let it (R137, R145, R327); `go` what follows it. One that is held goes at a
later poll. -/
def pollAsk (s : State) (a : Acceptor) (w : WaitSt) (second : Bool) (go : State → WaitSt → State) : State :=
  let put (s : State) (w : WaitSt) : State := { s with sync := { s.sync with waits := oset s.sync.waits (accNo a) (some w) } }
  let send (s : State) (c : BitVec 2) : State :=
    let m := readMsg s (accUnit a) (planeOf 0) ((descAt s w.desc).map DescSt.tag16 |>.getD 0)
      (w.addr + BitVec.ofNat 64 (if second then 4 else 0)) 4 false
    later (sendImplicit s (accUnit a) { m with colour := c } (.poll (accNo a) w.desc (if second then 4 else 0)))
  match a with
  | .ring _ => go (send s green) w
  | .port _ =>
    match meterShape s a w.colour (chargeOf 2) 1 with
    | (none, _, s) => waitEnd s a w .rateExceeded
    | (some c, true, s) => let w := { w with colour := none, second := false }; go (put (send s c) w) w
    | (some c, false, s) => put s { w with colour := some c, second := second }

/-- A WAIT that polls reads the count, and in the same step the target where its own is 0 (R327): each is a message of its own. -/
def waitPoll (a : Acceptor) (s : State) : State :=
  match oget s.sync.waits (accNo a) with
  | none => s
  | some w =>
    if w.mode ≠ .polling ∨ workHeld s then s
    else
      let target (s : State) (w : WaitSt) : State := if w.target = 0 then pollAsk s a w true (fun s _ => s) else s
      if w.second then pollAsk s a w true (fun s _ => s) else pollAsk s a w false target

def execWatchRegister (a : Acceptor) (s : State) : Step := runMsg s (watchRegister a)
def execWatchReport (a : Acceptor) (s : State) : Step := runMsg s (watchReportIn a)
def execWatchRelease (a : Acceptor) (s : State) : Step := runMsg s (watchReleaseIn a)
def execWaitTimeout (a : Acceptor) (s : State) : Step := runMsg s (waitTimeout a)
def execWaitPoll (a : Acceptor) (s : State) : Step := runMsg s (waitPoll a)

end Sys2Proof.Machine
end

