-- ==== Sys2Proof/Machine/Port.lean ====
section
/-! DEFINITION. Core ports: the request bundle, the delivery crossing, the hang watchdog, one-sided resets and RESYNC (R345 to R370,
R375, R376; R140, R178). -/

namespace Sys2Proof.Machine

/-- `RQ` messages waiting at a port. -/
def rqOf (s : State) (k : StandId) : List RqMsg := cget [] s.port.rq k.val

/-- Set the waiting messages of a port; the next has no colour yet. -/
def setRq (s : State) (k : StandId) (l : List RqMsg) : State :=
  { s with port := { s.port with rq := cset [] s.port.rq k.val l, rqCol := cset none s.port.rqCol k.val none } }

/-- The beats of a message and the bytes of its last (R347). -/
def beatsOk (r : RqMsg) : Bool :=
  let n := 32 + r.len.toNat
  let b := (n + 255) / 256
  r.beats == b && r.nbytes + 256 * (b - 1) == n

/-- Fields that a kind does not use are 0 (R349). -/
def fieldsOk (r : RqMsg) : Bool :=
  let d := !r.deliv
  let o := r.opx == 0
  let k := r.rkind == 0
  let b := r.bar == 0
  let l := r.rlen == 0
  match r.kind.toNat with
  | 0 => d && o && k && b && l && r.plane == 0 && r.rid == 0 && r.addr == 0 && r.len == 64
  | 1 => o && k && b && l
  | 2 => d && o && k && b
  | 3 => d && k && b && l
  | 4 => o && k && b && l
  | 5 => d && o && b && l && r.rkind != 3
  | 6 => d && o && k && l && r.plane == 0 && r.rid == 0 && r.addr == 0 && r.len == 0
  | 7 => true
  | _ => false

/-- Step 1 of R350. -/
def rqFormOk (r : RqMsg) : Bool := !r.resv && beatsOk r && fieldsOk r

/-- The operation class of a direct request. -/
def rqOp (r : RqMsg) : BitVec 4 :=
  match r.kind.toNat with | 1 => opWrite | 2 => opReadReq | 3 => opAtomic | 4 => opSignal | _ => opReduce

/-- The bytes that a direct request concerns. -/
def rqLen (r : RqMsg) : Nat := if r.kind = 2 then r.rlen.toNat else r.len.toNat

/-- Step 3 of R350: the lengths of R349. -/
def rqLenOk (r : RqMsg) : Bool :=
  let n := r.len.toNat
  match r.kind.toNat with
  | 1 => decide (1 ≤ n) && decide (n ≤ 4096)
  | 2 => n == 0 && decide (1 ≤ r.rlen.toNat) && decide (r.rlen.toNat ≤ 4096)
  | 3 => (n == 4 || n == 8) && r.opx != 3
  | 4 => n == 4
  | _ => decide (n ≤ 4096)

/-- An address has a tier index that is not VALID, or names a bank that is UNMAPPED in the stand's copy of the map (R59, R71). -/
def mapGap (s : State) (k : StandId) (a : Word) (plain : Bool) : Bool :=
  !tierValid s (standParity s k) a ||
  (plain && namesThisDie s a && aSpace a == 0 && !aDp a && decide (copState (hubCoppice s k.val (aEntry a)) = 0))

/-- Step 4 of R350: the address checks of R45, R47, R49, R69 and R71. A combine or tile address is its queue's or group's. -/
def rqAddrOk (s : State) (k : StandId) (r : RqMsg) : Bool :=
  let a := resolveLocal s r.addr
  !localBroken r.addr && !selfUnset s r.addr && !mapGap s k a (r.kind != 5) &&
  (if r.kind = 5 then aSpace a == 0 && decide (aSy a < 6)
   else addrFormOk a && classOk a (rqOp r) && directRangeOk a (rqLen r) &&
     (r.kind != 3 || decide (a.toNat % r.len.toNat = 0)))

/-- The bytes that a port reserves in its response buffer (R351). -/
def rqReserve (r : RqMsg) : Nat := if r.kind = 2 then r.rlen.toNat else if r.kind = 3 then r.len.toNat else 0

/-- The charge of a direct request (R137); a SIGNAL on this die goes over the rhizome and has none. -/
def rqCharge (s : State) (r : RqMsg) : Nat :=
  if r.kind = 4 ∧ namesThisDie s (resolveLocal s r.addr) then 0 else chargeOf r.len.toNat

/-- The message of a direct request (R349). -/
def rqMsgOf (s : State) (k : StandId) (r : RqMsg) (colour : BitVec 2) (tag : BitVec 16) : Msg :=
  let m := newMsg s (.port k) r.plane (rqOp r) (if r.kind = 5 then vcReduceUp else vcReq) tag
    (resolveLocal s r.addr) (if r.kind = 2 then readReqData r.rlen.toNat else sub r.data 0 r.len.toNat) r.opx.toNat r.rkind.toNat (r.express && accExpOk s (.port k)) r.deliv
  { m with colour := colour }

/-- The request at the head was held by the shaper at a core-side reset: it runs on, and what comes of it is discarded (R367). -/
def rqGone (s : State) (k : StandId) : Bool := cget false s.port.gone k.val

/-- An answer to a direct request that is refused (R350). -/
def rqRefuse (s : State) (k : StandId) (r : RqMsg) (st : Status) : State :=
  if rqGone s k then countLost s k 1
  else dlPush s k { kind := 0, status := st, rid := r.rid, data := [], frees := .nothing }

/-- The request is injected: its `RID` is outstanding, and its outcome will be its answer (R112, R349). -/
def rqInject (s : State) (k : StandId) (r : RqMsg) (colour : BitVec 2) (tag : BitVec 16) : State :=
  let n := rqReserve r
  let s := { s with port := { s.port with
    rids := oset s.port.rids (k.val * 256 + r.rid.toNat) (some (n, rqGone s k)), buf := cmod 0 s.port.buf k.val (· + n) } }
  later (sendImplicit s (.port k) (rqMsgOf s k r colour tag) (.direct k r.rid))

/-- A descriptor of the port is held by the shaper, and holds every later item (R140). After the port's binding has changed, what the new
tenant asks waits behind it too: R140 lets items of other tenants pass, R161 and R351 keep the order of submission and of the
channel, and the model keeps the order (log 115). -/
def portHeld (s : State) (k : StandId) : Bool :=
  match nextDesc s (.port k) with | some (_, d) => decide (d.phase = .held) | none => false

/-- The checks of a direct request, in the order of R350: the status of the first that fails. -/
def rqCheck (s : State) (k : StandId) (r : RqMsg) : Option Status :=
  if !rqFormOk r then some .badDesc
  else if (boundTag s k).isNone then some .owner
  else if !rqLenOk r then some .lenRange
  else if !rqAddrOk s k r then some .addrRange
  else none

/-- What the shaper has said of a request with a colour and a tag: it goes, or it waits with both, taken already (R130, R142). -/
def rqShaped (s : State) (k : StandId) (r : RqMsg) (c : BitVec 2) (tag : BitVec 16) (ok : Bool) : Bool × State :=
  if ok then (true, rqInject s k r c tag)
  else (false, { s with port := { s.port with rqCol := cset none s.port.rqCol k.val (some (c, tag)) } })

/-- A direct request at the head (R350, R351): whether it is taken off the queue. One that its shaper holds has been accepted: it keeps its
colour and its tag, and no check is made again (R130, R142). -/
def rqDirect (s : State) (k : StandId) (r : RqMsg) : Bool × State :=
  if (oget s.port.rids (k.val * 256 + r.rid.toNat)).isSome then (true, raise s cDupRid k.val 0 0)
  else match portShut s with
  | some st => (true, rqRefuse s k r st)
  | none =>
    match cget none s.port.rqCol k.val with
    | some (c, tag) =>
      let (ok, s) := shapeAt s (.port k) (rqCharge s r)
      rqShaped s k r c tag ok
    | none =>
      match rqCheck s k r with
      | some st => (true, rqRefuse s k r st)
      | none =>
        let tag := (boundTag s k).getD 0
        if decide (65536 < cget 0 s.port.buf k.val + rqReserve r) || portHeld s k then (false, s)
        else if rqCharge s r = 0 then (true, rqInject s k r 0 tag)
        else match meterShape s (.port k) none (rqCharge s r) 1 with
        | (none, _, s) => (true, rqRefuse s k r .rateExceeded)
        | (some c, ok, s) => rqShaped s k r c tag ok

/-- A DESC takes the lowest free slot (R178); one with a reserved field is refused as BAD_DESC when it is checked (R154, R350). -/
def rqDesc (s : State) (k : StandId) (r : RqMsg) : Bool × State :=
  match (List.range 16).find? (fun j => (oget s.port.slots (k.val * 16 + j)).isNone) with
  | none => (false, s)
  | some j =>
    let raw := if rqFormOk r then sub r.data 0 64 else (sub r.data 0 64).take 63
    let id := s.host.nextId
    let s := { s with port := { s.port with slots := oset s.port.slots (k.val * 16 + j) (some id) } }
    (true, enqueue s (.port k) { acc := .port k, idx := j, raw := raw, tag16 := (boundTag s k).getD 0, slot := j,
                                 chain := chainOf s (.port k) id raw })

/-- A WAKE_ACK is taken: the wake-pending flag clears (R355). -/
def wakeCleared (s : State) (k : StandId) : State :=
  hungEnd { s with port := { s.port with wake := cset false s.port.wake k.val false } } k .wake

/-- The message at the head of a port (R349 to R351, R335): whether it is taken. During dormancy no new work is (R343): a
barrier arrival and a WAKE_ACK are, and in the fatal safe state every message (R433). -/
def rqTake (s : State) (k : StandId) (r : RqMsg) : Bool × State :=
  if r.kind = 6 then
    (true, if fatalLatched s then dlRelease s k r.bar.toNat .fabricDown
      else if !rqFormOk r then dlRelease s k r.bar.toNat .badDesc
      else barArrive k r.bar.toNat s)
  else if r.kind = 7 then (true, wakeCleared s k)
  else if workHeld s && !fatalLatched s then (false, s)
  else if r.kind = 0 then rqDesc s k r
  else rqDirect s k r

/-- Set or clear the mark of the request at the head. -/
def setGone (s : State) (k : StandId) (b : Bool) : State := { s with port := { s.port with gone := cset false s.port.gone k.val b } }

/-- Take messages in order while the first may be taken, `n` at most (R351): one of a tenant that the port served before, held by the shaper,
holds those of the next (log 115). -/
def rqPump (k : StandId) : Nat → State → State
  | 0, s => s
  | n + 1, s =>
    if portClosed s k && !(rqGone s k && !frozenAt s k.val) then s
    else match rqOf s k with
    | [] => s
    | r :: l =>
      match rqTake s k r with
      | (true, t) => rqPump k n (setGone (setRq t k l) k false)
      | (false, t) => t

/-- Take what may be taken at a port. -/
def rqRun (s : State) (k : StandId) : State := rqPump k (rqOf s k).length s

/-- The beats of the messages that wait at a port; its FIFO holds 16 (R347, R362). -/
def rqBeats (s : State) (k : StandId) : Nat := ((rqOf s k).map RqMsg.beats).sum

/-- A message arrives on the request bundle (R346, R351); one offered to a port that is not ready, or whose FIFO is full, stays with its
sender (R362; log 97). It is a wake request (R340), but for a WAKE_ACK, which asks for no work. -/
def rqArrive (k : StandId) (r : RqMsg) (s : State) : State :=
  if portClosed s k || decide (16 ≤ rqBeats s k) then s
  else
    let s := hungEnd (if r.kind = 7 then s else wakeRequest s (.stand k)) k .rq
    let col := cget none s.port.rqCol k.val
    let s := setRq s k (rqOf s k ++ [r])
    rqRun { s with port := { s.port with rqCol := cset none s.port.rqCol k.val col } } k

/-- A row of one `KIND`; a reserved kind, which R350 refuses, may come by any of them. -/
def rqRow (kind : Nat) (k : StandId) (r : RqMsg) (s : State) : Step :=
  runMsg s (fun s => if r.kind.toNat = kind ∨ 8 ≤ r.kind.toNat then rqArrive k r s else s)

def execCorePortDesc (k : StandId) (r : RqMsg) (s : State) : Step := rqRow 0 k r s
def execCorePortWrite (k : StandId) (r : RqMsg) (s : State) : Step := rqRow 1 k r s
def execCorePortRead (k : StandId) (r : RqMsg) (s : State) : Step := rqRow 2 k r s
def execCorePortAtomic (k : StandId) (r : RqMsg) (s : State) : Step := rqRow 3 k r s
def execCorePortSignal (k : StandId) (r : RqMsg) (s : State) : Step := rqRow 4 k r s
def execCorePortReduce (k : StandId) (r : RqMsg) (s : State) : Step := rqRow 5 k r s
def execBarrierArrival (k : StandId) (r : RqMsg) (s : State) : Step := rqRow 6 k r s

/-- A WAKE_ACK comes in the order of the request bundle (R351, R355). -/
def execWakeAck (k : StandId) (s : State) : Step := runMsg s (rqArrive k wakeAckMsg)

/-- The core takes the first message of the `DL` crossing (R178, R351): what it holds is free, and waiting requests go on. The core-side half of
a girdled stand has its messages taken (R369); a port in reset or in RESYNC offers none (R370). -/
def dlTaken (k : StandId) (s : State) : State :=
  match cget [] s.port.dl k.val with
  | [] => s
  | d :: r =>
    let s := { s with port := { s.port with dl := cset [] s.port.dl k.val r, since := cset 0 s.port.since (k.val * 8 + 2) s.time } }
    rqRun (hungEnd (applyFree s k d.frees) k .dl) k

/-- The crossing offers nothing before RESYNC has completed (R370). -/
def dlPaused (s : State) (k : StandId) : Bool :=
  decide (cget .reset s.port.xst k.val = .reset) || decide (cget .reset s.port.xst k.val = .syncing)

def execDlMessageTaken (k : StandId) (s : State) : Step :=
  runMsg s (fun s => if frozenAt s k.val || dlPaused s k then s else dlTaken k s)

/-- The held item of an acceptor is dispatched once its bucket has refilled (R138, R140): a descriptor's, or the request at a port's
head. -/
def shaperRow (a : Acceptor) (s : State) : State :=
  match a with
  | .ring _ => shaperDispatch a s
  | .port k =>
    if portHeld s k then rqRun (shaperDispatch a s) k
    else if (cget none s.port.rqCol k.val).isSome then rqRun (advanceTo s (shapeDue s a)) k
    else s

def execShaperDispatch (a : Acceptor) (s : State) : Step := runMsg s (shaperRow a)

/-- A condition that the hang watchdog may find at a port (R364): since when it holds, where the block itself knows. No row says that a beat of
`TQ` or near-port read data has been taken, or that an `RQ` or `TR` message has begun: the command that reports the hang says it of these. It
ends when a message comes, for `TQ` when an answer shows that the request has been taken (log 80), for read data at the next access (log 52, 97). -/
def hangSince (s : State) (k : StandId) (c : HangCond) : Option Nat :=
  let at_ (i : Nat) : Nat := cget 0 s.port.since (k.val * 8 + i)
  match c with
  | .rq => some (s.time - oneMs)
  | .tq => (untaken s k).map (fun x => x.2.since)
  | .dl => if (cget [] s.port.dl k.val).isEmpty then none else some (at_ 2)
  | .tr => some (s.time - oneMs)
  | .nearPort => if (cget [] s.port.np k.val).isEmpty then none else some (at_ 4)
  | .wake => if cget false s.port.wake k.val then some (at_ 5) else none

/-- The code of a hang's channel (R376). -/
def hangNo : HangCond → Nat
  | .rq => 0 | .tq => 1 | .dl => 2 | .tr => 3 | .nearPort => 4 | .wake => 5

/-- The watchdog reports a hang (R364, R376): one event, `HUNG`, and the first in `STD_CP_HANG`. It is off for a fenced core site and while
`WDOG` is 0; that of a girdled stand is out of service with it. -/
def hangDetect (k : StandId) (c : HangCond) (s : State) : State :=
  if girdled s k.val || fenced s k.val || !regBit s (stdOff k 0x1D0) 0 || (cget [] s.port.hung k.val).contains c then s
  else match hangSince s k c with
  | none => s
  | some t =>
    let s := advanceTo s (t + oneMs)
    let s := { s with port := { s.port with hung := cmod [] s.port.hung k.val (c :: ·) } }
    let off := stdOff k 0x1E0
    let s := if regBit s off 63 then s else regSet s off (mkBit 63 true ||| mk 60 3 (hangNo c) ||| mk 0 32 (s.time / 1024))
    raise s cPortHang k.val 0 0

def execHangDetect (k : StandId) (c : HangCond) (s : State) : Step := run s (hangDetect k c)

/-- A descriptor of a port that has not been dispatched (R367): no part of its first work item has gone. -/
def undispatched (d : DescSt) : Bool :=
  decide (d.phase = .queued) || decide (d.phase = .ready) || decide (d.phase = .waiting) ||
  (decide (d.phase = .held) && (match d.items with | [] => true | w :: _ => w.off == 0))

/-- The descriptors of a port at a core reset (R367): their records are to be discarded, a chain without an end ends here, and those not
dispatched complete with PORT_RESET. -/
def resetDescs (s : State) (k : StandId) : State :=
  let a : Acceptor := .port k
  let l := queueOf s a
  let s := l.foldl (fun s i => modDesc s i (fun d => { d with dead := true })) s
  let s := chainCut s a
  let s := match oget s.sync.waits (accNo a) with
    | some w => watchDrop { s with sync := { s.sync with waits := oset s.sync.waits (accNo a) none } } a w
    | none => s
  let s := l.foldl (fun s i => match descAt s i with
    | some d => if undispatched d then completeWith (if d.chain.isSome then countLost s k 1 else s) i .portReset else s
    | none => s) s
  l.foldl (fun s i => match descAt s i with
    | some d => (match d.chain with | some c => chainDone s a c | none => s)
    | none => s) s

/-- Target requests of a port are answered with PORT_RESET (R367). -/
def resetTargets (s : State) (k : StandId) : State :=
  (List.range 32).foldl (fun s t => match oget s.port.tgts (targetKey k t) with
    | some x =>
      let s := { s with port := { s.port with tgts := oset s.port.tgts (targetKey k t) none } }
      countLost (answer s k x.m .portReset []) k 1
    | none => s) s

/-- What a core-side reset loses (R367): a direct request that the shaper holds is outstanding and runs on; a girdled port's half discards the same (R365).
An `RQ` message partly received, `part`, is discarded and counted; one that the watchdog found begun and not completed is one (log 97). -/
def coreLoss (s : State) (k : StandId) (part : Bool) : State :=
  let s := { s with port := { s.port with lossy := cset false s.port.lossy k.val true } }
  let s := if part || (cget [] s.port.hung k.val).contains .rq then countLost s k 1 else s
  let l := rqOf s k
  let s := match cget none s.port.rqCol k.val, l with
    | some c, r :: rest =>
      let s := setGone (setRq (countLost s k rest.length) k [r]) k true
      { s with port := { s.port with rqCol := cset none s.port.rqCol k.val (some c) } }
    | _, _ => setRq (countLost s k l.length) k []
  let s := resetDescs s k
  let rids := (List.range 256).foldl (fun t i => tmod (fun _ => none) t (k.val * 256 + i) (fun e => e.map (fun e => (e.1, true)))) s.port.rids
  let s := resetTargets { s with port := { s.port with rids := rids } } k
  let l := cget [] s.port.dl k.val
  let s := l.foldl (fun s d => countLost (applyFree s k d.frees) k 1) s
  let s := { s with port := { s.port with
    dl := cset [] s.port.dl k.val [], np := cset [] s.port.np k.val [], wake := cset false s.port.wake k.val false,
    hung := cset [] s.port.hung k.val [] } }
  barWithdraw k s

/-- Count a one-sided reset (R370, R376). -/
def countReset (s : State) (k : StandId) : State := regCount s (stdOff k 0x1D8) 32 16 1

/-- RESYNC begins where both halves are out of reset, S1 has reported, and the port is neither fenced nor girdled (R370, R375). -/
def resyncStart (s : State) (k : StandId) : State :=
  if cget false s.port.inRst k.val || decide (s.bup.reported < 2) || fenced s k.val || girdled s k.val || portGirdled s k.val then s
  else emit { s with port := { s.port with
      xst := cset .reset s.port.xst k.val .syncing
      since := cset 0 (cset 0 s.port.since (k.val * 8 + 6) s.time) (k.val * 8 + 7) 0 } } (.resync k)

/-- The fabric half detects `CPk_RST_N` asserted (R366, R367): `part` says that an `RQ` message is partly received then. -/
def coreResetAssert (k : StandId) (part : Bool) (s : State) : State :=
  if cget false s.port.inRst k.val then s
  else
    let s := { s with port := { s.port with inRst := cset false s.port.inRst k.val true } }
    if fenced s k.val || girdled s k.val then s
    else
      let s := coreLoss (countReset s k) k part
      { s with port := { s.port with xst := cset .reset s.port.xst k.val .reset } }

/-- The level of `CPk_RST_N` while `FAB_PORST_N` is low (R366, R375). -/
def coreLevel (k : StandId) (low : Bool) (s : State) : State := { s with port := { s.port with inRst := cset false s.port.inRst k.val low } }

def execCoreResetAssert (r : CoreReset) (s : State) : Step :=
  runPin s (coreLevel r.k true) (fun s => settle (coreResetAssert r.k r.part s))

/-- `CPk_RST_N` is deasserted (R370). -/
def coreResetRelease (k : StandId) (s : State) : State :=
  if cget false s.port.inRst k.val then
    resyncStart { s with port := { s.port with inRst := cset false s.port.inRst k.val false } } k
  else s

def execCoreResetRelease (k : StandId) (s : State) : Step := runPin s (coreLevel k false) (coreResetRelease k)

/-- The target requests that the core has not taken are to be offered again (R368): those not known to be taken, where the watchdog found one
untaken (log 80). -/
def unconfirmed (s : State) (k : StandId) : State :=
  if (cget [] s.port.hung k.val).contains .tq then
    { s with port := { s.port with tgts := (List.range 32).foldl (fun t i =>
        tmod (fun _ => none) t (targetKey k i) (Option.map (fun x => { x with offered := x.taken }))) s.port.tgts } }
  else s

/-- A fabric-side reset of a port loses nothing (R366, R368). -/
def fabricReset (s : State) (k : StandId) : State :=
  if fenced s k.val || girdled s k.val || portGirdled s k.val then s
  else
    let s := unconfirmed (countReset s k) k
    resyncStart { s with port := { s.port with xst := cset .reset s.port.xst k.val .reset } } k

/-- A write of `STD_CP_CTL` (R376): `PRST` resets the fabric half. -/
def cpCtlWrite (k : StandId) (wm v : Word) (s : State) : State :=
  let s := regWritePlain wm (stdOff k 0x1D0) v s
  if bitAt (v &&& wm) 1 then fabricReset s k else s

def execPortFabricReset (k : StandId) (v : Word) (s : State) : Step := mgStep s (stdOff k 0x1D0) v (cpCtlWrite k)

/-- RESYNC completes (R370): what the other half has not confirmed is offered, in order (R368), but at a frozen port (R484). A target request offered to a port that is
up counts as confirmed where the watchdog has not found it untaken (log 80). -/
def resyncAck (k : StandId) (s : State) : State :=
  if cget .reset s.port.xst k.val ≠ .syncing then s
  else
    let s := { s with port := { s.port with xst := cset .reset s.port.xst k.val .up, lossy := cset false s.port.lossy k.val false } }
    if frozenAt s k.val then s
    else
      let s := (cget [] s.port.dl k.val).foldl (fun s d => emit s (.dl k (dlBytes d))) s
      let s := (openTargets s k).foldl (fun s p =>
        if p.2.offered then s
        else emit { s with port := { s.port with
            tgts := oset s.port.tgts (targetKey k p.1) (some { p.2 with offered := true, since := s.time }) } } (.tq k (tqBytes p.1 p.2.m))) s
      rqRun s k

def execResyncAck (k : StandId) (s : State) : Step := runMsg s (resyncAck k)

/-- RESYNC has not completed within twice its bound (R406): one event. The bound counts core clocks, which the block does not. -/
def resyncTimeout (k : StandId) (s : State) : State :=
  if cget .reset s.port.xst k.val = .syncing ∧ cget 0 s.port.since (k.val * 8 + 7) = 0 then
    raise { s with port := { s.port with since := cset 0 s.port.since (k.val * 8 + 7) 1 } } cResyncTimeout k.val 0 0
  else s

def execResyncTimeout (k : StandId) (s : State) : Step := run s (resyncTimeout k)

/-- A port is girdled (R365): its half discards what it held for the core. -/
def portGirdle (s : State) (k : StandId) : State :=
  let s := coreLoss s k false
  { s with port := { s.port with xst := cset .reset s.port.xst k.val .down } }

/-- A port's stand is girdled (R369): its core-side half answers each outstanding `RID` and each incomplete slot with PORT_RESET. A
complete descriptor stays for its DEFERRED records (R178, R187); what else the stand's hub held is gone. -/
def portStandLost (s : State) (k : StandId) : State :=
  let put (s : State) (d : DlMsg) : State :=
    let l := cget [] s.port.dl k.val
    emit { s with port := { s.port with dl := cset [] s.port.dl k.val (l ++ [d]) } } (.dl k (dlBytes d))
  let s := (List.range 256).foldl (fun s i => match oget s.port.rids (k.val * 256 + i) with
    | some e =>
      let s := { s with port := { s.port with rids := oset s.port.rids (k.val * 256 + i) none, buf := cmod 0 s.port.buf k.val (· - e.1) } }
      if e.2 then s else put s { kind := 0, status := .portReset, rid := BitVec.ofNat 8 i, data := [], frees := .nothing }
    | none => s) s
  let q := queueOf s (.port k)
  let s := q.foldl (fun s i => match descAt s i with
    | some d =>
      if d.phase = .complete ∧ d.chain.isNone then s
      else if d.dead then s
      else put s { kind := 1, status := .portReset, rid := 0, data := record recNormal 0 .portReset (dTag d.raw) 0 0 d.idx, frees := .nothing }
    | none => s) s
  let s := q.foldl (fun s i => match descAt s i with
    | some d => if d.phase = .complete then tryErase (modDesc s i (fun d => { d with chain := none })) i else eraseDesc s i
    | none => s) s
  let p := s.port
  let tg := (List.range 32).foldl (fun t i => oset t (targetKey k i) none) p.tgts
  let sl := (List.range 16).foldl (fun t i => oset t (k.val * 16 + i) none) p.slots
  let s := { s with port := { p with
    tgts := tg, slots := sl, np := cset [] p.np k.val [], wake := cset false p.wake k.val false, hung := cset [] p.hung k.val [],
    xst := cset .reset p.xst k.val .down } }
  let s := { s with sync := { s.sync with waits := oset s.sync.waits (accNo (.port k)) none } }
  barWithdraw k (setGone (setRq s k []) k false)

/-- `STD_CP_STATUS` (R376). -/
def cpStatus (s : State) (k : StandId) : Word :=
  let down := fenced s k.val || girdled s k.val || portGirdled s k.val
  let x := if down then 3 else match cget .reset s.port.xst k.val with | .reset => 0 | .syncing => 1 | .up => 2 | .down => 3
  mkBit 63 (fenced s k.val) ||| mk 61 2 x ||| mkBit 60 (cget false s.port.wake k.val) |||
    mkBit 59 (!(cget [] s.port.hung k.val).isEmpty) ||| (regGet s (stdOff k 0x1D8) &&& mask 0 48)

end Sys2Proof.Machine
end

