-- ==== Sys2Proof/Machine/Dormancy.lean ====
section
/-! DEFINITION. The dormancy controller and its voters (R338 to R343). -/

namespace Sys2Proof.Machine

/-- The entries of a table whose keys lie in [lo, lo + n). -/
def tslice {α : Type} (t : Tbl α) (lo n : Nat) : List α :=
  (t.filter (fun p => decide (lo ≤ p.1) && decide (p.1 < lo + n))).map Prod.snd

/-- A source unit holds an unacknowledged message, or one that waits (R113, R339). -/
def unitBusy (s : State) (u : SrcUnit) : Bool :=
  (tslice s.trans.flows (unitNo u * 8192) 8192).any (fun f => !f.win.isEmpty || !f.wait.isEmpty) ||
  !(cget [] s.trans.noSlot (unitNo u)).isEmpty

/-- A core port holds a request or a descriptor other than a WAIT (R339). -/
def portBusy (s : State) (k : StandId) : Bool :=
  !(rqOf s k).isEmpty || (tslice s.port.rids (k.val * 256) 256).any Option.isSome ||
  (queueOf s (.port k)).any (fun i => match descAt s i with | some d => dOp d.raw != opWait | none => false)

/-- Whether a stand would vote YES (R339). -/
def standIdle (s : State) (st : StandId) : Bool :=
  (tslice s.mesh.inv (st.val * 192) 192).all (fun v => v.q.isEmpty && v.opened.isNone) &&
  !unitBusy s (.port st) && !unitBusy s (.mover st) && !unitBusy s (.reducer st) && !unitBusy s (.hub st) &&
  (cget [] s.trans.recv st.val).all (fun e => e.unacked == 0) && decide (s.epoch.phase = .idle) &&
  (tslice s.all.mems (st.val * 64) 64).all (fun m => match m with | some m => !m.started || m.gone | none => true) &&
  (tslice s.red.cmb (st.val * 8) 8).all (fun q => q.del.isNone) &&
  (List.range 34).all (fun b => !ownBusy (ownReg s st.val b) && !ownTsync (ownReg s st.val b)) && !portBusy s st

/-- A descriptor of a ring that is an armed operation or a watch, and so prevents no YES (R339). -/
def standsBy (s : State) (id : Nat) (d : DescSt) : Bool :=
  ((dOp d.raw == opArm && decide (d.phase = .running) && (groupAt s (aGroup d.raw)).armed && (match opAt s (aGroup d.raw) with | some o => o.desc == id | none => false)) ||
   (dOp d.raw == opWait && (match oget s.sync.waits (accNo d.acc) with | some w => w.desc == id && decide (w.mode ≠ .polling) | none => false)))

/-- Whether a voter would vote YES (R339). -/
def voterIdle (s : State) : Voter → Bool
  | .stand st => standIdle s st
  | .hostAgent =>
    s.tnt.entries.all (fun p => p.2.isNone || !unfetched s p.1) && s.host.holding.isEmpty && !unitBusy s .hostAgent &&
    s.host.descs.all (fun p => match p.2 with
      | some d => (match d.acc with | .ring _ => decide (d.phase = .complete) || standsBy s p.1 d | .port _ => true) | none => true)
  | .collector =>
    s.flt.fifo.isEmpty && s.flt.inbox.isEmpty && decide (s.epoch.phase = .idle) && cmdDone s s.tnt.result && cmdDone s s.host.ringRes

/-- The die is idle: every stand would vote YES (R338). -/
def dieIdle (s : State) : Bool := stands.all (fun st => girdled s st.val || standIdle s st)

/-- A proposal may be made: in SERVICE, in stage S7, outside a dump and the fatal state (R341, R447, R484). -/
def mayPropose (s : State) : Bool :=
  decide (s.dorm.phase = .service) && regBit s 0xA20 63 && decide (7 ≤ s.bup.reported) && decide (s.obs.dump = .idle) && !fatalLatched s

/-- PROPOSE is broadcast with a new round number (R341). -/
def dormPropose (s : State) : State :=
  sendRhz { s with dorm := { s.dorm with phase := .proposed, round := s.dorm.round + 1, cast := [], yes := [], nos := [], taken := [], at_ := s.time } }
    (.propose (s.dorm.round + 1))

/-- A write of `GLB_DORM_CTL` (R338): `WAKE` is a wake request, `NOW` proposes at once where `EN` is 1. -/
def dormCtlWrite (wm v : Word) (s : State) : State :=
  let s := regWritePlain wm 0xA20 v s
  let s := if bitAt (v &&& wm) 61 then wakeRequest s .collector else s
  if bitAt (v &&& wm) 62 && mayPropose s then dormPropose s else s

def execDormancyNow (v : Word) (s : State) : Step := mgStep s 0xA20 v dormCtlWrite

/-- The row of a write that sets `WAKE`; the register is the same. -/
def dormWakeRow (wm v : Word) (s : State) : State := dormCtlWrite wm v s

def execDormancyWakeWrite (v : Word) (s : State) : Step := mgStep s 0xA20 v dormWakeRow

/-- The moment from which the die has been idle, as far as its state tells: the last change of the controller, arrival of a message at a
hub, acknowledgement or response at a unit, or other end of work at a stand (log 107). -/
def idleSince (s : State) : Nat :=
  let t := s.trans.flows.foldl (fun t p => max t (p.2.lastAck.getD 0)) (max s.dorm.at_ s.dorm.act)
  s.trans.recv.foldl (fun t p => p.2.foldl (fun t e => max t e.last) t) t

/-- `IDLE_US` in ns; 0 acts as 1 (R338). -/
def idleNs (s : State) : Nat := 1000 * max 1 (regFld s 0xA20 0 16)

/-- The die has been idle for `IDLE_US` (R338, R341). -/
def dormIdle (s : State) : State := if mayPropose s && dieIdle s then dormPropose (advanceTo s (idleSince s + idleNs s)) else s

def execDormancyIdleExpiry (s : State) : Step := run s dormIdle

/-- A voter receives PROPOSE and sends its vote (R339), unless it has sent NO for a wake request. -/
def dormReceive (w : Voter) (s : State) : State :=
  if s.dorm.phase = .proposed ∧ w ∈ voters s ∧ w ∉ s.dorm.cast ∧ w ∉ s.dorm.nos.map Prod.fst then
    (if voterIdle s w then sendRhz { s with dorm := { s.dorm with cast := w :: s.dorm.cast } } (.vote w s.dorm.round true)
     else sendRhz s (.vote w s.dorm.round false))
  else s

def execDormancyProposeReceive (w : Voter) (s : State) : Step := run s (dormReceive w)

/-- COMMIT is broadcast, and the pace loop requests `VDORM` (R341, R342, R450). -/
def dormCommitAll (s : State) : State :=
  sendRhz { s with dorm := { s.dorm with phase := .entering, latched := false, taken := [], banks := [], at_ := s.time },
                   pwr := { s.pwr with saved := s.pwr.vfab, vfab := regFld s 0x2010 40 8 } } (.commit s.dorm.round)

/-- With YES from every voter of the round the controller commits (R341): girdled stands drop out. -/
def dormCheck (s : State) : State :=
  if s.dorm.phase = .proposed ∧ (voters s).all (fun w => decide (w ∈ s.dorm.yes)) then dormCommitAll s else s

/-- A vote or withdrawal reaches the controller (R341): one of another round is ignored. `WHY` is 1 for a voter that saw a wake request before it
voted, 2 for a NO vote or a withdrawn YES; after COMMIT a NO is a wake request, which in DORMANT starts the exit. -/
def dormVote (w : Voter) (round : Nat) (yes : Bool) (s : State) : State :=
  if round ≠ s.dorm.round ∨ w ∉ voters s then s
  else match s.dorm.phase, yes with
  | .proposed, true => if w ∈ s.dorm.cast ∧ w ∉ s.dorm.yes then dormCheck { s with dorm := { s.dorm with yes := w :: s.dorm.yes } } else s
  | .proposed, false => dormAbort s (if (w, true) ∈ s.dorm.nos then 1 else 2)
  | .entering, false => { s with dorm := { s.dorm with latched := true } }
  | .dormant, false => dormExit { s with dorm := { s.dorm with latched := true } }
  | _, _ => s

def execDormancyVote (w : Voter) (round : Nat) (yes : Bool) (s : State) : Step := run s (dormVote w round yes)

/-- 2 µs pass without every vote (R341). -/
def dormVoteTimeout (s : State) : State :=
  if s.dorm.phase = .proposed then dormAbort (advanceTo s (s.dorm.at_ + 2000)) 3 else s

def execDormancyVoteTimeout (s : State) : Step := run s dormVoteTimeout

/-- A bank that COMMIT puts in retention: released, owned, not already retained or asked to be (R342). -/
def dormTakes (s : State) (st bank : Nat) : Bool :=
  let o := ownReg s st bank
  ownReleased o && ownKind o != 0 && ownRstate o != 2 && !ownRet o

/-- A stand receives COMMIT (R342), where a path of the rhizome reaches it (R421): it sets `RET` on its banks and records which. -/
def dormCommit (st : StandId) (s : State) : State :=
  if s.dorm.phase = .entering ∧ st ∉ s.dorm.taken ∧ !girdled s st.val ∧ !noPath s st.val then
    let l := (List.range 34).filter (dormTakes s st.val)
    let s := l.foldl (fun s b => retSet s st.val b) s
    { s with dorm := { s.dorm with taken := st :: s.dorm.taken, banks := s.dorm.banks ++ l.map (fun b => (st, b)) } }
  else s

def execDormancyCommit (st : StandId) (s : State) : Step := run s (dormCommit st)

/-- A recorded bank is still on its way into retention; one whose entry an access has aborted is not (log 23). -/
def dormEntering (s : State) (p : StandId × Nat) : Bool :=
  let o := ownReg s p.1.val p.2
  !girdled s p.1.val && ownRet o && ownRstate o != 2

/-- Entry is complete (R341, R342): dormant, or on the way out where a request is latched. -/
def dormEntryComplete (s : State) : State :=
  if s.dorm.phase = .entering ∧ stands.all (fun st => girdled s st.val || decide (st ∈ s.dorm.taken)) ∧
      !s.dorm.banks.any (dormEntering s) then
    let s := regCount s 0xA28 32 16 1
    if s.dorm.latched then dormExit s else { s with dorm := { s.dorm with phase := .dormant, at_ := s.time } }
  else s

def execDormancyEntryComplete (s : State) : Step := run s dormEntryComplete

/-- A wake request in DORMANT (R341). -/
def execDormancyExitStart (s : State) : Step := run s fun s => if s.dorm.phase = .dormant then wakeRequest s .collector else s

/-- The reports to other dies that waited for SERVICE go out (R343). -/
def farFlush (s : State) : State :=
  s.sync.held.foldl (fun s x => farSend s x.1 x.2.1 x.2.2) { s with sync := { s.sync with held := [] } }

/-- The exit is complete: the recorded banks are ACTIVE and the pace is at the floor (R341, R342); what was withheld goes on (R343). -/
def dormExitComplete (s : State) : State :=
  if s.dorm.phase = .exiting ∧ s.dorm.banks.all (fun p => girdled s p.1.val || ownRstate (ownReg s p.1.val p.2) == 0) ∧ 160 ≤ s.pwr.p then
    let s := { s with dorm := { s.dorm with
      phase := .service, latched := false, exitNs := min 65535 (s.time - s.dorm.at_), taken := [], banks := [], at_ := s.time } }
    stands.foldl rqRun (farFlush (barFlush (barCheckAll s)))
  else s

def execDormancyExitComplete (s : State) : Step := runMsg s dormExitComplete

/-- `GLB_DORM_STATUS` (R338). -/
def dormStatus (s : State) : Word :=
  let p := match s.dorm.phase with | .service => 0 | .proposed => 1 | .entering => 2 | .dormant => 3 | .exiting => 4
  mk 61 3 p ||| mkBit 60 s.dorm.latched ||| mk 56 4 s.dorm.why ||| (regGet s 0xA28 &&& mask 16 32) ||| mk 0 16 s.dorm.exitNs

end Sys2Proof.Machine
end

