-- ==== Sys2Proof/Machine/Epoch.lean ====
section
/-! DEFINITION. Route epochs: the epoch controller and the stands' part in a switch, and the skids' ALT and DOWN
(R54, R55, R104, R106 to R111). -/

namespace Sys2Proof.Machine

/-- A guard names a girdled stand (R104). -/
def guardHit (s : State) (g : Word) : Bool := (BitVec.ofNat 48 (fld g 0 48) &&& s.map.gstand) != 0

/-- ALT and DOWN that the girdles ask for at a source slot of a bank, as bits 62 and 61: ALT when the primary guard is hit, DOWN when both
are (R104). -/
def skidWant (s : State) (par : Bool) (off : Nat) : Word :=
  let alt := guardHit s (bkGet s par (off + 8))
  mkBit 62 alt ||| mkBit 61 (alt && guardHit s (bkGet s par (off + 16)))

/-- Set ALT and DOWN of a source slot of a bank; `keep`: what is set stays set. -/
def skidPut (s : State) (par keep : Bool) (st : StandId) (j : Nat) : State :=
  let off := stdOff st (0x800 + j * 32)
  let w := bkGet s par off
  if !(bitAt w 63 && bitAt w 60) then s
  else
    let new := skidWant s par off ||| (if keep then w &&& mask 61 2 else 0)
    if new = w &&& mask 61 2 then s else bkSet s par off ((w &&& ~~~(mask 61 2)) ||| new)

/-- The source slots listed in a table of banked registers: (stand, slot). -/
def skidSlots (s : State) : List (StandId × Nat) :=
  (s.banked.filterMap (fun (k, _) =>
    match standWindow (k % 2 ^ 24) with
    | some (st, o) => if inArray o 0x800 64 32 then some (st, (o - 0x800) / 32) else none
    | none => none)).eraseDups

/-- A slot is DOWN in a bank, and was not so in a word of it: ROUTER SKID_DOWN (R104). -/
def skidEvent (s : State) (was : Word) (par : Bool) (st : StandId) (j : Nat) : State :=
  if bitAt (bkGet s par (stdOff st (0x800 + j * 32))) 61 && !bitAt was 61 then raise s cSkidDown st.val 0 0 else s

/-- Every source slot of the bank that a switch makes active is brought in line with the girdles: ALT and DOWN clear, or are set where the
bank's own guards ask for it (R104). -/
def skidsAtSwitch (s : State) : State :=
  (skidSlots s).foldl (fun s p =>
    let was := bkGet s (!parity s) (stdOff p.1 (0x800 + p.2 * 32))
    skidEvent (skidPut s (parity s) false p.1 p.2) was (parity s) p.1 p.2) s

/-- A girdle only sets ALT and DOWN, in both banks, since the old one still serves fronds and stands during a switch; they clear at a switch
(R104, R107). -/
def skidGirdle (s : State) (st : StandId) (j : Nat) : State :=
  let was := bkGet s (parity s) (stdOff st (0x800 + j * 32))
  skidEvent (skidPut (skidPut s (parity s) true st j) (!parity s) true st j) was (parity s) st j

/-- A switch is requested (R107): in IDLE, EPOCH + 1 and FLIP, with ALT and DOWN of the new bank as the girdles have them (R104); else
PENDING. -/
def epochRequest (s : State) : State :=
  if s.epoch.phase = .idle then
    sendRhz (skidsAtSwitch { s with epoch := { s.epoch with
      phase := .flipping, epoch := s.epoch.epoch + 1, reqAt := s.time, taken := [], acked := [] } }) .flip
  else { s with epoch := { s.epoch with pending := true } }

/-- A write of `GLB_EPOCH_CTL`: REQ 1 requests a switch (R110). -/
def epochCtlWrite (wm v : Word) (s : State) : State := if bitAt (v &&& wm) 0 then epochRequest s else s

def execEpochSwitchRequest (v : Word) (s : State) : Step := mgStep s 0x80 v epochCtlWrite

/-- A stand takes FLIP: it acknowledges, freezes its injection counts of the old parity and injects with the new one
(R107, R108). One that no path of the rhizome reaches gets none (R421). -/
def execFlipReceive (st : StandId) (s : State) : Step :=
  run s fun s =>
    if s.epoch.phase = .flipping ∧ st ∉ s.epoch.taken ∧ !girdled s st.val ∧ !noPath s st.val then
      sendRhz { s with epoch := { s.epoch with taken := st :: s.epoch.taken } } (.flipAck st)
    else s

/-- Every stand that is not girdled has acknowledged FLIP: the drain count starts (R107). -/
def flipDone (s : State) : State :=
  if s.epoch.phase = .flipping ∧ stands.all (fun st => girdled s st.val || decide (st ∈ s.epoch.acked)) then
    { s with epoch := { s.epoch with phase := .draining } }
  else s

/-- An acknowledgement of FLIP reaches the controller (R107). -/
def execFlipAck (st : StandId) (s : State) : Step :=
  run s fun s =>
    if s.epoch.phase = .flipping ∧ st ∈ s.epoch.taken ∧ st ∉ s.epoch.acked then
      flipDone { s with epoch := { s.epoch with acked := st :: s.epoch.acked } }
    else s

/-- Old-epoch fronds injected and ejected across the die; a girdled stand's own counts are replaced by its neighbours' (R108). -/
def drainSums (s : State) : Nat × Nat :=
  let par := parNo (!parity s)
  let k (st pl : Nat) := (par * 48 + st) * 4 + pl
  stands.foldl (fun a st => (List.range 4).foldl (fun a pl =>
    if girdled s st.val then (a.1 + cget 0 s.epoch.nbFrom (k st.val pl), a.2 + cget 0 s.epoch.nbTo (k st.val pl))
    else (a.1 + cget 0 s.epoch.inj (k st.val pl), a.2 + cget 0 s.epoch.ej (k st.val pl))) a) (0, 0)

/-- The drain condition (R108). -/
def drained (s : State) : Bool := (drainSums s).1 == (drainSums s).2

/-- The counts of the old parity, ended with its drain. -/
def dropCounts (s : State) : State :=
  let lo := parNo (!parity s) * 192
  { s with epoch := { s.epoch with
      inj := tclear s.epoch.inj lo 192, ej := tclear s.epoch.ej lo 192,
      nbFrom := tclear s.epoch.nbFrom lo 192, nbTo := tclear s.epoch.nbTo lo 192 } }

/-- The old epoch has drained: its bank is released and copying begins (R55, R107). -/
def execEpochDrainComplete (s : State) : Step :=
  run s fun s =>
    if s.epoch.phase = .draining ∧ drained s then
      let s := dropCounts s
      { s with epoch := { s.epoch with phase := .copying } }
    else s

/-- 150 µs since the request without the drain: STUCK and ROUTER EPOCH_STUCK, once (R107, R407). -/
def execEpochDrainTimeout (s : State) : Step :=
  run s fun s =>
    if s.epoch.phase = .draining ∧ !s.epoch.stuck then
      let s := advanceTo s (s.epoch.reqAt + 150000)
      raise { s with epoch := { s.epoch with stuck := true } } cEpochStuck locFault 0 0
    else s

/-- The active banks copied into the staged banks (R55, R107). -/
def copyBanks (s : State) : State :=
  let act := s.banked.filterMap (fun (k, v) => if k / 2 ^ 24 = parNo (parity s) then some (k % 2 ^ 24, v) else none)
  { s with banked := act ++ act.map (fun (k, v) => (k + 2 ^ 24, v)) }

/-- The copy completes: STUCK clears, the duration is recorded, and a pending switch starts (R107, R110). -/
def execEpochCopyComplete (s : State) : Step :=
  run s fun s =>
    if s.epoch.phase = .copying then
      let us := min 65535 ((s.time - s.epoch.reqAt) / 1000)
      let p := s.epoch.pending
      let s := copyBanks s
      let s := workEnds s
      let s := { s with epoch := { s.epoch with phase := .idle, stuck := false, pending := false, lastUs := BitVec.ofNat 16 us } }
      if p then epochRequest s else s
    else s

/-- `GLB_EPOCH_STATUS` (R110). -/
def epochStatus (s : State) : Word :=
  let ph := match s.epoch.phase with | .idle => 0 | .flipping => 1 | .draining => 2 | .copying => 3
  mk 40 16 s.epoch.lastUs.toNat ||| mkBit 35 s.epoch.stuck ||| mkBit 34 s.epoch.pending ||| mk 32 2 ph ||| mk 0 32 s.epoch.epoch.toNat

end Sys2Proof.Machine
end

