-- ==== Sys2Proof/Machine/Hall.lean ====
section
/-! DEFINITION. The hall ports: frames, send and receive contexts, delivery to the tap stand (R392 to R401). -/

namespace Sys2Proof.Machine

/-- A hall port takes and sends frames: it is UP, not quiesced, and its tap stand is in service and not frozen (R28, R392, R484). -/
def hallLive (s : State) (h : Nat) : Bool :=
  (hallAt s h).up && !(hallAt s h).quiet && !girdled s (hallTap h) && !frozenAt s (hallTap h)

/-- The MAC reports its link up (R392). -/
def hallLink (h : Nat) (s : State) : State :=
  modHall s h (fun x => { x with link := true, up := regBit s (hallOff h) 63 })

/-- The level of a MAC's link while `FAB_PORST_N` is low. -/
def hallLevel (h : Nat) (up : Bool) (s : State) : State := modHall s h (fun x => { x with link := up })

def execHallLinkUp (h : Fin 8) (s : State) : Step := runPin s (hallLevel h.val true) (hallLink h.val)

/-- The MAC reports its link down: a port that was UP raises LINK_DOWN and keeps its contexts (R392). -/
def hallUnlink (h : Nat) (s : State) : State :=
  let x := hallAt s h
  let s' := setHall s h { x with link := false, up := false }
  if x.up && !x.quiet then raise s' cLinkDown (locHall h) 0 0 else s'

def execHallLinkDown (h : Fin 8) (s : State) : Step := runPin s (hallLevel h.val false) (hallUnlink h.val)

/-- A write of `HAL_PCTL.EN`: 0 takes the port out of use without an event, and releases a quiesced one but in the fatal safe state
(R392, R403, R419, R433). -/
def hallEnable (h : Nat) (wm v : Word) (s : State) : State :=
  let s := regWritePlain wm (hallOff h) v s
  let en := regBit s (hallOff h) 63
  modHall s h (fun x => { x with up := en && x.link, quiet := x.quiet && (en || fatalLatched s) })

def execHallPortEnableWrite (h : Fin 8) (v : Word) (s : State) : Step := mgStep s (hallOff h.val) v (hallEnable h.val)

/-- Fields of a frame (R393, R394). -/
def frDst (b : List Byte) : BitVec 48 := BitVec.ofNat 48 (beNat (sub b 0 6))
def frSrc (b : List Byte) : BitVec 48 := BitVec.ofNat 48 (beNat (sub b 6 6))
def frEtype (b : List Byte) : Nat := beNat (sub b 12 2)
def frType (b : List Byte) : Nat := leAt b 14 1 / 16
def frN (b : List Byte) : Nat := leAt b 15 1
def frLen (b : List Byte) : Nat := leAt b 16 2
def frSeq (b : List Byte) : BitVec 32 := BitVec.ofNat 32 (leAt b 18 4)
def frCum (b : List Byte) : BitVec 32 := BitVec.ofNat 32 (leAt b 22 4)
def frFlags (b : List Byte) : Nat := leAt b 26 1
def frSack (b : List Byte) : Nat := leAt b 30 8
def frPlane (b : List Byte) : PlaneId := planeOf (frFlags b / 4 % 4)

/-- The frond entries of a DATA frame (R394). -/
def frFronds (b : List Byte) : List HallFrond :=
  (List.range (frN b)).map (fun i =>
    { stem := bytesBv 128 (sub b (30 + 80 * i) 16), payload := bytesBv 512 (sub b (46 + 80 * i) 64) })

/-- The last check of R396: the frame is a Quoren frame for this port. -/
def frameFormOk (s : State) (h : Nat) (b : List Byte) : Bool :=
  frEtype b == hallEtype s && frDst b == ownMac s h && leAt b 14 1 % 16 == 1 && decide (frType b < 6) &&
  decide (frLen b + 14 ≤ b.length) &&
  (frType b != 0 || (frLen b == 16 + 80 * frN b && decide (1 ≤ frN b) && decide (frN b ≤ 114)))

/-- A received frame: the checks of R396 in order, then what its type asks for. -/
def hallFrame (h typ : Nat) (f : Frame) (act : BitVec 48 → List Byte → State → State) (s : State) : State :=
  let off := hallOff h + 8
  if !hallLive s h then s
  else if f.trueLen ≤ 63 then raise (regCount s off 48 16 1) cRunt (locHall h) 0 0
  else if 9217 ≤ f.trueLen then raise (regCount s off 32 16 1) cGiant (locHall h) 0 0
  else if !f.fcsOk then raise (regCount s off 16 16 1) cFcs (locHall h) 0 0
  else if !frameFormOk s h f.bytes then regCount s off 0 16 1
  else if frType f.bytes = typ then act (frSrc f.bytes) f.bytes s
  else s

/-- A receive context. -/
def recvCtx (s : State) (h : Nat) (peer : BitVec 48) : Option RecvCtx := oget (hallAt s h).recv peer.toNat

/-- Set a receive context. -/
def setRecvCtx (s : State) (h : Nat) (peer : BitVec 48) (c : Option RecvCtx) : State :=
  modHall s h (fun x => { x with recv := oset x.recv peer.toNat c })

/-- The VC that an arriving stem's VC becomes (R400); none for a reserved one. -/
def hallVc (vc : Nat) : Option Nat :=
  match vc with
  | 0 => some 7 | 7 => some 7 | 1 => some 1 | 3 => some 3 | 4 => some 4 | _ => none

/-- A message open on a VC of this die, by the peer that sends it and the VC it arrives on. -/
def ownerId (peer : BitVec 48) (vc : Nat) : Nat := peer.toNat * 8 + vc

/-- The meter at hall ingress of a request message, its colour after it, and the count of `OBS_COLOUR` (R141, R142, R144, R467). -/
def hallMeter (s : State) (h : Nat) (tag : BitVec 16) (b : Nat) (c : BitVec 2) : BitVec 2 × State :=
  let count (c' : BitVec 2) (s : State) : State :=
    if c' = yellow then tally s 0xC0190 1 else if c' = red then tally s 0xC0198 1 else s
  match tenantOf s tag with
  | some (n, t) =>
    if !bitAt t.police 62 then (c, s)
    else
      let (c', m) := markColour (cget {} t.hpol h) t.police b c (bitAt t.police 61) s.time
      (c', count c' (setTenant s n (some { t with hpol := cset {} t.hpol h m })))
  | none =>
    let p := regGet s 0xB8F00
    if !bitAt p 62 then (c, s)
    else
      let (c', m) := markColour (cget {} s.tnt.guest h) p b c (bitAt p 61) s.time
      (c', count c' { s with tnt := { s.tnt with guest := cset {} s.tnt.guest h m } })

/-- The charge of the message that a frond starts (R80, R137). -/
def startCharge (x : HallFrond) : Nat := if stKind x.stem = 1 then chargeOf (fld x.payload 28 13) else 64

/-- The router input of a tap stand has room for a frond of a VC from its hall port (R85). -/
def hallRoom (s : State) (h pl vc : Nat) : Bool :=
  decide (((inVc s (hallTap h) pl 5 vc).q.filter (fun f => !f.own)).length < 8)

/-- A contribution to a combining queue: RKIND 0 or 1 (R77, R207). -/
def isContribution (f : Frond) : Bool := startsMsg f.stem && stOp f.stem == 5 && decide (fld (header f) 56 2 < 2)

/-- A frond at the router input of the tap stand (R395, R400): a starting frond resolves its target, the rest follows its message. A
contribution to a combining queue is refused with ADDR_RANGE (R207). -/
def hallEnter (s : State) (h : Nat) (pl : PlaneId) (vc : Nat) (x : HallFrond) : State :=
  let st := standOf (hallTap h)
  let inp : Fin 6 := 5
  let stem := if startsMsg x.stem then arriveStem s st x.stem
    else match (inVc s st.val pl.val 5 vc).opened with
    | some o => bodyStem o.stem (stKind x.stem) (stValid x.stem) o.seq
    | none => arriveStem s st x.stem
  let f : Frond := { stem := stem, payload := x.payload, pcheck := BitVec.ofNat 16 (crc16 (leBytes 64 x.payload.toNat)) }
  let s := wakeRequest (if isAbort f then s else countInj s (stEpoch stem) st.val pl.val 1) (.stand st)
  if !checkOk { f with stem := x.stem } then raise (discardKnown s st pl inp f) cStemCrc st.val (meshSub pl.val 5) 0
  else if reservedStem f then raise (discardKnown s st pl inp f) cReservedValue st.val (meshSub pl.val 5) 0
  else if isContribution f then answer (discardKnown s st pl inp f) st (headMsg pl f) .addrRange []
  else if startsMsg stem then arriveStart s st pl inp f
  else acceptRest s st pl inp f

/-- The stem of a starting frond on the VC that R400 gives it: on VC 7 `EXPRESS` is 0 and the colour the meter's (R135, R141). -/
def hallStem (x : BitVec 128) (vc : Nat) (c : BitVec 2) : BitVec 128 :=
  sealStem (BitVec.ofNat 128 (x.toNat % 2 ^ 118 + (if stExpress x && vc != 7 then 2 ^ 118 else 0) + c.toNat * 2 ^ 119 +
    fld x 121 1 * 2 ^ 121 + vc * 2 ^ 122 + stKind x * 2 ^ 125))

/-- The refusal stub of a red message (R146): a SINGLE with its stem and header, LENGTH 0 and no data. -/
def stubOf (x : HallFrond) (vc : Nat) : HallFrond :=
  let st := hallStem x.stem vc red
  { stem := sealStem (BitVec.ofNat 128 (st.toNat % 2 ^ 125)),
    payload := BitVec.ofNat 512 (put 28 13 0 (BitVec.ofNat 64 (fld x.payload 0 64))).toNat }

/-- A request for this die whose EXPRESS goes with VC 7 is noted, so that its response regains it; an older note of its flow and SEQ ends
(R135; log 85). -/
def noteExpress (s : State) (pl : PlaneId) (x : HallFrond) (on7 : Bool) : State :=
  let m := headMsg pl { stem := x.stem, payload := x.payload, pcheck := 0 }
  let k := (keyOf m, m.seq)
  let rest := s.trans.cleared.filter (fun y => decide (y ≠ k))
  if !namesThisDie s m.dest || m.op == opReadRsp then s
  else { s with trans := { s.trans with cleared := if on7 && m.express then k :: rest else rest } }

/-- A frond of a message whose turn it is (R400): metered and placed, or discarded where its message is in skip state or not open. -/
def hallPlace (s : State) (h : Nat) (y : PeerFrond) : State :=
  let v := stVc y.f.stem
  let vc := (hallVc v).getD 7
  let pl := y.plane
  let key := y.peer.toNat * 32 + pl.val * 8 + v
  let ok := pl.val * 8 + vc
  let k := stKind y.f.stem
  let set (s : State) (skip : Bool) (own : Option Nat) : State :=
    modHall s h (fun x => { x with skip := cset false x.skip key skip, owner := oset x.owner ok own })
  let goes (s : State) (c : BitVec 2) : State :=
    let s := if k = 0 ∨ k = 1 ∨ k = 4 then set s false (if k = 1 then some (ownerId y.peer v) else none) else s
    hallEnter s h pl vc (if startsMsg y.f.stem then { y.f with stem := hallStem y.f.stem vc c } else y.f)
  let s := tally s (0xC3C08 + h * 16) 64
  if startsMsg y.f.stem then
    let s := noteExpress s pl y.f (vc == 7)
    let c := BitVec.ofNat 2 (stColour y.f.stem)
    if vc = 7 then
      let (c, s) := hallMeter s h (stTenant y.f.stem) (startCharge y.f) c
      if c = red then hallEnter (set s (k == 1) none) h pl vc (stubOf y.f vc) else goes s c
    else goes s c
  else if oget (hallAt s h).owner ok = some (ownerId y.peer v) then
    goes (if k = 3 then set s false none else s) 0
  else if k = 3 then modHall s h (fun x => { x with skip := cset false x.skip key false })
  else s

/-- The first waiting frond whose VC is free or held by its own message, and has room at the tap stand (R85, R400). -/
def hallNext (s : State) (h : Nat) : Option PeerFrond :=
  let x := hallAt s h
  x.later.find? (fun y =>
    let v := stVc y.f.stem
    let vc := (hallVc v).getD 7
    hallRoom s h y.plane.val vc &&
    (match oget x.owner (y.plane.val * 8 + vc) with
    | none => true
    | some o => o == ownerId y.peer v))

/-- Fronds that wait for a VC of the tap stand go on. -/
def hallPump (h : Nat) : Nat → State → State
  | 0, s => s
  | n + 1, s =>
    match hallNext s h with
    | none => s
    | some y => hallPump h n (hallPlace (modHall s h (fun x => { x with later := x.later.erase y })) h y)

/-- Fronds that wait at a stand's hall port for room in its router inputs go on (R85). -/
def hallGoOn (st : StandId) (s : State) : State :=
  match tapHall st.val with
  | some h => if girdled s st.val then s else hallPump h.val (hallAt s h.val).later.length s
  | none => s

/-- One handshake of an output, and what it gives room for (R85, R91). -/
def execOutputArbitrate (st : StandId) (pl : PlaneId) (outp : Fin 6) (s : State) : Step :=
  run s (fun s => hallGoOn st (arbitrate st pl outp s))

/-- A frond of a delivered frame (R400): a reserved VC is discarded; another message that holds its VC goes first. -/
def hallArrive (s : State) (h : Nat) (y : PeerFrond) : State :=
  let v := stVc y.f.stem
  match hallVc v with
  | none => raise (tally s (0xC3C08 + h * 16) 64) cReservedVc (locHall h) 0 0
  | some _ =>
    let s := modHall s h (fun x => { x with later := x.later ++ [y] })
    hallPump h (hallAt s h).later.length s

/-- An empty slot is reached: every message of the peer that is open closes with an abort tail, and its VC is in skip state (R398, R89). The
open one is the last delivered on its VC where that has not ended: an earlier one whose TAIL waits for room goes on. -/
def hallLoss (s : State) (h : Nat) (peer : BitVec 48) : State :=
  let st := standOf (hallTap h)
  let s := (List.range 32).foldl (fun s i =>
    let pl := i / 8
    let v := i % 8
    let vc := (hallVc v).getD 7
    let x := hallAt s h
    let mine := x.later.filter (fun y => y.peer == peer && y.plane.val == pl && stVc y.f.stem == v)
    let cut := match mine.getLast? with | some y => !endsMsg y.f.stem | none => false
    let own := oget x.owner (pl * 8 + vc) == some (ownerId peer v)
    if own && !mine.any (fun y => endsMsg y.f.stem) then
      let s := vcLoss s st.val pl 5 vc
      modHall s h (fun x => { x with
        owner := oset x.owner (pl * 8 + vc) none, later := mine.foldl (fun l y => l.erase y) x.later,
        skip := cset false x.skip (peer.toNat * 32 + i) true })
    else if cut then
      let rest := ((mine.reverse).takeWhile (fun y => !endsMsg y.f.stem))
      modHall s h (fun x => { x with later := rest.foldl (fun l y => l.erase y) x.later, skip := cset false x.skip (peer.toNat * 32 + i) true })
    else s) s
  hallPump h (hallAt s h).later.length s

/-- An ACK (R398): E, and the map of frames held ahead of it. -/
def hallSendAck (s : State) (h : Nat) (peer : BitVec 48) : State :=
  match recvCtx s h peer with
  | none => s
  | some c =>
    let sack := ((List.range 64).filter (fun i => c.held.any (fun f => f.lseq == c.e + 1 + BitVec.ofNat 32 i))).foldl (fun n i => n + 2 ^ i) 0
    hallControl (setRecvCtx s h peer (some { c with ackAt := none })) h peer 1 0 c.e.toNat 2 sack

/-- Every frame from E on is delivered in order (R398): `n` at most. -/
def hallDeliver (h : Nat) (peer : BitVec 48) : Nat → State → State
  | 0, s => s
  | n + 1, s =>
    match recvCtx s h peer with
    | none => s
    | some c =>
      match c.held.find? (fun f => f.lseq == c.e) with
      | none => s
      | some f =>
        let s := setRecvCtx s h peer (some { c with e := c.e + 1, held := c.held.erase f })
        hallDeliver h peer n (match f.fronds with
          | none => hallLoss s h peer
          | some (pl, l) => l.foldl (fun s x => hallArrive s h ⟨peer, pl, x⟩) s)

/-- The bytes that a port's reorder store holds of frames ahead of E (R398). -/
def reorderBytes (x : HallPort) : Nat :=
  x.recv.foldl (fun n p => match p.2 with
    | some c => c.held.foldl (fun n f => n + match f.fronds with | some (_, l) => 16 + 80 * l.length | none => 0) n | none => n) 0

/-- A frame or an empty slot arrives in a receive context (R398). The store holds, beside the frames ahead of E, the fronds that wait for the
tap stand's hub to take them (R19, R85). -/
def hallTake (s : State) (h : Nat) (peer : BitVec 48) (c : RecvCtx) (lseq : BitVec 32) (fronds : Option (PlaneId × List HallFrond)) : State :=
  let d := (lseq - c.e).toNat
  let c := { c with last := s.time }
  let size := match fronds with | some (_, l) => 16 + 80 * l.length | none => 0
  let full := decide (2 ^ 20 < (if d = 0 then 0 else reorderBytes (hallAt s h)) + 80 * (hallAt s h).later.length + size)
  if 64 ≤ d || c.held.any (fun f => f.lseq == lseq) || full then hallSendAck (setRecvCtx s h peer (some c)) h peer
  else
    let hole := decide (0 < d) && !c.held.any (fun f => f.lseq == lseq - 1)
    let c := { c with held := c.held ++ [⟨lseq, fronds⟩], ackAt := some (c.ackAt.getD s.time) }
    let s := hallDeliver h peer 65 (setRecvCtx s h peer (some c))
    if hole then hallSendAck s h peer else s

/-- A frame is sent again under the same sequence (R399). -/
def hallAgain (s : State) (h : Nat) (peer : BitVec 48) (c : SendCtx) (f : TxFrame) : State :=
  let c := { c with frames := c.frames.map (fun g => if g.lseq = f.lseq then { g with sends := g.sends + 1, last := s.time } else g) }
  hallData (regCount (setSend s h peer (some c)) (hallOff h + 16) 32 32 1) h peer f.plane f.fronds f.lseq.toNat true

/-- An acknowledgement reaches a send context (R398, R399). -/
def hallAckIn (s : State) (h : Nat) (peer : BitVec 48) (cum : BitVec 32) (sack : Nat) : State :=
  match sendCtx s h peer with
  | none => s
  | some c =>
    if c.phase ≠ .isOpen ∨ 2 ^ 31 ≤ (c.next - cum).toNat then s
    else
      let idx (f : TxFrame) : Nat := (f.lseq - cum - 1).toNat
      let frames := c.frames.filter (fun f => decide ((f.lseq - cum).toNat < 2 ^ 31))
      let frames := frames.map (fun f => if idx f < 64 ∧ sack.testBit (idx f) then { f with sacked := true } else f)
      let s := setSend s h peer (some { c with frames := frames, since := s.time })
      let missing (f : TxFrame) : Bool := !f.sacked && !f.gone && decide (f.last + hallRto s / 2 ≤ s.time) && decide (f.sends ≤ hallRetries s) &&
        frames.any (fun g => g.sacked && decide (0 < (g.lseq - f.lseq).toNat) && decide ((g.lseq - f.lseq).toNat < 2 ^ 31))
      let s := (frames.filter missing).foldl (fun s f => match sendCtx s h peer with | some c => hallAgain s h peer c f | none => s) s
      hallFlushAll s h peer

/-- OPEN arrives (R398). -/
def hallOpenIn (h : Nat) (peer : BitVec 48) (b : List Byte) (s : State) : State :=
  let x := hallAt s h
  let used := (x.recv.filter (fun p => p.2.isSome)).length
  let idle := x.recv.find? (fun p => match p.2 with | some c => decide (c.last + 2 * oneMs ≤ s.time) | none => false)
  let make (s : State) : State :=
    hallControl (setRecvCtx s h peer (some { e := frSeq b, last := s.time })) h peer 3 (frSeq b).toNat 0 0 0
  if (recvCtx s h peer).isSome || decide (used < 512) then make s
  else match idle with
  | some p => make (modHall s h (fun x => { x with recv := oset x.recv p.1 none }))
  | none => hallControl s h peer 4 0 0 0 0

def execHallOpen (h : Fin 8) (f : Frame) (s : State) : Step := run s (hallFrame h.val 2 f (hallOpenIn h.val))

/-- OPEN_ACK arrives: the waiting fronds go, and the frames that a REFUSE left unacknowledged (R397). -/
def hallOpenAckIn (h : Nat) (peer : BitVec 48) (b : List Byte) (s : State) : State :=
  match sendCtx s h peer with
  | none => s
  | some c =>
    if c.phase ≠ .opening ∨ frSeq b ≠ c.first then s
    else
      let frames := c.frames.map (fun f => { f with sends := 1, last := s.time })
      let s := setSend s h peer (some { c with phase := .isOpen, frames := frames, since := s.time })
      hallFlushAll (frames.foldl (fun s f => hallData s h peer f.plane f.fronds f.lseq.toNat true) s) h peer

def execHallOpenAck (h : Fin 8) (f : Frame) (s : State) : Step := run s (hallFrame h.val 3 f (hallOpenAckIn h.val))

/-- DATA arrives (R398). -/
def hallDataIn (h : Nat) (peer : BitVec 48) (b : List Byte) (s : State) : State :=
  let s := if (frFlags b).testBit 1 then hallAckIn s h peer (frCum b) 0 else s
  let l := frFronds b
  if (frFlags b).testBit 0 then
    match recvCtx s h peer with
    | none => hallControl s h peer 4 0 0 0 0
    | some c => hallTake s h peer c (frSeq b) (some (frPlane b, l))
  else l.foldl (fun s x => hallArrive s h ⟨peer, frPlane b, x⟩) s

def execHallData (h : Fin 8) (f : Frame) (s : State) : Step := runMsg s (hallFrame h.val 0 f (hallDataIn h.val))

/-- ACK arrives (R398, R399). -/
def hallAckRow (h : Nat) (peer : BitVec 48) (b : List Byte) (s : State) : State :=
  if (frFlags b).testBit 1 then hallAckIn s h peer (frCum b) (frSack b) else s

def execHallAck (h : Fin 8) (f : Frame) (s : State) : Step := run s (hallFrame h.val 1 f (hallAckRow h.val))

/-- A context goes UNSEQ: what it holds unacknowledged is left to the transport, and whole messages go unsequenced (R397). -/
def hallUnseq (s : State) (h : Nat) (peer : BitVec 48) : State :=
  hallFlushAll (setSend s h peer (some { phase := .unseq, first := 0, next := 0, since := s.time })) h peer

/-- OPEN goes out, with a first sequence of `TIME`; the frames kept take new sequences (R397). -/
def hallOpening (s : State) (h : Nat) (peer : BitVec 48) (frames : List TxFrame) : State :=
  let first := BitVec.ofNat 32 s.time
  let n := frames.length
  let frames := (List.range n).filterMap (fun i => (frames[i]?).map (fun f => { f with lseq := first + BitVec.ofNat 32 i, sacked := false }))
  hallControl (setSend s h peer (some { phase := .opening, first := first, next := first + BitVec.ofNat 32 n, frames := frames, since := s.time }))
    h peer 2 first.toNat 0 0 0

/-- REFUSE arrives (R397). -/
def hallRefuseIn (h : Nat) (peer : BitVec 48) (_ : List Byte) (s : State) : State :=
  match sendCtx s h peer with
  | none => s
  | some c =>
    match c.phase with
    | .opening => hallUnseq s h peer
    | .isOpen => hallOpening s h peer (c.frames.filter (fun f => !f.gone))
    | .unseq => s

def execHallRefuse (h : Fin 8) (f : Frame) (s : State) : Step := run s (hallFrame h.val 4 f (hallRefuseIn h.val))

/-- SKIP arrives: the slot is held as empty (R398). -/
def hallSkipIn (h : Nat) (peer : BitVec 48) (b : List Byte) (s : State) : State :=
  match recvCtx s h peer with
  | none => s
  | some c => hallTake s h peer c (frSeq b) none

def execHallSkip (h : Fin 8) (f : Frame) (s : State) : Step := runMsg s (hallFrame h.val 5 f (hallSkipIn h.val))

/-- Fronds wait for a peer. -/
def hallWaits (s : State) (h : Nat) (peer : BitVec 48) : Bool := (hallAt s h).wait.any (fun w => w.peer == peer)

/-- A context is taken, free or idle with nothing unacknowledged for 1 ms; else the frames go unsequenced (R397). -/
def hallTakeCtx (s : State) (h : Nat) (peer : BitVec 48) : State :=
  let x := hallAt s h
  let live := x.send.filter (fun p => p.1 != peer.toNat && match p.2 with | some c => decide (c.phase ≠ .unseq) | none => false)
  let idle := live.find? (fun p => match p.2 with
    | some c => decide (c.phase = .isOpen) && c.frames.isEmpty && decide (c.since + oneMs ≤ s.time) &&
        !x.wait.any (fun w => w.peer.toNat == p.1)
    | none => false)
  if live.length < 512 then hallOpening s h peer []
  else match idle with
  | some p => hallOpening (modHall s h (fun x => { x with send := oset x.send p.1 none })) h peer []
  | none => hallUnseq s h peer

/-- Fronds wait for a peer without a context (R397). -/
def hallCtxOpen (h : Nat) (peer : BitVec 48) (s : State) : State :=
  if (sendCtx s h peer).isNone && hallWaits s h peer then hallTakeCtx s h peer else s

def execHallContextOpen (h : Fin 8) (peer : BitVec 48) (s : State) : Step := run s (hallCtxOpen h.val peer)

/-- No OPEN_ACK has come in time (R397). -/
def hallOpenLate (h : Nat) (peer : BitVec 48) (s : State) : State :=
  match sendCtx s h peer with
  | none => s
  | some c => if c.phase = .opening then hallUnseq (advanceTo s (c.since + hallRto s * (hallRetries s + 1))) h peer else s

def execHallOpenTimeout (h : Fin 8) (peer : BitVec 48) (s : State) : Step := run s (hallOpenLate h.val peer)

/-- 1 ms with nothing to send and nothing unacknowledged: the context is freed (R397). -/
def hallCtxIdle (h : Nat) (peer : BitVec 48) (s : State) : State :=
  match sendCtx s h peer with
  | none => s
  | some c =>
    if c.phase = .isOpen ∧ c.frames.isEmpty ∧ !hallWaits s h peer then setSend (advanceTo s (c.since + oneMs)) h peer none else s

def execHallContextIdle (h : Fin 8) (peer : BitVec 48) (s : State) : Step := run s (hallCtxIdle h.val peer)

/-- 100 µs in UNSEQ have passed: a context is tried again (R397). -/
def hallUnseqAgain (h : Nat) (peer : BitVec 48) (s : State) : State :=
  match sendCtx s h peer with
  | none => s
  | some c => if c.phase = .unseq then hallTakeCtx (advanceTo s (c.since + 100000)) h peer else s

def execHallUnseqRetry (h : Fin 8) (peer : BitVec 48) (s : State) : Step := run s (hallUnseqAgain h.val peer)

/-- `RTO` has passed since a frame was last sent: it is sent again, or, after `RETRIES` + 1 sends, given up with a SKIP (R399). -/
def hallRetransmit (h : Nat) (peer : BitVec 48) (lseq : BitVec 32) (s : State) : State :=
  match sendCtx s h peer with
  | none => s
  | some c =>
    match (if c.phase = .isOpen then c.frames.find? (fun f => f.lseq == lseq && !f.gone && !f.sacked) else none) with
    | none => s
    | some f =>
      let s := advanceTo s (f.last + hallRto s)
      if f.sends ≤ hallRetries s then hallAgain s h peer c f
      else
        let c := { c with frames := c.frames.map (fun g => if g.lseq = lseq then { g with fronds := [], gone := true, last := s.time } else g) }
        let s := raise (regCount (setSend s h peer (some c)) (hallOff h + 16) 16 16 1) cGiveup (locHall h) 0 0
        hallFlushAll (hallControl s h peer 5 lseq.toNat 0 0 0) h peer

def execHallRetransmitTimeout (h : Fin 8) (peer : BitVec 48) (lseq : BitVec 32) (s : State) : Step :=
  run s (hallRetransmit h.val peer lseq)

/-- Every `RTO` a SKIP goes again for a given-up frame: the one whose SKIP is oldest (R399). -/
def hallSkipAgain (h : Nat) (peer : BitVec 48) (s : State) : State :=
  match sendCtx s h peer with
  | none => s
  | some c =>
    let old := (c.frames.filter TxFrame.gone).foldl (fun (o : Option TxFrame) f => match o with
      | some g => if f.last < g.last then some f else some g | none => some f) none
    match old with
    | none => s
    | some f =>
      let s := advanceTo s (f.last + hallRto s)
      let c := { c with frames := c.frames.map (fun g => if g.lseq = f.lseq then { g with last := s.time } else g) }
      hallControl (setSend s h peer (some c)) h peer 5 f.lseq.toNat 0 0 0

def execHallSkipResend (h : Fin 8) (peer : BitVec 48) (s : State) : Step := run s (hallSkipAgain h.val peer)

/-- 0.5 µs after the first arrival not acknowledged (R398). -/
def hallAckDue (h : Nat) (peer : BitVec 48) (s : State) : State :=
  match (recvCtx s h peer).bind RecvCtx.ackAt with
  | none => s
  | some t => hallSendAck (advanceTo s (t + 500)) h peer

def execHallAckTimer (h : Fin 8) (peer : BitVec 48) (s : State) : Step := run s (hallAckDue h.val peer)

/-- The registers `HAL_PCTL` as they read (R403): a port whose tap stand is girdled is out of service, and reads DOWN (R28; log 95). -/
def hallStatus (s : State) (h : Nat) : Word :=
  let x := hallAt s h
  let n := (x.send.filter (fun p => match p.2 with | some c => decide (c.phase ≠ .unseq) | none => false)).length
  let r := (x.recv.filter (fun p => p.2.isSome)).length
  (regGet s (hallOff h) &&& mask 63 1) ||| mk 61 2 (if x.quiet then 2 else if x.up && !girdled s (hallTap h) then 1 else 0) ||| mk 16 10 n ||| mk 0 10 r

end Sys2Proof.Machine
end

