-- ==== Sys2Proof/Machine/SliceRows.lean ====
section
/-! DEFINITION. The near port, the owner register, retention, twin fills, scrubbing, the slice mode and the raw window (R292 to
R317, R357, R358). -/

namespace Sys2Proof.Machine

/-- The near port takes no access: its port is not up, girdled, fenced or frozen, its slice is not in SERVICE, the region is not released yet,
or it is being zeroed (R358, R372, R445, R484, R492). -/
def nearShut (s : State) (st : StandId) : Bool :=
  girdled s st.val || portGirdled s st.val || fenced s st.val || frozenAt s st.val || !inService s st.val || !afterS4 s || zeroing s st.val ||
  decide (cget .reset s.port.xst st.val ≠ .up)

/-- What the near port's return queue still holds when a further read is returned: of its 8 entries the last 7, since no access is taken whose
return would find it full (R362; log 52). -/
def npHeld (s : State) (st : StandId) : List NpRet :=
  let l := cget [] s.port.np st.val
  l.drop (l.length - 7)

/-- The near port returns a read, in order behind those that the crossing holds (R357, R358, R363). -/
def nearReturn (s : State) (st : StandId) (r : NpRet) : State :=
  { s with port := { s.port with np := cset [] s.port.np st.val (npHeld s st ++ [r]), since := cset 0 s.port.since (st.val * 8 + 4) s.time } }

/-- A byte of the region where the near port's reads give 0 and its writes have no effect: the release block (R184). -/
def nearRelease (byte : Nat) : Bool := decide (0xFC00 ≤ byte) && decide (byte < 0x10000)

/-- Where the near port only reads: the shadows and a ring context area (R168, R292). -/
def nearReadOnly (s : State) (st byte : Nat) : Bool :=
  (decide (0x10000 ≤ byte) && decide (byte < 0x10800)) || inCtxArea s st byte 32

/-- Merge bytes of a word under byte enables. -/
def mergeBytes (be : BitVec 32) (old new : List Byte) : List Byte :=
  (old.zip new).zipIdx.map (fun p => if bitAt be p.2 then p.1.2 else p.1.1)

/-- A near-port write of a word (R291, R358): a merge that finds the word poisoned changes nothing and raises an event. -/
def nearWrite (s : State) (st : StandId) (r : NpReq) : State :=
  let w := r.addr.toNat
  if r.be = 0 ∨ nearRelease (w * 32) ∨ nearReadOnly s st.val (w * 32) then s
  else
    let s := lvl s st.val 5 (popcount r.be)
    let new := leBytes 32 r.wdata.toNat
    if popcount r.be = 32 then storeWord s st.val dpBank w new
    else
      let was := wordOut s st.val dpBank w
      match readWord s st dpBank w .merge with
      | (some old, s) => storeWord s st.val dpBank w (mergeBytes r.be old new)
      | (none, s) => if was = .poisoned then raise s cUeMerge st.val dpBank 0 else s

/-- A near-port read of a word (R290, R358): an uncorrectable or poisoned word is marked, and its data is free. A ring context area has the
context's bytes (R293). -/
def nearRead (s : State) (st : StandId) (r : NpReq) : State :=
  let w := r.addr.toNat
  let s := lvl s st.val 4 32
  if nearRelease (w * 32) && !inCtxArea s st.val (w * 32) 32 then nearReturn s st ⟨List.replicate 32 0, false, false⟩
  else match readWord s st dpBank w .service with
  | (some d, s) => nearReturn s st ⟨d, false, false⟩
  | (none, s) =>
    let (d, s) := drawBytes s 32
    nearReturn s st ⟨d, true, false⟩

/-- A near-port read that collides with a write: its data is free, and `CPk_DP_BUSY` marks it (R297). -/
def nearBusy (s : State) (st : StandId) : State :=
  let (d, s) := drawBytes (lvl s st.val 4 32) 32
  nearReturn (regCount s (stdOff st 0x7F8) 0 32 1) st ⟨d, false, true⟩

/-- The DPBYTE that a message names in the dual-port region. -/
def msgDpByte (m : Msg) : Nat := if aSpace m.dest = 0 then aDpByte m.dest else aMbox m.dest

/-- A SEND lands in the step in which it arrives (R182, R183). -/
def sendLands (s : State) (st : StandId) (m : Msg) : Bool :=
  match landSlot s st m with
  | some j =>
    let c := chanCnt s st.val j
    m.tenant == chTag (chanWord s st.val j 0) && c.spill.isEmpty && decide (c.occ < chCap (chanWord s st.val j 2))
  | none => false

/-- A data message of an MCAST is written at a member (R198). -/
def mcastLands (s : State) (st : StandId) (m : Msg) : Bool :=
  (match mcastSlot s st m with | .ok _ => true | .error _ => false) && decide (aAlias m.dest ≠ 3)

/-- A message that the hub serves now has an access to the word in this window (R115, R297). -/
def meetsWord (s : State) (st : StandId) (m : Msg) (w : Nat) : Bool :=
  let n := msgBytes m
  let here := match serveHome st (isWriting m) s m.dest with | .dp k => k == st.val | _ => false
  let due := match findEntry s st (keyOf m) with
    | none => m.openFl && decide (((recvTable s st).filter (entryLive s)).length < 4096)
    | some e => m.seq == e.e || (if isBehind e.e m.seq then m.op == opReadReq else m.openFl)
  let served := if m.op = opMcast then mcastLands s st m
    else (m.op == opWrite || m.op == opReadReq || m.op == opAtomic) && (!isSend m || sendLands s st m) && addrFormOk m.dest &&
      classOk m.dest m.op && directRangeOk m.dest n && !(m.op == opAtomic && decide (m.dest.toNat % n ≠ 0))
  let taken := m.vc != vcSpill && m.vc != vcBackground && !(dormHeld s && fld m.src 6 20 != selfUpper s)
  taken && namesThisDie s m.dest && here && due && !girdled s st.val && !m.broken && isFresh s m && (lengthBad m).isNone && m.colour != red && served &&
  (dpRefuse s st m.tenant (msgDpByte m) n).isNone && decide (msgDpByte m < w * 32 + 32) && decide (w * 32 < msgDpByte m + n)

/-- The fabric read of a collision is answered with COLLIDE, and its data is free (R297). -/
def collided (st : StandId) (m : Msg) (s : State) : Taken × State :=
  let (d, s) := drawBytes (regCount s (stdOff st 0x7F8) 32 32 1) (msgBytes m)
  (.reply .collide d, s)

/-- A near-port access, with what port A does in the same collision window (R297, R357, R358). -/
def nearPortAccess (st : StandId) (r : NpReq) (a : PortA) (s : State) : State :=
  let other (s : State) : State := match a with | .none => s | .msg m => arrive st m s
  if nearShut s st then other s
  else
    let s := hungEnd s st .nearPort
    let w := r.addr.toNat
    match (match a with | .none => none | .msg m => if meetsWord s st m w then some m else none) with
    | none =>
      let s := other s
      if r.we then nearWrite s st r else nearRead s st r
    | some m =>
      if m.op = opReadReq then
        (if r.we && r.be != 0 && !nearReadOnly s st.val (w * 32) then
          byEntry (nearWrite s st r) st m (collided st m) (collided st m)
         else
          let s := arrive st m s
          if r.we then s else nearRead s st r)
      else
        let s := arrive st m s
        if r.we then nearWrite s st r else nearBusy s st

def execNearPortAccess (st : StandId) (r : NpReq) (a : PortA) (s : State) : Step := runMsg s (nearPortAccess st r a)

/-- A bank named by an entry of a bank list that the trace or dump registers hold (R478, R482). -/
def bankListed (s : State) (base n st bank : Nat) : Bool :=
  (List.range n).any (fun i =>
    let w := regGet s (base + i * 8)
    bitAt w 63 && fld w 8 6 == st && fld w 0 6 == bank)

/-- The tally and trace unit writes to a bank (R304). -/
def traceUses (s : State) (st bank : Nat) : Bool :=
  ((regBit s 0xC0000 63 || !s.obs.stage.isEmpty) && bankListed s 0xC0040 (regFld s 0xC0020 60 4) st bank) ||
  ((decide (s.obs.dump = .freezing) || decide (s.obs.dump = .capturing)) && bankListed s 0xC0840 7 st bank)

/-- A REDUCE bank is the `SBANK` of an ALLSUM or ARM that has not completed: the bank that logical bank `SBANK` of a member stand is mapped
to (R259, R304). -/
def stagingUses (s : State) (st bank : Nat) : Bool :=
  s.all.ops.any (fun (g, o) => match o with
    | some o => (groupStands (groupAt s g)).any (fun m =>
        let c := coppice s (m.val * 32 + aSbank o.raw)
        copPStand c == st && copPBank c == bank)
    | none => false)

/-- A RINGS bank holds a record not yet written to its ring (R304). -/
def holdingUses (s : State) (st bank : Nat) : Bool := s.host.holding.any (fun x => x.2.1 == some (st * 34 + bank))

/-- What R304 and R446 refuse of an owner register's new `KIND` and `TAG`. -/
def ownRefuse (s : State) (st bank : Nat) (new : Word) : Bool :=
  let o := ownReg s st bank
  let k := ownKind new
  let t := ownTag new
  let hand := decide (k ≠ ownKind o) || decide (t ≠ ownTag o)
  decide (8 ≤ k) || (decide (k = 0 ∨ 4 ≤ k) && decide (t ≠ 0)) || (decide (1 ≤ k ∧ k ≤ 3) && decide (t = 0)) ||
  ownBusy o || ownTsync o || (entryOfTwin s st bank).isSome || (s.bup.reported == 5 && !ownReleased o) ||
  (hand && ((ownKind o == 2 && bankSpills s st bank) || (ownKind o == 3 && stagingUses s st bank) ||
    ((ownKind o == 4 || ownKind o == 5) && traceUses s st bank) || (ownKind o == 7 && holdingUses s st bank)))

/-- A handover applied (R303, R306): `KIND` and `TAG` change; unless it keeps the contents, the wipe runs. Entering FREE powers the
bank down. -/
def handover (s : State) (st bank : Nat) (new : Word) (keepIt : Bool) : State :=
  let o := ownReg s st bank
  let k := ownKind new
  let s := setOwn s st bank (fun o => put 52 4 k (put 0 16 (ownTag new).toNat o))
  if k = 0 then setRet s st bank rActive false
  else if keepIt && ownTag new == ownTag o && ownKind o != 0 then s
  else
    let s := setOwn s st bank (fun o => put 62 1 1 o)
    match ownRstate o with
    | 0 => setOwn s st bank (fun o => put 57 1 (fld new 57 1) o)
    | 1 => setRet s st bank rActive false
    | 2 => setRet s st bank rWaking false
    | _ => setRet s st bank rWaking false

/-- The new value of an owner register at one bank: a handover, or a change of `RET` alone (R303, R306). -/
def ownApply (s : State) (st bank : Nat) (new : Word) (keepIt : Bool) : State :=
  let o := ownReg s st bank
  if ownKind new ≠ ownKind o ∨ ownTag new ≠ ownTag o then handover s st bank new keepIt
  else if ownRet new = ownRet o then s
  else if ownRet new then retSet s st bank else retClear s st bank

/-- A write of `STD_BANK_OWN[b]` (R303 to R306): a primary's is applied to its twin too. -/
def ownWrite (st : StandId) (b : Nat) (wm v : Word) (s : State) : State :=
  let off := stdOff st (0x680 + b * 8)
  let new := regNext s wm off v
  let keepIt := bitAt (v &&& wm) 56
  if ownRefuse s st.val b new then refuseWrite s off
  else
    let s' := ownApply s st.val b new keepIt
    match entryOfPrimary s st.val b with
    | some n =>
      let c := coppice s n
      if copTwin c && !girdled s (copTStand c) then ownApply s' (copTStand c) (copTBank c) new keepIt else s'
    | none => s'

def execBankHandover (st : StandId) (b : Fin 34) (v : Word) (s : State) : Step :=
  mgStep s (stdOff st (0x680 + b.val * 8)) v (ownWrite st b.val)

/-- The row whose write changes only `RET`; a write that changes more is the other row's, and its effect is the same register's. -/
def retRow (st : StandId) (b : Nat) (wm v : Word) (s : State) : State := ownWrite st b wm v s

def execBankRetWrite (st : StandId) (b : Fin 34) (v : Word) (s : State) : Step :=
  mgStep s (stdOff st (0x680 + b.val * 8)) v (retRow st b.val)

/-- The wipe of a handover completes, in an ACTIVE bank (R303, R306). -/
def wipeComplete (st bank : Nat) (s : State) : State :=
  let o := ownReg s st bank
  if ownBusy o ∧ ownRstate o = 0 then
    retDue (workEnds (setOwn (wipeBank s st bank) st bank (fun o => put 62 1 0 o))) st bank
  else s

def execBankWipeComplete (st : StandId) (b : Fin 34) (s : State) : Step := run s (wipeComplete st.val b.val)

/-- The arrays of an ENTERING bank are at 0.45 V (R306). -/
def retentionEntered (st bank : Nat) (s : State) : State :=
  if ownRstate (ownReg s st bank) = 1 then setOwn s st bank (fun o => put 58 2 rRetained o) else s

def execBankRetentionEntered (st : StandId) (b : Fin 34) (s : State) : Step := run s (retentionEntered st.val b.val)

/-- The arrays of a WAKING bank are at full voltage (R306). -/
def wakeComplete (st bank : Nat) (s : State) : State :=
  if ownRstate (ownReg s st bank) = 3 then retDue (setOwn s st bank (fun o => put 58 2 rActive o)) st bank else s

def execBankWakeComplete (st : StandId) (b : Fin 34) (s : State) : Step := run s (wakeComplete st.val b.val)

/-- A word enters a rising list. -/
def insertWord (w : Nat) : List Nat → List Nat
  | [] => [w]
  | x :: r => if w < x then w :: x :: r else if w = x then x :: r else x :: insertWord w r

/-- The words that a fill copies, in address order: those with a byte or a state listed in the primary or the twin; all others read alike. -/
def fillWords (s : State) (ps pb ts tb : Nat) : List Nat :=
  let at_ (st bank : Nat) : List Nat :=
    (s.slice.mem.filterMap (fun (k, _) => if k / 2 ^ 21 = bankNo st bank then some (k % 2 ^ 21 / 32) else none)) ++
    (s.slice.words.filterMap (fun (k, _) => if k / 2 ^ 16 = bankNo st bank then some (k % 2 ^ 16) else none))
  (at_ ps pb ++ at_ ts tb).eraseDups.foldr insertWord []

/-- One word of a fill: read at the primary under R290, placed at the twin; a word that cannot be read is poison there. -/
def fillWord (ps pb ts tb : Nat) (s : State) (w : Nat) : State :=
  match readWord s (standOf ps) pb w .service with
  | (some d, s) => storeWord s ts tb w d
  | (none, s) => setWordSt s ts tb w .poison

/-- The fill of a twin completes (R309): both banks have been accessed for it (R306, R307), and the twin holds what the primary holds, `TSYNC` clears, and the collector hears of it; a
move of R428 then is a swap onto the filled twin. A stand that FREEZE has stopped ends none (R484). -/
def twinFillComplete (n : Nat) (s : State) : State :=
  let c := coppice s n
  let ps := copPStand c
  let pb := copPBank c
  let ts := copTStand c
  let tb := copTBank c
  if copState c = 1 ∧ copTwin c ∧ ownTsync (ownReg s ts tb) ∧ !girdled s ps ∧ !girdled s ts ∧ !frozenAt s ps ∧ !frozenAt s ts then
    let s := (bankTouch (bankTouch s ps pb true).2 ts tb true).2
    let s := { s with slice := { s.slice with vague := cset 0 s.slice.vague (bankNo ts tb) (cget 0 s.slice.vague (bankNo ps pb)) } }
    let s := (fillWords s ps pb ts tb).foldl (fillWord ps pb ts tb) s
    let s := retDue (workEnds (setOwn s ts tb (fun o => put 61 1 0 o))) ts tb
    let s := sendRhz s (.fillDone n)
    match oget s.map.rehomes n with
    | some r =>
      if r.kind = .move then
        sendRhz { s with map := { s.map with rehomes := oset s.map.rehomes n (some { kind := .swap, held := true, confirmed := false }) } } (.hold n)
      else s
    | none => s
  else s

def execTwinFillComplete (n : Fin 1536) (s : State) : Step := run s (twinFillComplete n.val)

/-- The words of a slice in the order of a scrub pass: the 34 banks, then the dual-port region. -/
def scrubTotal : Nat := 34 * 65536 + 16384

/-- A bank that a scrub reads: powered, released, ACTIVE and not under a wipe (R313). -/
def scrubBank (s : State) (st bank : Nat) : Bool :=
  let o := ownReg s st bank
  decide (ownKind o ≠ 0) && ownReleased o && decide (ownRstate o = 0) && !ownBusy o

/-- The position at or after `p` that a scrub reads next; a bank that is skipped is passed whole. -/
def scrubNext (s : State) (st : Nat) : Nat → Nat → Nat
  | 0, p => p
  | k + 1, p => if p / 65536 < 34 ∧ !scrubBank s st (p / 65536) then scrubNext s st k ((p / 65536 + 1) * 65536) else p

/-- `PERIOD` of a slice in ns: 0 acts as 1 s, values above 3,600 act as 3,600 (R313). -/
def scrubPeriod (s : State) (st : StandId) : Nat := 10 ^ 9 * min 3600 (max 1 (regFld s (stdOff st 0x7B8) 32 12))

/-- A pass begins at the first word, one period after the last began (R313; log 109). -/
def scrubBegin (s : State) (st : StandId) : State :=
  if cget 0 s.slice.scrub st.val ≠ 0 then s
  else
    let s := match oget s.slice.scrubAt st.val with | some t => advanceTo s (t + scrubPeriod s st) | none => s
    { s with slice := { s.slice with scrubAt := oset s.slice.scrubAt st.val (some s.time) } }

/-- Cruise scrubs the next word (R313): a pass that ends counts in `PASSES`. -/
def scrubRead (st : StandId) (s : State) : State :=
  if !regBit s (stdOff st 0x7B8) 63 || girdled s st.val || frozenAt s st.val || standDormant s st then s
  else
    let s := scrubBegin s st
    let p := scrubNext s st.val 35 (cget 0 s.slice.scrub st.val)
    let s := (readWord s st (p / 65536) (p % 65536) .scrub).2
    let q := p + 1
    let s := { s with slice := { s.slice with scrub := cset 0 s.slice.scrub st.val (if q ≥ scrubTotal then 0 else q) } }
    if q ≥ scrubTotal then regCount s (stdOff st 0x7B8) 0 32 1 else s

def execScrubRead (st : StandId) (s : State) : Step := run s (scrubRead st)

/-- A write of `STD_SLC_CTL.MODE` (R314): other than 0 only at a girdled stand; 3 is reserved and has no effect (log 21). -/
def modeWrite (st : StandId) (wm v : Word) (s : State) : State :=
  let off := stdOff st 0x7A0
  let m := fld (regNext s wm off v) 0 2
  if m = 3 ∨ (m ≠ 0 ∧ !girdled s st.val) then s else regPut s off 0 2 m

def execSliceModeWrite (st : StandId) (v : Word) (s : State) : Step := mgStep s (stdOff st 0x7A0) v (modeWrite st)

/-- `DONE` of a stand's raw command (R315). -/
def rawDone (s : State) (st : StandId) : Bool := decide (cget 0 s.slice.raw st.val ≤ s.time)

/-- Whether R317 or R446 refuses a raw command with the register value `c`: a stand in S5, or in the quick S5 of its re-test, is under test. -/
def rawRefuse (s : State) (st : StandId) (c : Word) : Bool :=
  let bank := fld c 51 6
  let byte := fld c 0 21
  !rawDone s st || inService s st.val || (s.bup.reported == 5 && !girdled s st.val) || s.bup.retest.any (fun p => decide (p.1 = st)) || decide (34 < bank) ||
  decide ((if bank = dpBank then 0x7FFFF else 0x1FFFFF) < byte + 31) || (bitAt c 59 && bitAt c 58 && decide (byte % 32 ≠ 0))

/-- The bank is FREE: powered for the command, its contents undefined (R317). -/
def rawFree (s : State) (st : StandId) (bank : Nat) : Bool := decide (bank < 34) && ownKind (ownReg s st.val bank) == 0

/-- One word read raw: its data, its check bits, and `RES` 0 clean, 1 corrected, 2 uncorrectable, 3 the marker. Outside `ECCBYP`
R290 acts on it; a word in error is recorded either way (R317). -/
def rawWord (s : State) (st : StandId) (bank w : Nat) (byp : Bool) : (List Byte × Nat × Nat) × State :=
  let o := wordOut s st.val bank w
  let res := match o with | .clean _ => 0 | .fixed _ _ => 1 | .unc => 2 | .poisoned => 3
  let marker := (markerSyms.take 32, leNat (markerSyms.drop 32))
  if byp then
    let s := match o with
      | .fixed _ lane => elog s st false false .raw bank lane w
      | .unc => elog s st true false .raw bank 0 w
      | _ => s
    match wordSt s st.val bank w with
    | .clean =>
      let d := wordData s st.val bank w
      ((d, (eccCheck d).toNat, res), s)
    | .coded k => ((wordData s st.val bank w, k.toNat, res), s)
    | .poison => ((marker.1, marker.2, res), s)
    | .lost => let l := lostSymbols s st.val bank w; ((l.take 32, leNat (l.drop 32), res), s)
  else
    match readWord s st bank w .raw with
    | (some d, s) => ((d, (eccCheck d).toNat, res), s)
    | (none, s) => ((marker.1, marker.2, res), s)

/-- Put the 32 bytes, the check bits and the result of a raw read in their registers. -/
def rawResult (s : State) (st : StandId) (d : List Byte) (chk : Nat) (res : Nat) : State :=
  let s := (List.range 4).foldl (fun s i => regSet s (stdOff st (0x7D0 + i * 8)) (BitVec.ofNat 64 (leAt d (i * 8) 8))) s
  regPut (regSet s (stdOff st 0x7C8) (BitVec.ofNat 64 chk)) (stdOff st 0x7C0) 61 2 res

/-- A raw command is an access to its bank: it ends an entry into retention or starts a wake (R306, R307). -/
def rawTouch (s : State) (st : StandId) (bank : Nat) : State := if bank < dpBank then (bankTouch s st.val bank true).2 else s

/-- A raw read (R316, R317). -/
def rawDoRead (s : State) (st : StandId) (c : Word) : State :=
  let bank := fld c 51 6
  let byte := fld c 0 21
  if rawFree s st bank then
    let (d, s) := drawBytes s 32
    let (a, s) := drawWord32 s
    let (b, s) := if byte % 32 = 0 then (0, s) else drawWord32 s
    let (r, s) := drawByte s
    rawResult s st d (a.toNat + b.toNat * 2 ^ 32) (r.toNat % 4)
  else
    let w := byte / 32
    let s := rawTouch s st bank
    let ((d0, k0, r0), s) := rawWord s st bank w (bitAt c 59)
    if byte % 32 = 0 then rawResult s st d0 k0 r0
    else
      let ((d1, k1, r1), s) := rawWord s st bank (w + 1) (bitAt c 59)
      rawResult s st (((d0 ++ d1).drop (byte % 32)).take 32) (k0 + k1 * 2 ^ 32) (max r0 r1)

/-- The bytes of one word of a raw write: a part is merged under R291; the outcome is its `RES`. -/
def rawMerge (s : State) (st : StandId) (bank w lo : Nat) (data : List Byte) : Nat × State :=
  let res := if data.length = 32 then 0 else match wordOut s st.val bank w with
    | .clean _ => 0 | .fixed _ _ => 1 | .unc => 2 | .poisoned => 3
  if data.length = 32 then (res, storeWord s st.val bank w data)
  else match readWord s st bank w .raw with
  | (some old, s) => (res, storeWord s st.val bank w (old.take lo ++ data ++ old.drop (lo + data.length)))
  | (none, s) => (res, s)

/-- A raw write (R316, R317): with `ECCBYP` the word takes the check bits given. A FREE bank keeps nothing of it. -/
def rawDoWrite (s : State) (st : StandId) (c : Word) : State :=
  let bank := fld c 51 6
  let byte := fld c 0 21
  let data := (List.range 4).flatMap (fun i => leBytes 8 (regGet s (stdOff st (0x7D0 + i * 8))).toNat)
  let w := byte / 32
  let off := stdOff st 0x7C0
  if rawFree s st bank then regPut s off 61 2 0
  else if bitAt c 59 then
    let chk := BitVec.ofNat 32 (regFld s (stdOff st 0x7C8) 0 32)
    let s := putBytes (rawTouch s st bank) st.val bank (w * 32) data
    let marker := decide (symDiff (symbols data chk) markerSyms ≤ 1)
    regPut (setWordSt s st.val bank w (if !marker && eccCheck data == chk then .clean else .coded chk)) off 61 2 0
  else if byte % 32 = 0 then regPut (storeWord (rawTouch s st bank) st.val bank w data) off 61 2 0
  else
    let s := rawTouch s st bank
    let k := 32 - byte % 32
    let (a, s) := rawMerge s st bank w (byte % 32) (data.take k)
    let (b, s) := rawMerge s st bank (w + 1) 0 (data.drop k)
    regPut s off 61 2 (max a b)

/-- A write of `STD_SLC_RAW_CMD` (R315 to R317): with `GO` the command runs and completes, or is refused. -/
def rawCmdWrite (st : StandId) (wm v : Word) (s : State) : State :=
  let off := stdOff st 0x7C0
  let s := regWritePlain wm off v s
  if !bitAt (v &&& wm) 57 then s
  else
    let c := regGet s off
    if rawRefuse s st c then regPut s off 60 1 1
    else
      let s := regPut { s with slice := { s.slice with raw := cset 0 s.slice.raw st.val (cmdEnd s) } } off 60 1 0
      if bitAt c 58 then rawDoWrite s st c else rawDoRead s st c

def execRawRead (st : StandId) (v : Word) (s : State) : Step := mgStep s (stdOff st 0x7C0) v (rawCmdWrite st)

/-- The write row of the same register (R315). -/
def rawWriteRow (st : StandId) (wm v : Word) (s : State) : State := rawCmdWrite st wm v s

def execRawWrite (st : StandId) (v : Word) (s : State) : Step := mgStep s (stdOff st 0x7C0) v (rawWriteRow st)

end Sys2Proof.Machine
end

