-- ==== Sys2Proof/Machine/Girdle.lean ====
section
/-! DEFINITION. The coppice map at the collector and the hubs, re-homing, girdles and their release (R51, R56 to R58, R308, R310,
R419 to R428). -/

namespace Sys2Proof.Machine

/-- A write of `GLB_SELF`: write-once from the write that sets `SET` on (R51). -/
def selfWrite (wm v : Word) (s : State) : State := if regBit s 0x10 63 then s else regWritePlain wm 0x10 v s

def execGlbSelfWrite (v : Word) (s : State) : Step := mgStep s 0x10 v selfWrite

/-- Stage S5 runs (R439, R446). -/
def inS5 (s : State) : Bool := decide (s.bup.reported = 5) && !s.bup.halted

/-- An entry names a bank as its primary or its twin. -/
def copNames (c : Word) (st bank : Nat) : Bool :=
  (copState c == 1 && copPStand c == st && copPBank c == bank) || (copTwin c && copTStand c == st && copTBank c == bank)

/-- A bank is named by an entry other than `n`. -/
def namedByOther (s : State) (n st bank : Nat) : Bool := (List.range 1536).any (fun j => j != n && copNames (coppice s j) st bank)

/-- A coppice entry that R58 or R308 refuses. -/
def coppiceBad (s : State) (n : Nat) (c : Word) : Bool :=
  let t := ownReg s (copTStand c) (copTBank c)
  let p := ownReg s (copPStand c) (copPBank c)
  decide (47 < copPStand c) || decide (47 < copTStand c) || decide (33 < copPBank c) || decide (33 < copTBank c) ||
  copState c == 3 || (copTwin c && copTStand c == copPStand c) ||
  (copTwin c && (namedByOther s n (copTStand c) (copTBank c) || ownKind t != ownKind p || ownTag t != ownTag p))

/-- The collector applies an entry: its copy changes, and one re-home command goes to every hub (R57). A twin that the entry names
begins its fill, an access that sets `TSYNC` and clears `TSTALE` (R306), where the entry is MAPPED and both stands are in service; one on a
girdled stand is stale at once; a twin no longer named keeps its `TSTALE`, and its fill is over (R309, R310; log 24). -/
def coppiceApply (s : State) (n : Nat) (v : Word) : State :=
  let c := coppice s n
  let same := copTwin v && copTStand v == copTStand c && copTBank v == copTBank c
  let s := if copTwin c && !same then retDue (setOwn s (copTStand c) (copTBank c) (put 61 1 0)) (copTStand c) (copTBank c) else s
  let s := if copTwin v && copState v == 1 then
      (if girdled s (copTStand v) then setOwn s (copTStand v) (copTBank v) (fun o => put 60 1 1 (put 61 1 0 o))
       else if girdled s (copPStand v) then s
       else setOwn (bankTouch s (copTStand v) (copTBank v) true).2 (copTStand v) (copTBank v) (put 60 2 2))
    else s
  sendRhz { s with map := { s.map with coppice := tset coppiceReset s.map.coppice n v } } (.rehome n v)

/-- A write of `MAP_COPPICE[n]` (R57, R58, R308, R446): while its entry is being re-homed it waits. -/
def coppiceWrite (n : Nat) (wm v : Word) (s : State) : State :=
  let off := 0xE0000 + n * 8
  let i := (regInfo off).getD {}
  let new := merge (i.rw &&& wm) (coppice s n) v
  if inS5 s || coppiceBad s n new then refuseWrite s off
  else if (oget s.map.rehomes n).isSome then { s with map := { s.map with waiting := s.map.waiting ++ [(n, new)] } }
  else coppiceApply s n new

def execCoppiceWrite (n : Fin 1536) (v : Word) (s : State) : Step := mgStep s (0xE0000 + n.val * 8) v (coppiceWrite n.val)

/-- A re-home command reaches a hub (R57), where a path of the rhizome does (R421). -/
def rehomeReceive (st : StandId) (n : Nat) (v : Word) (s : State) : State :=
  if girdled s st.val || noPath s st.val then s
  else { s with map := { s.map with hubCop := tset (fun k => coppiceReset (k % 1536)) s.map.hubCop (st.val * 1536 + n) v } }

def execRehomeCommandReceive (st : StandId) (n : Fin 1536) (v : Word) (s : State) : Step := run s (rehomeReceive st n.val v)

/-- A re-home of an entry is over: the operator's writes of it that waited are applied (R57, R418). -/
def rehomeOver (s : State) (n : Nat) : State :=
  let w := s.map.waiting.filter (fun p => p.1 == n)
  let s := { s with map := { s.map with rehomes := oset s.map.rehomes n none, waiting := s.map.waiting.filter (fun p => p.1 != n) } }
  w.foldl (fun s p => if coppiceBad s n p.2 then refuseWrite s (0xE0000 + n * 8) else coppiceApply s n p.2) s

/-- Steps 3 to 5 of a swap (R428): the twin becomes the primary, the hold ends, the old primary bank goes to FREE where its stand is
in service. -/
def swapNow (s : State) (n : Nat) : State :=
  let c := coppice s n
  let ps := copPStand c
  let pb := copPBank c
  let v := put 33 2 1 (put 32 1 0 (put 8 6 (copTBank c) (put 0 6 (copTStand c) c)))
  let s := sendRhz (coppiceApply s n v) (.unhold n)
  let s := if girdled s ps then s else sendRhz (handover s ps pb 0 false) (.bankCmd (standOf ps) pb 0)
  rehomeOver s n

/-- A spare bank that may take an entry (R312, R427): FREE, passed its test, named by no entry, its stand in service. -/
def spareOk (s : State) (st bank : Nat) : Bool :=
  let o := ownReg s st bank
  !girdled s st && ownKind o == 0 && ownReleased o && !ownBusy o && !s.bup.failed.any (fun p => p.1.val == st && p.2 == bank) &&
  !namedByOther s 1536 st bank

/-- The spare that a move takes: the lowest of the primary's stand, else of the lowest-numbered stand that has one (R427). -/
def spareFor (s : State) (st : Nat) : Option (Nat × Nat) :=
  ((st :: List.range 48).flatMap (fun t => [(t, 32), (t, 33)])).find? (fun p => spareOk s p.1 p.2)

/-- What became of an order: not applicable, started, or refused (R410, R418). -/
inductive Act where
  | idle | started | refused
  deriving DecidableEq, Repr

/-- REHOME of an entry (R427): a swap, a move, or LOST. -/
def rehomeEntry (s : State) (n : Nat) : Act × State :=
  let c := coppice s n
  let ps := copPStand c
  if copState c ≠ 1 ∨ (oget s.map.rehomes n).isSome then (.idle, s)
  else if twinClean s c then
    let s := sendRhz { s with map := { s.map with rehomes := oset s.map.rehomes n (some { kind := .swap, held := true, confirmed := false }) } } (.hold n)
    (.started, if girdled s ps then swapNow s n else s)
  else if girdled s ps then (.started, coppiceApply s n (put 33 2 2 c))
  else match spareFor s ps with
  | none => (.refused, s)
  | some (ts, tb) =>
    let p := ownReg s ps (copPBank c)
    let s := setOwn s ts tb (fun o => put 52 4 (ownKind p) (put 0 16 (ownTag p).toNat o))
    let s := coppiceApply s n (put 32 1 1 (put 24 6 tb (put 16 6 ts c)))
    (.started, { s with map := { s.map with rehomes := oset s.map.rehomes n (some { kind := .move, held := false, confirmed := false }) } })

/-- The twin's hub confirms step 2 of R428: the swaps onto its banks go on. -/
def twinConfirm (st : StandId) (s : State) : State :=
  let l := (List.range 1536).filter (fun n => match oget s.map.rehomes n with
    | some r => r.held && decide (r.kind = .swap) && copTStand (coppice s n) == st.val
    | none => false)
  if girdled s st.val then s else l.foldl swapNow (if l.isEmpty then s else sendRhz s (.confirm st))

def execTwinConfirm (st : StandId) (s : State) : Step := run s (twinConfirm st)

/-- The bit of a unit is set: the unit is girdled (R419). -/
def unitGirdled (s : State) : GUnit → Bool
  | .stand st => girdled s st.val
  | .link n => linkGirdled s n.val
  | .port k => portGirdled s k.val

/-- Set or clear the bit of a unit. -/
def setGirdle (s : State) (u : GUnit) (b : Bool) : State :=
  match u with
  | .stand st => { s with map := { s.map with gstand := setBit s.map.gstand st.val b } }
  | .link n => { s with map := { s.map with glink := setBit s.map.glink n.val b } }
  | .port k => { s with map := { s.map with gport := setBit s.map.gport k.val b } }

/-- Key of a stand and a direction of its neighbour. -/
def nbrKey (st dir : Nat) : Nat := st * 4 + dir

/-- The neighbours of a stand that are in service, each with its direction toward the stand. -/
def watchers (s : State) (st : Nat) : List (Nat × Nat) :=
  (List.range 4).filterMap (fun d => match neighbour st d with
    | some b => if girdled s b then none else some (b, (d + 2) % 4)
    | none => none)

/-- Every neighbour of a stand that is in service has raised NODE_LINK toward it, all within 2 µs (R422). -/
def silentBy (s : State) (n : Nat) : Bool :=
  let l := (watchers s n).map (fun p => oget s.flt.silent (nbrKey p.1 p.2))
  !l.isEmpty && l.all (fun a => l.all (fun b => match a, b with | some a, some b => decide (a ≤ b + 2000) | _, _ => false))

/-- The neighbours of a stand just girdled for which it was the last that had not raised NODE_LINK are SILENT now (R422). -/
def silentMet (was : State) (s : State) (st : Nat) : State :=
  ((List.range 4).filterMap (neighbour st)).foldl (fun s n =>
    if !girdled s n && silentBy s n && !silentBy was n then raise s cSilent n 0 0 else s) s

/-- Re-homes under way that meet the girdle of a stand: a swap off it goes on at once (R428); a move off it cannot end, and the entry is LOST
(R427); one onto it is over, the entry keeps its twin, which is stale (R310; log 24). -/
def rehomesMet (s : State) (st : Nat) : State :=
  (List.range 1536).foldl (fun s n =>
    match oget s.map.rehomes n with
    | none => s
    | some r =>
      let c := coppice s n
      if copTStand c = st then rehomeOver (if r.held then sendRhz s (.unhold n) else s) n
      else if copPStand c = st then (if r.kind = .swap then swapNow s n else rehomeOver (coppiceApply s n (put 33 2 2 c)) n)
      else s) s

/-- Twins on a stand that is girdled become stale (R310). -/
def twinsStale (s : State) (st : Nat) : State :=
  (List.range 1536).foldl (fun s n =>
    let c := coppice s n
    if copTwin c && copTStand c == st && !ownTstale (ownReg s st (copTBank c)) then markStale s n st (copTBank c) cTwinStale else s) s

/-- A centre tap is lost: contexts without a copy left, and the last of the four (R30, R168). -/
def centreLoss (s : State) (st : Nat) : State :=
  if st ∉ centreTaps then s
  else
    let pairs := (List.range 4).map (fun i => (centreTaps.getD i 19, centreTaps.getD ((i + 1) % 4) 19))
    let s := if pairs.any (fun p => (p.1 == st || p.2 == st) && girdled s p.1 && girdled s p.2) then
        raise s cContextLost locHost 0 0 else s
    if centreTaps.all (girdled s) then raise s cCentreLost locFault 0 0 else s

/-- Stands that are not girdled and that no rhizome path reaches any more raise PARTITION (R421). -/
def partition (was : List Nat) (s : State) : State :=
  let now := reached s
  ((List.range 48).filter (fun t => was.contains t && !girdled s t && !now.contains t)).foldl (fun s t => raise s cPartition t 0 0) s

/-- What a stand's girdle does beyond its routers (R420): rings and their holding, combining queues, multicast, watches, triggers, ALLSUM, its
core port, barriers, twins, re-homes, centre taps, dormancy votes. -/
def standLost (s : State) (st : StandId) : State :=
  let s := holdingLost s st.val
  let s := mcastGirdled (cmbGirdled s st.val) st
  let s := triggersLost (watchesLost s st.val) st.val
  let s := allsumGirdled s
  let s := if fenced s st.val then s else portStandLost s st
  let s := rehomesMet (twinsStale (barCheckAll s) st.val) st.val
  dormCheck (centreLoss s st.val)

/-- `t` with the girdle bits of `s`: nothing that a girdle entails changes one (R419). -/
def sameGirdles (s t : State) : State :=
  { t with map := { t.map with gstand := s.map.gstand, gport := s.map.gport, glink := s.map.glink } }

/-- Girdle a unit at the collector: its bit is set and the command goes to every hub (R419, R420). A switch waits for no acknowledgement of a
girdled stand (R107). -/
def girdleUnit (s : State) (u : GUnit) : State :=
  if unitGirdled s u then s
  else
    let was := (reached s, s)
    let s := sendRhz (setGirdle s u true) (.girdle u)
    match u with
    | .stand st => sameGirdles s (flipDone (partition was.1 (silentMet was.2 (standLost s st) st.val)))
    | .port k => sameGirdles s (barCheckAll (portGirdle s k))
    | .link _ => s

/-- The unit of bit j of a girdle register: 0 `MAP_GSTAND`, 1 `MAP_GPORT`, 2 + i `MAP_GLINK[i]` (R419); none where it is reserved. -/
def girdleBit (reg j : Nat) : Option GUnit :=
  if reg = 0 then (if h : j < 48 then some (.stand ⟨j, h⟩) else none)
  else if reg = 1 then (if h : j < 48 then some (.port ⟨j, h⟩) else none)
  else
    let n := (reg - 2) * 64 + j
    if h : n < 328 then some (.link ⟨n, h⟩) else none

/-- The offset of a girdle register, and of its releasing alias (R419). -/
def girdleOff (reg : Nat) : Nat := if reg < 2 then 0xE8000 + reg * 0x10 else 0xE8040 + (reg - 2) * 8
def girdleRelOff (reg : Nat) : Nat := if reg < 2 then 0xE8008 + reg * 0x10 else 0xE8080 + (reg - 2) * 8

/-- The units whose bits a write has at 1. -/
def girdleUnits (reg : Nat) (v : Word) : List GUnit := (bitsSet v).filterMap (girdleBit reg)

/-- A write of a girdle register (R419). -/
def girdleWrite (reg : Nat) (wm v : Word) (s : State) : State := (girdleUnits reg (v &&& wm)).foldl girdleUnit s

/-- The effect with its reports, which change no girdle bit. -/
def girdleSettled (reg : Nat) (wm v : Word) (s : State) : State :=
  let t := girdleWrite reg wm v s
  sameGirdles t (settle t)

def execGirdle (reg : Fin 8) (v : Word) (s : State) : Step := mgStep s (girdleOff reg.val) v (girdleSettled reg.val)

/-- A frond that starts a message and has lost its way at a girdle: answered in place of a girdled target, else discarded with a `LINK`
event (R61, R98). -/
def lostStart (st : StandId) (pl : PlaneId) (inp : Nat) (dead : Option Nat) (s : State) (f : Frond) : State :=
  let cut := raise s cGirdleDiscard st.val (meshSub pl.val inp) 0
  match dead with
  | none => cut
  | some g =>
    if (fld (header f) 48 6 = g ∨ girdled s (fld (header f) 48 6)) ∧ fld (header f) 54 2 = 0 then
      (deadReply s st f (headMsg pl f)).getD cut
    else cut

/-- One end of a plane of a link goes out of use at a stand: what waits for it is discarded, the messages open from it are closed with
abort tails (R86, R89, R98). -/
def endLost (s : State) (st : StandId) (pl : PlaneId) (dir : Nat) (dead : Option Nat) : State :=
  let s := discardRouted s st pl dir (lostStart st pl dir dead) (fun s => raise s cGirdleDiscard st.val (meshSub pl.val dir) 0)
  (List.range 8).foldl (fun s vc => if (inVc s st.val pl.val dir vc).opened.isSome then vcLoss s st.val pl.val dir vc else s) s

/-- The fronds inside a stand are lost (R420). -/
def routersLost (s : State) (st : Nat) : State :=
  let s := { s with mesh := { s.mesh with inv := tclear s.mesh.inv (inKey st 0 0 * 8) 192, outs := tclear s.mesh.outs (inKey st 0 0) 24 } }
  let s := { s with mesh := { s.mesh with asm := tclear s.mesh.asm (inKey st 0 0 / 6 * 8) 32 } }
  { s with mesh := { s.mesh with audit := tclear s.mesh.audit (inKey st 0 0) 24 } }

/-- The direction of a stand's neighbour, or of the link's other end. -/
def dirTo (a b : Nat) : Option Nat := (List.range 4).find? (fun d => neighbour a d == some b)

/-- A hub receives a girdle command: the unit goes out of service there (R104, R420). A stand that no path reaches gets none (R421). -/
def girdleApply (st : StandId) (u : GUnit) (s : State) : State :=
  let key := st.val * 424 + gunitNo u
  if !unitGirdled s u || cget false s.map.applied key || noPath s st.val then s
  else
    let s := { s with map := { s.map with applied := cset false s.map.applied key true } }
    let s := ((skidSlots s).filter (fun p => decide (p.1 = st))).foldl (fun s p => skidGirdle s p.1 p.2) s
    match u with
    | .stand g =>
      if g = st then routersLost s st.val
      else match dirTo st.val g.val with
      | some d => planes.foldl (fun s pl => endLost s st pl d (some g.val)) s
      | none => s
    | .link n =>
      let e := linkEnds (n.val / 4)
      let pl := planeOf n.val
      let other := if e.1 = st.val then some e.2 else if e.2 = st.val then some e.1 else none
      (match other.bind (dirTo st.val) with | some d => endLost s st pl d none | none => s)
    | .port _ => s

def execGirdleApply (st : StandId) (u : GUnit) (s : State) : Step := runMsg s (girdleApply st u)

/-- One end of a plane of a link comes back into use: no fronds of it held, 8 credits per VC (R86). -/
def endBack (s : State) (st pl dir : Nat) : State :=
  let s := (List.range 8).foldl (fun s vc =>
    let x := inVc s st pl dir vc
    setInVc s st pl dir vc { q := x.q.filter (fun f => f.own), since := s.time }) s
  let o := outPort s st pl dir
  setOutPort (setAudit s st pl dir false) st pl dir { o with credits := List.replicate 8 8, sent := List.replicate 8 0 }

/-- A plane of a link comes back at both ends. -/
def linkBack (s : State) (n : Nat) : State :=
  let e := linkEnds (n / 4)
  let s := match dirTo e.1 e.2 with | some d => endBack s e.1 (n % 4) d | none => s
  match dirTo e.2 e.1 with | some d => endBack s e.2 (n % 4) d | none => s

/-- No hub holds a unit as girdled any more. -/
def unapplied (s : State) (u : GUnit) : State :=
  { s with map := { s.map with applied := s.map.applied.filter (fun p => p.1 % 424 != gunitNo u) } }

/-- The operator releases a unit (R423): a stand stays girdled until its re-test is done. -/
def releaseUnit (s : State) (u : GUnit) : State :=
  if !unitGirdled s u then s
  else match u with
  | .stand st =>
    if s.bup.retest.any (fun p => decide (p.1 = st)) then s
    else sendRhz { s with bup := { s.bup with retest := s.bup.retest ++ [(st, s.time)] } } (.release u)
  | .link n => sendRhz (linkBack (unapplied (setGirdle s u false) u) n.val) (.release u)
  | .port k => fabricReset (sendRhz (unapplied (setGirdle s u false) u) (.release u)) k

/-- A write of a releasing register (R419, R423). -/
def releaseWrite (reg : Nat) (wm v : Word) (s : State) : State := (girdleUnits reg (v &&& wm)).foldl releaseUnit s

def execGirdleRelease (reg : Fin 8) (v : Word) (s : State) : Step := mgStep s (girdleRelOff reg.val) v (settled (releaseWrite reg.val))

end Sys2Proof.Machine
end

