-- ==== Sys2Proof/Machine/Faults.lean ====
section
/-! DEFINITION. The fault collector: classes, records, merge windows, the event FIFO and its ring, standing orders, the fatal safe
state, contingency sets (R406 to R418, R424, R425, R429, R430, R433 to R435). -/

namespace Sys2Proof.Machine

/-- The cause is one that R406 lists. -/
def listed (e : Ev) : Bool := (resetClass e.family.val e.cause.val).isSome

/-- Admit a record to the event FIFO, or drop and count it (R413). -/
def admitRec (s : State) (e : Ev) (time cls count : Nat) (acts : BitVec 16) (detail : Word) : State :=
  let f := s.flt
  let n := f.fifo.length
  if n < 960 ∨ (cls = 2 ∧ n < 1024) then
    { s with flt := { f with
      fifo := f.fifo ++ [{ time := time, family := e.family, cause := e.cause, cls := cls, loc := e.loc, sub := e.sub, count := count,
                           actions := acts ||| 1, lost := f.pendDrop, rseq := f.rseq, detail := detail }],
      rseq := (f.rseq + 1) % 2 ^ 32, pendDrop := 0 } }
  else { s with flt := { f with pendDrop := satAdd 16 f.pendDrop 1, drops := satAdd 16 f.drops 1 } }

/-- A merge window closes: what it has counted is admitted as one record (R412). -/
def windowClose (s : State) (e : Ev) (w : Window) : State :=
  if w.count = 0 then s
  else admitRec s e w.first w.cls w.count (w.acts ||| (if w.esc then 256 else 0)) w.detail

/-- Set or remove the window of a source. -/
def setWindow (s : State) (e : Ev) (w : Option Window) : State :=
  { s with flt := { s.flt with windows := oset s.flt.windows (srcKey e) w } }

/-- An occurrence raised at `at_` is admitted as its own record, or counted into its window (R410, R412, R413). -/
def record1 (s : State) (e : Ev) (at_ cls : Nat) (esc : Bool) (acts : BitVec 16) : State :=
  let own (s : State) : State := admitRec s e at_ cls 1 (acts ||| (if esc then 256 else 0)) e.detail
  let fresh : Window := { cls := cls, esc := esc, start := s.time, count := 0, first := 0, detail := 0, acts := 0 }
  match oget s.flt.windows (srcKey e) with
  | none =>
    let s := own s
    if cls = 2 ∨ 256 ≤ s.flt.windows.length then s else setWindow s e (some fresh)
  | some w =>
    if cls = w.cls then
      let w' : Window := { w with count := w.count + 1, first := if w.count = 0 then at_ else w.first,
                                  detail := if w.count = 0 then e.detail else w.detail, acts := w.acts ||| acts, esc := esc }
      setWindow { s with flt := { s.flt with merges := satAdd 16 s.flt.merges 1 } } e (some w')
    else
      let s := own (windowClose s e w)
      setWindow s e (if cls = 2 then none else some fresh)

/-- A contingency set that is valid for a unit (R424, R425). -/
def setFor (s : State) (k : ContKey) : Option Nat :=
  (List.range 64).find? (fun n => let r := regGet s (0x1800 + n * 8); bitAt r 63 && fld r 60 3 == k.kind && fld r 0 10 == k.unit)

/-- A unit that a GIRDLE order names (R417). -/
inductive OrderUnit where
  | gunit (u : GUnit)
  | module (e m : Nat)
  | hall (h : Nat)
  deriving DecidableEq, Repr

/-- The unit of an occurrence for GIRDLE (R417). -/
def orderUnit (e : Ev) : Option OrderUnit :=
  let c := e.cause.val
  let loc := e.loc.toNat
  let stand : Option OrderUnit := if h : loc < 48 then some (.gunit (.stand ⟨loc, h⟩)) else none
  match e.family.val with
  | 0 =>
    if c = 3 ∨ 4 < c then none
    else match (if loc < 48 then planeLink loc (fld e.sub 0 2) (fld e.sub 2 3) else none) with
    | some n => if h : n < 328 then some (.gunit (.link ⟨n, h⟩)) else none
    | none => none
  | 1 => if c = 0 ∨ c = 2 then stand else none
  | 2 => if c < 3 then stand else none
  | 5 => if c = 2 then stand else none
  | 6 => if c < 3 ∧ 56 ≤ loc ∧ loc < 60 ∧ e.sub.toNat < edgeMods (loc - 56) then some (.module (loc - 56) e.sub.toNat) else none
  | 7 => if c < 5 ∧ 60 ≤ loc ∧ loc < 68 then some (.hall (loc - 60)) else none
  | 8 => if h : loc < 48 then some (.gunit (.port ⟨loc, h⟩)) else none
  | 12 => if h : loc < 48 then some (.gunit (.port ⟨loc, h⟩)) else none
  | _ => none

/-- The unit that an occurrence itself has taken out of service: a module that entered FAILED, a hall port that left UP (R417). -/
def lostUnit (e : Ev) : Option ContKey :=
  let loc := e.loc.toNat
  if e.family = 6 ∧ (e.cause = 3 ∨ e.cause = 4) ∧ 56 ≤ loc ∧ loc < 60 then some ⟨2, (loc - 56) * 16 + e.sub.toNat⟩
  else if e.family = 7 ∧ e.cause = 5 ∧ 60 ≤ loc ∧ loc < 68 then some ⟨3, loc - 60⟩
  else none

/-- GIRDLE of a unit: whether it was started, and the key of its contingency sets (R418, R419, R424). -/
def orderGirdle (s : State) (u : OrderUnit) : Bool × Option ContKey × State :=
  match u with
  | .gunit g =>
    let key := match g with | .stand st => some (ContKey.mk 0 st.val) | .link n => some ⟨1, n.val⟩ | .port _ => none
    if unitGirdled s g then (false, none, s) else (true, key, girdleUnit s g)
  | .module e m =>
    if (modAt s e m).state = .failed then (false, none, s) else (true, some ⟨2, e * 16 + m⟩, modGone s e m .failed)
  | .hall h =>
    if (hallAt s h).quiet then (false, none, s) else (true, some ⟨3, h⟩, modHall s h (fun x => { x with quiet := true }))

/-- REHOME for an occurrence (R417, R427, R428): of every entry whose primary is on the stand just girdled, or of the bank served. -/
def orderRehome (s : State) (e : Ev) (gone : Option StandId) : Act × State :=
  let loc := e.loc.toNat
  let l := match gone with
    | some st => (List.range 1536).filter (fun n => copPStand (coppice s n) == st.val)
    | none => if e.family = 3 ∨ e.family = 4 then (entryOfPrimary s loc e.sub.toNat).toList else []
  l.foldl (fun (p : Act × State) n =>
    let q := rehomeEntry p.2 n
    (if p.1 = .refused ∨ q.1 = .refused then .refused else if q.1 = .started then .started else p.1, q.2)) (.idle, s)

/-- REPLAY of the share that an accumulator belongs to (R282, R429): its node makes it now, or has begun it by itself and the collector learns
of it here, once. A further mark of the share while it runs starts nothing (R418); one that recurs on the replay is refused. -/
def orderReplay (s : State) (e : Ev) : Act × State :=
  if e.family = 5 ∧ (e.cause = 0 ∨ e.cause = 1) ∧ e.loc.toNat < 48 then
    let st := standOf e.loc.toNat
    let i := fld e.detail 16 14
    match shareOfAcc s st i with
    | none => (.refused, s)
    | some (g, seg, q) =>
      let told (s : State) : State :=
        modMem s st.val g (fun m => modSeg m seg (fun x => setSh x q 1 { shAt x q 1 with told := true }))
      let z := match memAt s st.val g with | some m => shAt (segAt m seg) q 1 | none => {}
      if canReplay s st g seg q then (.started, memberGo (nodeCheck (told (shareReplay s st g seg q)) st g seg q 1 6) st g)
      else if z.replay && !z.told then (.started, told s)
      else if z.replay && !bitAt (accAt s st.val i).fl fRESERR then (.idle, s)
      else (.refused, s)
  else (.idle, s)

/-- The target that the pace loop works with (R453). -/
def paceTarget (s : State) : Nat := min 200 (max 160 (regFld s 0x2000 0 8))

/-- DERATE by 0.1 GHs, never below the floor (R417, R430). -/
def orderDerate (s : State) (e : Ev) : Act × State :=
  if (e.family = 10 ∧ (e.cause = 0 ∨ e.cause = 2)) ∨ (e.family = 11 ∧ e.cause = 0) then
    if paceTarget s ≤ 160 then (.refused, s) else (.started, regPut s 0x2000 0 8 (max 160 (paceTarget s - 10)))
  else (.idle, s)

/-- The orders of a CONTAINED occurrence, in the order of R418: the bits of `ACTIONS` (R410). -/
def orders (s : State) (e : Ev) : BitVec 16 × State :=
  let f := e.family.val
  let (gir, key, s1) := match (if armed s f 1 then orderUnit e else none) with
    | some u => orderGirdle s u
    | none => (false, none, s)
  let gone : Option StandId := match orderUnit e with
    | some (.gunit (.stand st)) => if gir then some st else none
    | _ => none
  let (reh, s2) := if armed s f 3 ∧ (gone.isSome ∨ f = 3 ∨ f = 4) then orderRehome s1 e gone else (.idle, s1)
  let key := if gir then key else lostUnit e
  let (rer, s3) : Nat × State := match (if armed s f 2 then key else none) with
    | none => (0, s2)
    | some k => match setFor s2 k with
      | some _ => (1, { s2 with flt := { s2.flt with reroutes := s2.flt.reroutes ++ [k] } })
      | none => (2, s2)
  let (rep, s4) := if armed s f 4 then orderReplay s3 e else (.idle, s3)
  let (der, s5) := if armed s f 5 then orderDerate s4 e else (.idle, s4)
  let b (i : Nat) (x : Bool) : Nat := if x then 2 ^ i else 0
  let any (a : Act) : Bool := reh == a || rep == a || der == a
  (BitVec.ofNat 16 (b 1 gir + b 2 (rer == 1) + b 3 (reh == .started) + b 4 (rep == .started) + b 5 (der == .started) + b 6 (rer == 2) +
    b 7 (any .refused)), s5)

/-- The safe state of a FATAL occurrence (R433): hall ports quiesce, every descriptor that has not completed completes with FABRIC_DOWN, and so
does a chain whose last member the host agent has not fetched and will not fetch now (log 100).
The rest follows from the latch: bridges and injection stop, core ports answer, the host agent fetches no more. -/
def safeState (s : State) : State :=
  let s := (List.range 8).foldl (fun s h => modHall s h (fun x => { x with quiet := true })) s
  let l := s.host.descs.filter (fun p => match p.2 with | some d => decide (d.phase ≠ .complete) | none => false)
  let s := l.foldl (fun s p => completeWith s p.1 .fabricDown) s
  (s.host.descs.filterMap (fun p => p.2.bind (fun d => match d.acc with | .ring _ => d.chain.map (fun c => (d.acc, c)) | .port _ => none))).foldl
    (fun s p => chainDone (chainCut s p.1) p.1 p.2) s

/-- A FATAL occurrence sets the latch and keeps the first of them, with the moment of its detection (R432 to R434). -/
def fatalTaken (s : State) (e : Ev) (at_ : Nat) : State :=
  if s.flt.fatal.isSome then s
  else safeState { s with flt := { s.flt with fatal := some { family := e.family, cause := e.cause, loc := e.loc, time := at_ } } }

/-- The collector takes one occurrence, raised at `at_`: it classes and counts it, acts on it, and admits its record (R409, R411, R412, R415, R418). -/
def takeEvent (s : State) (e : Ev) (at_ : Nat) : State :=
  if !listed e then s
  else
    let (cls, esc, b) := classify s e
    let s := wakeRequest { s with flt := { s.flt with buckets := oset s.flt.buckets (srcKey e) b } } .collector
    let s := match cls with
      | 0 => { s with flt := { s.flt with nCorr := satAdd 32 s.flt.nCorr 1 } }
      | 1 => { s with flt := { s.flt with nCont := satAdd 16 s.flt.nCont 1 } }
      | _ => { s with flt := { s.flt with nFatal := satAdd 16 s.flt.nFatal 1 } }
    let (acts, s) := if cls = 1 then orders s e else (0, s)
    let s := if 2 ≤ cls then fatalTaken s e at_ else s
    record1 s e at_ cls esc acts

/-- The next occurrence that the collector handles: FATAL before CONTAINED before CORRECTED, then by arrival (R411). -/
def nextEvent (s : State) : Option Ev :=
  let c (k : Nat) (e : Ev) : Bool := (classify s e).1 == k
  match s.flt.inbox.find? (fun e => decide (2 ≤ (classify s e).1)) with
  | some e => some e
  | none => match s.flt.inbox.find? (c 1) with
    | some e => some e
    | none => s.flt.inbox.head?

/-- What `sent` says of each event that waits. -/
def evMarks (s : State) : List (Nat × Bool) := (List.range s.flt.inbox.length).map (fun i => s.flt.sent.getD i (s.time, false))

/-- Events that no path of the rhizome brings to the collector are discarded (R421). -/
def dropCut (s : State) : State :=
  let l := s.flt.inbox.zip (evMarks s)
  if l.any (fun p => p.2.2) then
    let l := l.filter (fun p => !p.2.2)
    { s with flt := { s.flt with inbox := l.map Prod.fst, sent := l.map Prod.snd } }
  else s

/-- An event that a unit outside the block raises now. -/
def evArrive (e : Option Ev) (s : State) : State :=
  match e with
  | some e => if listed e then { s with flt := { s.flt with inbox := s.flt.inbox ++ [e], sent := evMarks s ++ [(s.time, false)] } } else s
  | none => s

/-- An occurrence reaches the collector, or the next that waits is handled (R411). -/
def faultEvent (e : Option Ev) (s : State) : State :=
  let s := dropCut (evArrive e s)
  match nextEvent s with
  | none => s
  | some e =>
    let i := s.flt.inbox.idxOf e
    takeEvent { s with flt := { s.flt with inbox := s.flt.inbox.eraseIdx i, sent := s.flt.sent.eraseIdx i } } e (s.flt.sent.getD i (s.time, false)).1

def execFaultEvent (e : Option Ev) (s : State) : Step := runMsg s (faultEvent e)

/-- 100 µs after a window opened (R412). -/
def mergeClose (e : Ev) (s : State) : State :=
  match oget s.flt.windows (srcKey e) with
  | none => s
  | some w =>
    let s := advanceTo s (w.start + 100000)
    if w.count = 0 then setWindow s e none
    else setWindow (windowClose s e w) e (some { w with start := s.time, count := 0, first := 0, detail := 0, acts := 0 })

def execMergeWindowClose (family cause : Fin 16) (loc : BitVec 7) (sub : BitVec 8) (s : State) : Step :=
  run s (mergeClose { family := family, cause := cause, loc := loc, sub := sub, detail := 0 })

/-- The 32 bytes of an event record with a `PHASE` (R410). -/
def evBytes (r : EvRec) (phase : Bool) : List Byte :=
  leBytes 8 r.time ++
  leBytes 1 (r.family.val + r.cls % 4 * 16 + (if r.lost = 0 then 0 else 64) + (if phase then 128 else 0)) ++ leBytes 1 r.cause.val ++
  leBytes 1 r.loc.toNat ++ leBytes 1 r.sub.toNat ++ leBytes 4 r.count ++ leBytes 2 r.actions.toNat ++ leBytes 2 r.lost ++
  leBytes 4 r.rseq ++ leBytes 8 r.detail.toNat

/-- K of the host event ring (R414). -/
def evK (s : State) : Nat := regFld s 0x1028 0 5

/-- The host agent writes the oldest record to the host event ring, where it has room (R414). -/
def evRingWrite (s : State) : State :=
  let f := s.flt
  match f.fifo with
  | [] => s
  | r :: q =>
    if !f.ringEn || decide (2 ^ evK s ≤ (f.ringTail - f.ringHead).toNat) then s
    else
      let t := f.ringTail.toNat
      let phase := decide (t / 2 ^ evK s % 2 = 0)
      emit { s with flt := { f with fifo := q, ringTail := f.ringTail + 1 } } (.hostWrite (ringAddr (regGet s 0x1028) (evK s) 32 t) (evBytes r phase))

def execEventRingWrite (s : State) : Step := run s evRingWrite

/-- `FLT_EVPOP[i]` (R415). -/
def evPopWord (s : State) (i : Nat) : Word :=
  match s.flt.fifo with
  | [] => 0
  | r :: _ => if s.flt.ringEn then 0 else BitVec.ofNat 64 (leAt (evBytes r false) (8 * i) 8)

/-- A read of `FLT_EVPOP[3]` removes the oldest record, while `EN` is 0 (R415). -/
def evPop (s : State) : State := if s.flt.ringEn then s else { s with flt := { s.flt with fifo := s.flt.fifo.drop 1 } }

/-- A write of `FLT_RING_CTL` (R414). -/
def evRingCtl (wm v : Word) (s : State) : State :=
  let en := if bitAt wm 63 then bitAt v 63 else s.flt.ringEn
  if en && !s.flt.ringEn then
    if evK s < 4 ∨ 16 < evK s then refuseWrite s 0x1030
    else { s with flt := { s.flt with ringEn := true, ringTail := 0, ringHead := 0 } }
  else { s with flt := { s.flt with ringEn := en } }

def execEventRingEnable (v : Word) (s : State) : Step := mgStep s 0x1030 v evRingCtl

/-- A write of `FLT_RING_HEAD`: a value that passes `TAIL` has no effect (R414). -/
def evRingHead (wm v : Word) (s : State) : State :=
  let h := BitVec.ofNat 32 (fld (merge (wm &&& mask 0 32) (BitVec.ofNat 64 s.flt.ringHead.toNat) v) 0 32)
  if (h - s.flt.ringHead).toNat ≤ (s.flt.ringTail - s.flt.ringHead).toNat then { s with flt := { s.flt with ringHead := h } } else s

def execEventRingHeadWrite (v : Word) (s : State) : Step := mgStep s 0x1038 v evRingHead

/-- A write of `FLT_CLASS[f][c]` (R408): a reserved CLASS leaves the class as it is; buckets and escalations of the cause clear. -/
def classWrite (f c : Nat) (wm v : Word) (s : State) : State :=
  let off := classOff f c
  let old := regGet s off
  if (resetClass f c).isNone || bitAt old 62 then s
  else
    let m := wm &&& (mask 63 1 ||| mask 58 4 ||| mask 0 48)
    let new := merge m old v
    let new := if fld new 60 2 = 3 then put 60 2 (fld old 60 2) new else new
    let s := regSet s off new
    { s with flt := { s.flt with buckets := s.flt.buckets.filter (fun p => p.1 / 2 ^ 15 != f * 16 + c) } }

def execFaultClassWrite (f : Fin 13) (c : Fin 16) (v : Word) (s : State) : Step := mgStep s (classOff f.val c.val) v (classWrite f.val c.val)

/-- A half-entry of the contingency sets (R424). -/
def contHalf (s : State) (i : Nat) : Word := cget 0 s.flt.cont i

/-- A write of `FLT_CONT_DATA` stores a half and advances the address (R424). -/
def contDataWrite (wm v : Word) (s : State) : State :=
  let a := regFld s 0x1048 0 16
  let s := { s with flt := { s.flt with cont := cset 0 s.flt.cont a (merge wm (contHalf s a) v) } }
  regPut s 0x1048 0 16 ((a + 1) % 2 ^ 16)

def execContingencyDataWrite (v : Word) (s : State) : Step := mgStep s 0x1050 v contDataWrite

/-- An offset that a contingency set may write: a staged `STD_ROUTE`, skid or `GLB_EXIT` entry (R424). -/
def contOffOk (off : Nat) : Bool :=
  match standWindow off with
  | some (_, o) => inArray o 0x200 48 8 || (decide (0x800 ≤ o) && decide (o < 0x1000) && decide (o % 32 ≤ 16) && decide (o % 8 = 0))
  | none => inArray off 0x200 45 8

/-- The writes of a set: offset and value (R424). A set holds 512 and no more, whatever its COUNT says (log 68). -/
def contWrites (s : State) (n count : Nat) : List (Nat × Word) :=
  (List.range (min 512 count)).map (fun i => ((contHalf s ((n * 512 + i) * 2)).toNat, contHalf s ((n * 512 + i) * 2 + 1)))

/-- A write of `FLT_CONT_KEY[n]` (R424): of a key that becomes valid it refuses two things, a set for the same unit and a write that no set may
hold. A reserved KIND, or a UNIT that does not exist, is stored and meets no unit (log 68). -/
def contKeyWrite (n : Nat) (wm v : Word) (s : State) : State :=
  let off := 0x1800 + n * 8
  let new := regNext s wm off v
  if !bitAt new 63 then regSet s off new
  else
    let k : ContKey := ⟨fld new 60 3, fld new 0 10⟩
    let same := (List.range 64).any (fun j => j != n && (let r := regGet s (0x1800 + j * 8); bitAt r 63 && fld r 60 3 == k.kind && fld r 0 10 == k.unit))
    if same then refuseWrite s off
    else match (contWrites s n (fld new 32 10)).find? (fun p => !contOffOk p.1) with
    | some p => raise s cWriteRefused locMgmt 0 (BitVec.ofNat 64 p.1)
    | none => regSet s off new

def execContingencyKeyWrite (n : Fin 64) (v : Word) (s : State) : Step := mgStep s (0x1800 + n.val * 8) v (contKeyWrite n.val)

/-- Apply one write of a set to the staged banks (R425); what the entry refuses of any write is refused here too (R97, R99). -/
def contApply (s : State) (p : Nat × Word) : State :=
  if !contOffOk p.1 then s
  else match standWindow p.1 with
  | some (_, o) => if o < 0x800 then routeStage p.1 allBits p.2 s else bkWrite allBits p.1 p.2 s
  | none => exitStage p.1 allBits p.2 s

/-- A REROUTE that waits goes on once the controller is IDLE (R425): its set's writes are staged in order, and a switch is requested. While the
fatal latch is set no order acts (R418). -/
def reroute (s : State) : State :=
  if s.epoch.phase ≠ .idle ∨ fatalLatched s then s
  else match s.flt.reroutes with
  | [] => s
  | k :: r =>
    let s := { s with flt := { s.flt with reroutes := r } }
    match setFor s k with
    | none => s
    | some n => epochRequest ((contWrites s n (regFld s (0x1800 + n * 8) 32 10)).foldl contApply s)

def execReroute (s : State) : Step := run s reroute

end Sys2Proof.Machine
end

