-- ==== Sys2Proof/Machine/Heal.lean ====
section
/-! DEFINITION. Liveness, `HEARTBEAT` and cruise (R422, R431, R435). -/

namespace Sys2Proof.Machine

/-- Every 200 ns a rhizome node sends a liveness message to each neighbour (R422). -/
def livenessSend (st : StandId) (s : State) : State := if girdled s st.val then s else sendRhz s (.liveness st)

def execLivenessSend (st : StandId) (s : State) : Step := run s (livenessSend st)

/-- A liveness message of a neighbour arrives (R422). -/
def livenessHeard (st from_ : StandId) (s : State) : State :=
  match dirTo st.val from_.val with
  | none => s
  | some d =>
    { s with flt := { s.flt with heard := cset 0 s.flt.heard (nbrKey st.val d) s.time, silent := oset s.flt.silent (nbrKey st.val d) none } }

def execLivenessMessage (st : StandId) (from_ : StandId) (s : State) : Step := run s (livenessHeard st from_)

/-- A neighbour hears nothing for 1 µs and raises NODE_LINK; once every neighbour in service has done so within 2 µs, the collector raises
SILENT (R422). -/
def nodeSilence (st : StandId) (dir : Nat) (s : State) : State :=
  match neighbour st.val dir with
  | none => s
  | some n =>
    let key := nbrKey st.val dir
    if girdled s st.val || girdled s n || (oget s.flt.silent key).isSome then s
    else
      let s := advanceTo s (cget 0 s.flt.heard key + 1000)
      let s := raise { s with flt := { s.flt with silent := oset s.flt.silent key (some s.time) } } cNodeLink st.val dir 0
      if silentBy s n then raise s cSilent n 0 0 else s

def execNodeLinkSilence (st : StandId) (dir : Fin 4) (s : State) : Step := run s (nodeSilence st dir.val)

/-- A stand is alive: its liveness message has reached a neighbour within the last 1 µs (R422). -/
def alive (s : State) (st : Nat) : Bool :=
  (List.range 4).any (fun d => match neighbour st d with
    | some b => decide (s.time ≤ cget 0 s.flt.heard (nbrKey b ((d + 2) % 4)) + 1000)
    | none => false)

/-- `TIME` crosses a multiple of 500 ns: `HEARTBEAT` toggles where every condition holds (R435). -/
def heartbeat (s : State) : State :=
  let s := advanceTo s ((s.time / 500 + 1) * 500)
  let ok := decide (2 ≤ s.bup.reported) && !fatalLatched s && (List.range 48).all (fun st => girdled s st || alive s st)
  { s with flt := { s.flt with hb := if ok then !s.flt.hb else s.flt.hb, hbRun := ok } }

def execHeartbeatTick (s : State) : Step := run s heartbeat

/-- PRBS31 from a state of 31 bits (R431): the next `n` bits of x^31 + x^28 + 1, first bit lowest, and the state after them. -/
def prbs (x : BitVec 31) : Nat → List Bool × BitVec 31
  | 0 => ([], x)
  | n + 1 =>
    let b := x.getLsbD 30 ^^ x.getLsbD 27
    let (l, y) := prbs (x <<< 1 ||| (if b then 1 else 0)) n
    (b :: l, y)

/-- Bits as a payload, bit 0 first. -/
def bitsBv (l : List Bool) : BitVec 512 := BitVec.ofNat 512 (l.foldr (fun b n => 2 * n + if b then 1 else 0) 0)

/-- The seed of a sequence at reset, which no rule gives (log 26). -/
def prbsSeed : BitVec 31 := 0x7FFFFFFF

/-- The sequence's state after a payload: its last 31 bits. -/
def prbsSync (p : BitVec 512) : BitVec 31 := BitVec.ofNat 31 ((List.range 31).foldl (fun n i => 2 * n + if p.getLsbD (481 + i) then 1 else 0) 0)

/-- The sender and the receiver of a plane-link direction: 0 toward higher x or y (R419, R467). -/
def linkFrom (n dir : Nat) : Nat := if dir = 0 then (linkEnds (n / 4)).1 else (linkEnds (n / 4)).2
def linkTo (n dir : Nat) : Nat := if dir = 0 then (linkEnds (n / 4)).2 else (linkEnds (n / 4)).1

/-- A plane-link that carries transfers, with cruise running (R431). -/
def cruiseOn (s : State) (n : Nat) : Bool :=
  regBit s 0x1040 63 && !linkGirdled s n && !girdled s (linkFrom n 0) && !girdled s (linkTo n 0)

/-- The cruise frond: CTRL on VC 6 under the fabric tag, to the neighbour's hub (R431). -/
def cruiseFrond (s : State) (src dst : Nat) (p : BitVec 512) : Frond :=
  let stem := sealStem (BitVec.ofNat 128 (4 * 2 ^ 125 + 6 * 2 ^ 122 + (if standParity s (standOf src) then 2 ^ 121 else 0) +
    (selfUpper s * 2 ^ 40 + (sy dst * 8 + sx dst) * 2 ^ 34) * 2 ^ 38 + (srcOf s src).toNat * 2 ^ 12 + 7 * 2 ^ 8))
  { stem := stem, payload := p, pcheck := BitVec.ofNat 16 (crc16 (leBytes 64 p.toNat)) }

/-- An output may carry a cruise frond: VC 6 has a credit, no message holds it and no observation frond waits, and with it cruise takes at most 3, and VC 6 at most
3, of any 100 handshakes (R431, R477). -/
def cruiseRoom (s : State) (st pl outp : Nat) : Bool :=
  creditOk s st pl outp 6 && (((outPort s st pl outp).holder.getD 6 none).isNone) && !vcWaiting s st pl outp 6 && decide (((outPort s st pl outp).bg.filter (· != 0)).length < 3)

/-- `LINK_US` and `RED_MS` in ns; 0 acts as 1 (R431). -/
def cruiseNs (s : State) : Nat := 1000 * max 1 (regFld s 0x1040 0 16)
def checkNs (s : State) : Nat := 10 ^ 6 * max 1 (regFld s 0x1040 32 16)

/-- The moment of the next pattern of a direction and of the next self-check of a stand: an interval after the last (R431; log 109). -/
def cruiseNext (s : State) (key : Nat) : State :=
  let s := match oget s.flt.cruiseAt key with | some t => advanceTo s (t + cruiseNs s) | none => s
  { s with flt := { s.flt with cruiseAt := oset s.flt.cruiseAt key (some s.time) } }
def checkNext (s : State) (st : Nat) : State :=
  let s := match oget s.flt.checkAt st with | some t => advanceTo s (t + checkNs s) | none => s
  { s with flt := { s.flt with checkAt := oset s.flt.checkAt st (some s.time) } }

/-- Every `LINK_US` a direction of a plane-link carries the next 512 bits of its sequence (R431). A frond that the output has no room for
now is not sent, and the sequence does not advance. -/
def cruiseSend (n dir : Nat) (s : State) : State :=
  let a := linkFrom n dir
  let b := linkTo n dir
  if !cruiseOn s n || frozenAt s a || standDormant s (standOf a) then s
  else
    match dirTo a b with
    | some d =>
      let pl := (planeOf n).val
      if !cruiseRoom s a pl d then s
      else
        let key := n * 2 + dir
        let s := cruiseNext s key
        let (l, y) := prbs (cget prbsSeed s.flt.prbsTx key) 512
        let s := { s with flt := { s.flt with prbsTx := cset prbsSeed s.flt.prbsTx key y } }
        let s := recordHandshake (spendCredit (tally s (0xC2000 + n * 16 + dir * 8) 1) a pl d 6) (standOf a) pl d false 2
        emit s (.frond (standOf a) (planeOf n) (portOf d) 6 (cruiseFrond s a b (bitsBv l)))
    | none => s

def execCruisePatternSend (n : Fin 328) (dir : Fin 2) (s : State) : Step := run s (cruiseSend n.val dir.val)

/-- A cruise frond is taken at the input of its plane-link: it is received, and its credit returns (R85, R88). -/
def cruiseTaken (s : State) (st pl inp : Nat) : State :=
  let x := inVc s st pl inp 6
  giveCredit (setInVc s st pl inp 6 { x with recv := (x.recv + 1) % 16 }) (standOf st) (planeOf pl) (portOf inp) 6

/-- The neighbour's hub compares a cruise frond with its own sequence; a mismatch raises LINK CRUISE with the bits in error, and the
sequence goes on from the frond (R431). -/
def cruiseReceive (n dir : Nat) (p : BitVec 512) (s : State) : State :=
  let a := linkFrom n dir
  let b := linkTo n dir
  if !cruiseOn s n || frozenAt s b then s
  else
    let key := n * 2 + dir
    let s := match dirTo b a with | some d => cruiseTaken s b (n % 4) d | none => s
    let (l, y) := prbs (cget prbsSeed s.flt.prbsRx key) 512
    let bad := popcount (p ^^^ bitsBv l)
    let put (y : BitVec 31) : State := { s with flt := { s.flt with prbsRx := cset prbsSeed s.flt.prbsRx key y } }
    if bad = 0 then put y
    else raise (put (prbsSync p)) cCruise b (meshSub (n % 4) ((dirTo b a).getD 0)) (BitVec.ofNat 64 bad)

def execCruisePatternReceive (n : Fin 328) (dir : Fin 2) (payload : BitVec 512) (s : State) : Step := run s (cruiseReceive n.val dir.val payload)

/-- Every `RED_MS` an idle reducer runs the self-check vectors: failing lanes raise RESIDUE SELFTEST; `DETAIL` has bit i for lane i or
i + 64 (R431; log 26). -/
def selfcheck (st : StandId) (bad : BitVec 128) (s : State) : State :=
  if !regBit s 0x1040 62 || girdled s st.val || frozenAt s st.val || standDormant s st then s
  else if bad == 0 then checkNext s st.val
  else raise (checkNext s st.val) cResSelftest st.val 0 (BitVec.ofNat 64 (fld bad 0 64) ||| BitVec.ofNat 64 (fld bad 64 64))

def execReducerSelfcheck (st : StandId) (badLanes : BitVec 128) (s : State) : Step := run s (selfcheck st badLanes)

end Sys2Proof.Machine
end

