-- ==== Sys2Proof/Machine/TableSet.lean ====
section
/-! DEFINITION. The table store: checks of an image, slot records, the choice of a slot in stage S2, the operator's commands and the
security block's answers (R457 to R466, R493). -/

namespace Sys2Proof.Machine

/-- Fields of an image's header (R457). -/
def imgLen (l : List Byte) : Nat := leAt l 16 4
def imgSvn (l : List Byte) : Nat := leAt l 12 2
def imgVersion (l : List Byte) : Nat := leAt l 8 4

/-- The n-th directory entry: ID, OFFSET, SIZE (R457). -/
def dirEntry (l : List Byte) (n : Nat) : Nat × Nat × Nat := (leAt l (64 + n * 16) 1, leAt l (68 + n * 16) 4, leAt l (72 + n * 16) 4)

/-- The contents of the section with an `ID` (R457). -/
def sectionOf (l : List Byte) (id : Nat) : List Byte :=
  match ((List.range 7).map (dirEntry l)).find? (fun e => e.1 == id) with
  | some e => sub l e.2.1 e.2.2
  | none => []

/-- The directory: each ID once, sections placed and apart, entry 7 all zero (R457, R458). -/
def dirOk (i : List Byte) : Bool :=
  let l := (List.range 7).map (dirEntry i)
  (List.range 7).all (fun k => (l.filter (fun e => e.1 == k + 1)).length == 1) &&
  l.all (fun e => decide (e.2.1 % 64 = 0) && decide (192 ≤ e.2.1) && decide (e.2.1 + e.2.2 ≤ imgLen i - 96)) &&
  (List.range 7).all (fun a => (List.range 7).all (fun b => a == b ||
    (let x := dirEntry i a; let y := dirEntry i b; decide (x.2.1 + x.2.2 ≤ y.2.1) || decide (y.2.1 + y.2.2 ≤ x.2.1)))) &&
  (sub i 176 16).all (· == 0)

/-- `HCRC` (R457). -/
def hcrcOk (i : List Byte) : Bool := leAt i 20 4 == crc32c (sub i 0 20 ++ leBytes 4 0 ++ sub i 24 168)

/-- Every `SCRC` (R457). -/
def sectOk (i : List Byte) : Bool :=
  (List.range 7).all (fun n => let e := dirEntry i n; leAt i (76 + n * 16) 4 == crc32c (sub i e.2.1 e.2.2))

/-- The PACE section (R457): 256 entries that never fall, at least 160 at code 60 and 200 at code 70. -/
def paceOk (i : List Byte) : Bool :=
  let p := sectionOf i 2
  let e (v : Nat) : Nat := leAt p (2 * v) 2
  p.length == 512 && (List.range 255).all (fun v => decide (e v ≤ e (v + 1))) && decide (160 ≤ e 60) && decide (200 ≤ e 70)

/-- The order that `PWR_LIMITS` keeps (R453). -/
def limitsOk (w : Word) : Bool :=
  decide (fld w 56 8 < fld w 40 8) && decide (fld w 40 8 < fld w 16 8) && decide (fld w 16 8 < fld w 24 8) && decide (fld w 24 8 ≤ 100) &&
  decide (fld w 48 8 < 60)

/-- The ranged defaults (R457): limits, `MACPFX` locally administered and unicast, `ETYPE`. -/
def defaultsOk (i : ImageFacts) : Bool :=
  limitsOk i.limits && bitAt i.macpfx 17 && !bitAt i.macpfx 16 && decide (0x600 ≤ i.etype.toNat) && i.etype.toNat != 0x8100

/-- Checks 1 and 2 of R458, which the first page decides: the code of the first that fails, else 0. -/
def headCheck (l : List Byte) (pages : Nat) : Nat :=
  if !(leAt l 0 4 == 0x53545A49 && leAt l 4 2 == 0x1E2A && leAt l 6 1 == 0xB1 && leAt l 7 1 == 1 && leAt l 14 2 == 7) then 1
  else if imgLen l < 4096 ∨ 4194304 < imgLen l ∨ pages * 4096 < imgLen l then 2
  else 0

/-- Checks 1 to 5 of R458, which the store makes on the image it has loaded. -/
def contentCheck (l : List Byte) (f : ImageFacts) : Nat :=
  let d := headCheck l f.pages
  if d ≠ 0 then d
  else if !(hcrcOk l && dirOk l && sectOk l) then 3
  else if !f.fixedOk then 4
  else if !(paceOk l && f.eqOk && defaultsOk f) then 5
  else 0

/-- R458: the `DETAIL` code of the first check that fails, 0 where the image passes. -/
def imageCheck (i : SlotImage) (counter : Nat) : Nat :=
  let d := contentCheck i.bytes i.facts
  if d ≠ 0 then d
  else if !i.sigOk then 6
  else if imgSvn i.bytes < counter then 7
  else if !i.flashOk then 8
  else 0

/-- The same of a slot that may not be readable at all. -/
def slotCheck (i : Option SlotImage) (counter : Nat) : Nat := match i with | some i => imageCheck i counter | none => 8

/-- The 8 bytes of a slot record that its CRC covers, and its 16 bytes (R461). -/
def recHead (r : SlotRec) : List Byte :=
  leBytes 4 r.seq.toNat ++ leBytes 1 (if r.active then 1 else 0) ++ leBytes 1 r.stA ++ leBytes 1 r.stB ++ leBytes 1 0
def recBytes (r : SlotRec) : List Byte := recHead r ++ leBytes 4 (crc32c (recHead r)) ++ leBytes 4 0

/-- A valid record copy (R461). -/
def recRead (l : List Byte) : Option SlotRec :=
  if leAt l 8 4 == crc32c (sub l 0 8) && decide (l.length ≥ 16) && decide (leAt l 4 1 < 2) && decide (leAt l 5 1 < 7) && decide (leAt l 6 1 < 7) &&
      leAt l 7 1 == 0 && leAt l 12 4 == 0 then
    some { seq := BitVec.ofNat 32 (leAt l 0 4), active := leAt l 4 1 == 1, stA := leAt l 5 1, stB := leAt l 6 1 }
  else none

/-- The state of a slot in a record: false A, true B. -/
def recSt (r : SlotRec) (b : Bool) : Nat := if b then r.stB else r.stA

/-- A record with a slot's state changed. -/
def recPut (r : SlotRec) (b : Bool) (n : Nat) : SlotRec := if b then { r with stB := n } else { r with stA := n }

/-- Words of bytes. -/
def wordsOf (l : List Byte) : Nat → List (BitVec 32)
  | 0 => []
  | n + 1 => BitVec.ofNat 32 (leAt l 0 4) :: wordsOf (l.drop 4) n

/-- The flash page of a slot's page (R460). -/
def flashPage (b : Bool) (p : Nat) : BitVec 32 := BitVec.ofNat 32 ((if b then 1280 else 256) + p)

/-- A page of the page buffer (R463). -/
def bufWords (s : State) : List (BitVec 32) :=
  (List.range 512).flatMap (fun i => let w := regGet s (0xD1000 + i * 8); [BitVec.ofNat 32 (fld w 0 32), BitVec.ofNat 32 (fld w 32 32)])

/-- What VERIFY carries: the 12 words of the digest, then the 24 words of the signature, as they stand in the image (R457, R459; log 6). -/
def verifyWords (l : List Byte) : List (BitVec 32) :=
  (List.range 12).map (Config.sha384 (l.take (imgLen l - 96))) ++ wordsOf (sub l (imgLen l - 96) 96) 24

/-- The pages of an image that the store reads: the first, and where that passes its checks the rest (R458, R462). -/
def imgPages (l : List Byte) (pages : Nat) : Nat := if headCheck l pages ≠ 0 then 1 else (imgLen l + 4095) / 4096

/-- The command that a step puts on `SEC_*` (R459). -/
def secOut (s : State) : SecStep → Out
  | .readPage b p => .sec 0 [flashPage b p]
  | .writePage b p => .sec 1 (flashPage b p :: bufWords s)
  | .eraseSlot b p => .sec 2 [flashPage b p]
  | .load b p => .sec 0 [flashPage b p]
  | .verify _ => .sec 3 (verifyWords s.tbl.work)
  | .recErase _ => .sec 2 [BitVec.ofNat 32 (1 - s.tbl.copy)]
  | .recWrite r => .sec 1 (BitVec.ofNat 32 (1 - s.tbl.copy) :: wordsOf (recBytes r) 4 ++ List.replicate 1020 0)
  | .svnAdvance v => .sec 5 [BitVec.ofNat 32 v.toNat]

/-- A record replaces the current one: `SEQ` + 1, in the other copy (R461). -/
def recTaken (s : State) (r : SlotRec) : State := { s with tbl := { s.tbl with rec_ := r, copy := 1 - s.tbl.copy } }

/-- The next record after a change. -/
def recNext (s : State) (r : SlotRec) : SlotRec := { r with seq := s.tbl.rec_.seq + 1 }

/-- Write a record in stage S2 (R462 `put`): its `n`-th write. A flash error leaves the record unchanged, and is not a halt. -/
def s2Put (s : State) (p : StageReport) (n : Nat) (r : SlotRec) : State :=
  let r := recNext s r
  let t := emit (emit s (secOut s (.recErase r))) (secOut s (.recWrite r))
  if p.recBad.contains n then t else recTaken t r

/-- `TBL_SLOT[s]` (R463). -/
def setSlotReg (s : State) (b : Bool) (i : Option (List Byte)) : State :=
  regSet s (0xD0020 + if b then 8 else 0) (match i with
    | some i => mk 32 32 (imgVersion i) ||| mk 16 16 (imgSvn i) ||| mk 0 11 ((imgLen i + 4095) / 4096)
    | none => 0)

/-- The defaults of an image go into every register marked so, at every stand (R439, R457, R493). -/
def loadDefaults (s : State) (i : ImageFacts) : State :=
  let s := regPut (regPut s 0x2000 32 8 i.guardBand.toNat) 0x2000 16 8 i.dderate.toNat
  let s := regPut (regSet s 0x2010 (i.limits &&& ~~~(mask 0 16))) 0xB8000 40 24 i.macpfx.toNat
  let s := regPut s 0xB8000 24 16 i.etype.toNat
  stands.foldl (fun s st =>
    let s := regPut s (stdOff st 0x388) 48 8 i.ofs.toNat
    let s := (List.range 8).foldl (fun s v => regSet s (stdOff st (0x100 + v * 8)) (regReset (stdOff st (0x100 + v * 8)))) s
    (List.range 16).foldl (fun s c => regSet s (stdOff st (0x140 + c * 8)) (regReset (stdOff st (0x140 + c * 8)))) s) s

/-- What loading a slot puts on `SEC_*`: a READ for each page, then VERIFY of an image that passes the store's own checks (R459, R462). -/
def loadOuts (s : State) (b : Bool) (i : Option SlotImage) : State :=
  match i with
  | none => emit s (.sec 0 [flashPage b 0])
  | some x =>
    let s := (List.range (imgPages x.bytes x.facts.pages)).foldl (fun s p => emit s (.sec 0 [flashPage b p])) s
    if contentCheck x.bytes x.facts = 0 then emit s (.sec 3 (verifyWords x.bytes)) else s

/-- `load(s)` of R462: whether the slot passes, and the state with its image in the store and its defaults loaded, or with the event of its
failure. -/
def s2Load (s : State) (r : StageReport) (b : Bool) : Bool × State :=
  let i := if b then r.slotB else r.slotA
  let d := slotCheck i (regFld s 0xD0030 0 16)
  let s := loadOuts s b i
  match i with
  | some x =>
    if d = 0 then (true, { setSlotReg (loadDefaults s x.facts) b (some x.bytes) with tbl := { s.tbl with image := x.bytes } }) else (false, raise s cWriteRefused locTable 0 (BitVec.ofNat 64 d))
  | none => (false, raise s cWriteRefused locTable 0 (BitVec.ofNat 64 d))

/-- `run(s, origin)` of R462. -/
def s2Run (s : State) (b : Bool) (origin : Nat) : Bool × State := (true, { s with tbl := { s.tbl with runB := b, origin := origin } })

/-- Stage S2 chooses and loads a slot (R461, R462): whether one runs. The version counter is first raised to the `SVN` of the active slot, where
that is GOOD and can be read. The steps go on from the record as they mean to write it, also where
the flash did not take it (log 110). -/
def s2Choose (s : State) (r : StageReport) : Bool × State :=
  let c0 := recRead r.rec0
  let c1 := recRead r.rec1
  let both := match c0, c1 with | some x, some y => some ((y.seq - x.seq).toNat) | _, _ => none
  let none_ := c0.isNone && c1.isNone
  let amb := match both with | some d => d == 0 || d == 2 ^ 31 | none => false
  let useOne := match both with | some d => decide (1 ≤ d) && decide (d < 2 ^ 31) | none => c0.isNone
  let cur : SlotRec := if none_ then { stA := 5, stB := 5 } else ((if useOne then c1 else c0).getD {})
  let s := { s with tbl := { s.tbl with rec_ := cur, copy := if useOne then 1 else 0 } }
  let s := if amb then raise s cWriteRefused locTable 0 9 else s
  let s := regPut s 0xD0030 0 16 r.counter.toNat
  let s := match (if recSt cur cur.active = 5 then (if cur.active then r.slotB else r.slotA) else none) with
    | some x =>
      let v := imgSvn x.bytes
      let s := emit (emit s (.sec 0 [flashPage cur.active 0])) (secOut s (.svnAdvance (BitVec.ofNat 16 v)))
      regPut s 0xD0030 0 16 (max r.counter.toNat v)
    | none => s
  let act := cur.active
  let o := !act
  -- the trial slot, or the reversion of one not confirmed; with it the record and the number of writes so far
  let s1 : Option (Bool × State) × State × SlotRec × Nat :=
    if recSt cur o = 3 then
      let w := recPut cur o 4
      let s := s2Put s r 0 w
      let (ok, s) := s2Load s r o
      let v := recPut cur o 6
      if ok then (some (s2Run s o 1), s, w, 1) else (none, s2Put s r 1 v, v, 2)
    else if recSt cur o = 4 then
      let w := recPut cur o 6
      let s := s2Put s r 0 w
      let (ok, s) := s2Load s r act
      (if ok then some (s2Run s act 2) else none, s, w, 1)
    else (none, s, cur, 0)
  match s1 with
  | (some x, _) => x
  | (none, s, w, n) =>
    let fresh (s : State) (n : Nat) (b : Bool) : State :=
      if none_ then s2Put s r n { active := b, stA := if b then 0 else 5, stB := if b then 5 else 0 } else s
    let (ok, s) := if recSt w act = 5 then s2Load s r act else (false, s)
    if ok then s2Run (fresh s n act) act 0
    else
      let bad := decide (recSt w act = 5)
      let w := if bad then recPut w act 6 else w
      let s := if bad then s2Put s r n w else s
      let n := if bad then n + 1 else n
      let (ok, s) := if recSt w o = 5 then s2Load s r o else (false, s)
      if ok then s2Run (if none_ then fresh s n o else s2Put s r n { w with active := o }) o 3
      else (false, { s with tbl := { s.tbl with origin := 4 } })

/-- The table store takes a command (R126, R463, R464): `f` runs it once S2 has reported, or has halted. -/
def tblCommand (s : State) (f : State → State) : State :=
  if !s.tbl.done then { s with tbl := { s.tbl with overrun := true } }
  else
    let s := { s with tbl := { s.tbl with overrun := false, detail := 0, status := .ok } }
    if 3 ≤ s.bup.reported || (s.bup.halted && s.bup.hcause == 4) then f s else { s with tbl := { s.tbl with status := .notReady } }

/-- A command ends at once with a status. -/
def tblAnswer (s : State) (r : Status) : State := { s with tbl := { s.tbl with status := r } }

/-- A command runs the steps on `SEC_*`. -/
def tblStart (s : State) (op : Nat) (slot : Bool) (l : List SecStep) : State :=
  match l with
  | [] => s
  | x :: _ => emit { s with tbl := { s.tbl with done := false, op := op, slot := slot, steps := l, work := [] } } (secOut s x)

/-- The slot is the running one, or `ACTIVE` (R464). -/
def slotInUse (s : State) (b : Bool) : Bool := (s.tbl.origin != 4 && s.tbl.runB == b) || s.tbl.rec_.active == b

/-- The steps that give a slot a state, none where it has it. -/
def stateSteps (s : State) (b : Bool) (n : Nat) : List SecStep :=
  if recSt s.tbl.rec_ b = n then [] else let r := recNext s (recPut s.tbl.rec_ b n); [.recErase r, .recWrite r]

/-- Slot operand: 0 A, 1 B. -/
def slotB (x : Fin 2) : Bool := x == 1

/-- `OP` of the commands (R463). -/
def tblWrite (b : Bool) (p : Nat) (s : State) : State :=
  if slotInUse s b then tblAnswer s .addrRange else tblStart s 0 b (.writePage b p :: stateSteps s b 1)

def tblRead (b : Bool) (p : Nat) (s : State) : State :=
  if slotInUse s b then tblAnswer s .addrRange else tblStart s 1 b [.readPage b p]

def tblVerify (b : Bool) (s : State) : State :=
  if slotInUse s b then tblAnswer s .addrRange
  else if recSt s.tbl.rec_ b = 1 ∨ recSt s.tbl.rec_ b = 2 ∨ recSt s.tbl.rec_ b = 6 then tblStart s 2 b [.load b 0]
  else tblAnswer s .notReady

def tblActivate (b : Bool) (s : State) : State :=
  if slotInUse s b then tblAnswer s .addrRange
  else if recSt s.tbl.rec_ b = 2 then tblStart s 3 b [.load b 0]
  else tblAnswer s .notReady

def tblConfirm (b : Bool) (s : State) : State :=
  if s.tbl.origin = 1 ∧ s.tbl.runB = b ∧ 8 ≤ s.bup.reported then
    let r := recNext s { recPut s.tbl.rec_ b 5 with active := b }
    tblStart s 4 b [.recErase r, .recWrite r, .svnAdvance (BitVec.ofNat 16 (regFld s (0xD0020 + if b then 8 else 0) 16 16))]
  else tblAnswer s .notReady

def tblErase (b : Bool) (s : State) : State :=
  if slotInUse s b then tblAnswer s .addrRange else tblStart s 5 b (.eraseSlot b 0 :: stateSteps s b 0)

/-- A write of `TBL_CMD` with one of its commands. -/
def tblStep (s : State) (f : State → State) : Step := mgStep s 0xD0000 0 (fun _ _ s => tblCommand s f)

def execTableWrite (slot : Fin 2) (page : Fin 1024) (s : State) : Step := tblStep s (tblWrite (slotB slot) page.val)
def execTableRead (slot : Fin 2) (page : Fin 1024) (s : State) : Step := tblStep s (tblRead (slotB slot) page.val)
def execTableVerify (slot : Fin 2) (s : State) : Step := tblStep s (tblVerify (slotB slot))
def execTableActivate (slot : Fin 2) (s : State) : Step := tblStep s (tblActivate (slotB slot))
def execTableConfirm (slot : Fin 2) (s : State) : Step := tblStep s (tblConfirm (slotB slot))
def execTableErase (slot : Fin 2) (s : State) : Step := tblStep s (tblErase (slotB slot))

/-- The command ends (R464): what `TBL_SLOT` reads after a WRITE or ERASE, and the result. -/
def tblEnd (s : State) (r : Status) (detail : Nat) : State :=
  let s := if (s.tbl.op = 0 ∨ s.tbl.op = 5) ∧ r = .ok then setSlotReg s s.tbl.slot none else s
  { s with tbl := { s.tbl with done := true, status := r, detail := detail, steps := [], work := [] } }

/-- The command goes on with the steps left. -/
def tblGo (s : State) (l : List SecStep) : State :=
  match l with
  | [] => tblEnd s s.tbl.status s.tbl.detail
  | x :: _ => emit { s with tbl := { s.tbl with steps := l } } (secOut s x)

/-- The check of the image loaded ends with a code of R458, 0 where it passes (R464). -/
def tblChecked (s : State) (d : Nat) (r : List SecStep) : State :=
  let b := s.tbl.slot
  if d ≠ 0 then
    let s := { s with tbl := { s.tbl with status := .badDesc, detail := d } }
    tblGo s (if s.tbl.op = 2 then stateSteps s b 1 else r)
  else if s.tbl.op = 2 then tblGo (setSlotReg s b (some s.tbl.work)) (stateSteps s b 2)
  else tblGo s (stateSteps s b 3)

/-- The bytes of a page's 1,024 words (R459). -/
def pageBytes (words : List (BitVec 32)) : List Byte :=
  (words.take 1024 ++ List.replicate (1024 - words.length) 0).flatMap (fun (w : BitVec 32) => leBytes 4 w.toNat)

/-- A page of the image under check has been read: its checks are made, or the next page follows, or VERIFY (R458). -/
def pageLoaded (s : State) (b : Bool) (p : Nat) (words : List (BitVec 32)) (f : ImageFacts) (r : List SecStep) : State :=
  let s := { s with tbl := { s.tbl with work := s.tbl.work ++ pageBytes words } }
  if p + 1 < imgPages s.tbl.work f.pages then tblGo s (.load b (p + 1) :: r)
  else
    let d := contentCheck s.tbl.work f
    if d ≠ 0 then tblChecked s d r else tblGo s (.verify b :: r)

/-- The security block acknowledges (R459, R464). In a check a failed READ is `DETAIL` 8, a VERIFY refused is 6 and one that fails otherwise 8. A
counter that is not advanced leaves a CONFIRM done, since its record is written and S2 repairs the counter (R465). Elsewhere every result but done acts as
a flash error (log 124). -/
def secAck (result : Nat) (words : List (BitVec 32)) (facts : ImageFacts) (s : State) : State :=
  match s.tbl.steps with
  | [] => s
  | .load b p :: r => if result ≠ 0 then tblChecked s 8 r else pageLoaded s b p words facts r
  | .verify _ :: r =>
    tblChecked s (if result = 1 then 6 else if result ≠ 0 then 8 else if imgSvn s.tbl.work < regFld s 0xD0030 0 16 then 7 else 0) r
  | .svnAdvance v :: r => tblGo (if result = 0 then regPut s 0xD0030 0 16 (max (regFld s 0xD0030 0 16) v.toNat) else s) r
  | x :: r =>
    if result ≠ 0 then tblEnd s .addrRange 0
    else match x with
    | .readPage _ _ =>
      tblGo ((List.range 512).foldl (fun s i =>
        regSet s (0xD1000 + i * 8) (mk 0 32 (words.getD (2 * i) 0).toNat ||| mk 32 32 (words.getD (2 * i + 1) 0).toNat)) s) r
    | .eraseSlot b p => tblGo s (if p < 1023 then .eraseSlot b (p + 1) :: r else r)
    | .recWrite y => tblGo (recTaken s y) r
    | _ => tblGo s r

def execSecAck (result : BitVec 2) (words : List (BitVec 32)) (facts : ImageFacts) (s : State) : Step :=
  run s (secAck result.toNat words facts)

/-- `TBL_RESULT` and `TBL_STATE` (R463). -/
def tblResult (s : State) : Word :=
  mkBit 63 s.tbl.done ||| mkBit 62 s.tbl.overrun ||| mk 32 16 (statusCode s.tbl.status) ||| mk 0 8 s.tbl.detail
def tblStateWord (s : State) : Word :=
  let r := s.tbl.rec_
  mk 32 32 r.seq.toNat ||| mkBit 31 s.tbl.runB ||| mk 28 3 s.tbl.origin ||| mkBit 27 r.active ||| mk 8 3 r.stA ||| mk 0 3 r.stB

end Sys2Proof.Machine
end

