-- ==== Sys2Proof/Machine/Tenants.lean ====
section
/-! DEFINITION. Tenant commands, the tenant registers, core-port binding and the share map (chapter 04; R296). -/

namespace Sys2Proof.Machine

/-- A command's answer in `HST_TNT_RESULT` (R125). -/
def tntResult (s : State) (st : Status) (flag : Bool) (index : Nat) (value : BitVec 32) : State :=
  { s with tnt := { s.tnt with result :=
      { till := cmdEnd s, overrun := false, flag := flag, index := index, status := st, value := value } } }

/-- A command written while another runs has no effect and sets OVERRUN (R126). -/
def tntCommand (s : State) (f : State → State) : State :=
  if cmdDone s s.tnt.result then f s else { s with tnt := { s.tnt with result := { s.tnt.result with overrun := true } } }

/-- The lowest-numbered FREE entry (R127). -/
def freeEntry (s : State) : Option Nat := (List.range 4096).find? (fun n => (tenantAt s n).isNone)

/-- ADMIT (R127). After a refused ADMIT INDEX is 0: R125 gives it for an entry allocated, found or inspected only (log 116). -/
def tntAdmit (tag : BitVec 16) (s : State) : State :=
  if tag = 0 then tntResult s .badDesc false 0 0
  else match tenantOf s tag with
  | some (n, _) => tntResult s .ok true n 0
  | none =>
    match freeEntry s with
    | none => tntResult s .tenantFull false 0 0
    | some n =>
      tntResult (setTenant s n (some { tag := tag, bucket := { t := 0, last := s.time }, ipol := { last := s.time } })) .ok false n 0

/-- A core port is bound to the entry (R127). -/
def portBound (s : State) (n : Nat) : Bool := stands.any (fun k => boundEntry s k == some n)

/-- A bank is owned by the tag (R127, R300). -/
def bankOwned (s : State) (tag : BitVec 16) : Bool :=
  stands.any (fun st => (List.range 34).any (fun b =>
    let o := ownReg s st.val b
    (ownKind o == 1 || ownKind o == 2 || ownKind o == 3) && ownTag o == tag))

/-- RETIRE (R127): refused while the entry is in use; else the entry is FREE and its rings close (R167). INDEX is
the entry that the command names: R125 does not name a RETIRE (log 116). -/
def retire (n : Nat) (s : State) : State :=
  match tenantAt s n with
  | none => tntResult s .addrRange false n 0
  | some t =>
    if portBound s n || bankOwned s t.tag || unfetched s n || incomplete s n || incompleteTag s t.tag then
      tntResult s .notReady false n 0
    else
      let s := match ctxGet s n with
        | some c => if c.isOpen then ringClosed s n c else s
        | none => s
      tntResult (setTenant s n none) .ok false n 0

/-- PEEK (R127): the host agent bucket at the time of the command. -/
def peek (n : Nat) (s : State) : State :=
  match tenantAt s n with
  | none => tntResult s .addrRange false n 0
  | some t => tntResult s .ok false n (BitVec.ofNat 32 (tokens (refill t.bucket t.rate t.burst s.time)))

/-- A tenant command through the management port: the register write that starts it (R125). -/
def tntCmdStep (s : State) (f : State → State) : Step := mgStep s 0x4100 0 (fun _ _ s => tntCommand s f)

def execTenantAdmit (tag : BitVec 16) (s : State) : Step := tntCmdStep s (tntAdmit tag)

def execTenantRetire (n : Fin 4096) (s : State) : Step := tntCmdStep s (retire n.val)

def execTenantPeek (n : Fin 4096) (s : State) : Step := tntCmdStep s (peek n.val)

/-- The share class of a tag (R131). -/
def shareOf (m : Word) (tag : BitVec 16) : Nat := fld m (4 * fld tag 12 4) 4

/-- The `TNT_SHAPE` register of an entry (R123). -/
def shapeImage (s : State) (n : Nat) : Word :=
  match tenantAt s n with
  | none => 0
  | some t => mkBit 63 true ||| mkBit 62 t.expOk ||| mk 58 4 (shareOf (regGet s 0x100) t.tag) |||
      mk 36 16 t.tag.toNat ||| mk 20 16 t.burst ||| mk 0 20 t.rate

/-- The RW bits of `TNT_SHAPE` and `TNT_POLICE` (R123). -/
def shapeRw : Word := mask 62 1 ||| mask 20 16 ||| mask 0 20
def policeRw : Word := mask 61 3 ||| mask 50 10 ||| mask 40 10 ||| mask 20 20 ||| mask 0 20

/-- The ports bound to an entry. -/
def boundPorts (s : State) (n : Nat) : List StandId := stands.filter (fun k => boundEntry s k == some n)

/-- Write of `TNT_SHAPE[n]`: every bucket of the entry is brought up to the write at the old values, then the new
ones apply; no effect on a FREE entry (R124, R139). -/
def shapeWrite (n : Nat) (wm v : Word) (s : State) : State :=
  match tenantAt s n with
  | none => s
  | some t =>
    let w := merge (shapeRw &&& wm) (shapeImage s n) v
    let pb := (boundPorts s n).foldl (fun b k => cmod {} b k.val (fun x => refill x t.rate t.burst s.time)) s.tnt.portBkt
    let t' := { t with bucket := refill t.bucket t.rate t.burst s.time, expOk := bitAt w 62, burst := fld w 20 16, rate := fld w 0 20 }
    setTenant { s with tnt := { s.tnt with portBkt := pb } } n (some t')

/-- The hall ports' meters of an entry brought up to now, or filled. -/
def hallMeters (t : Tenant) (old new : Word) (fill : Bool) (now : Nat) : Tbl Meter :=
  (List.range 8).foldl (fun tb h => cmod {} tb h (fun m => if fill then fullMeter new now else refillMeter m old now)) t.hpol

/-- Write of `TNT_POLICE[n]`: a meter being enabled is filled; an enabled one keeps its counts under R139 (R143). -/
def policeWrite (n : Nat) (wm v : Word) (s : State) : State :=
  match tenantAt s n with
  | none => s
  | some t =>
    let w := merge (policeRw &&& wm) t.police v
    let fillI := bitAt w 63 && !bitAt t.police 63
    let fillH := bitAt w 62 && !bitAt t.police 62
    let upd (m : Meter) : Meter := if fillI then fullMeter w s.time else refillMeter m t.police s.time
    let pm := (boundPorts s n).foldl (fun tb k => cmod {} tb k.val upd) s.tnt.portMtr
    setTenant { s with tnt := { s.tnt with portMtr := pm } } n
      (some { t with police := w, ipol := upd t.ipol, hpol := hallMeters t t.police w fillH s.time })

def execTenantShapeWrite (n : Fin 4096) (v : Word) (s : State) : Step := mgStep s (0xA0000 + n.val * 16) v (shapeWrite n.val)

def execTenantPoliceWrite (n : Fin 4096) (v : Word) (s : State) : Step := mgStep s (0xA0000 + n.val * 16 + 8) v (policeWrite n.val)

/-- Write of `STD_CP_TENANT`: VALID with a FREE entry is refused; a change of binding empties the bucket, fills the
meter, and a different tag starts the zeroing of mailbox and general memory (R130, R296). -/
def bindWrite (st : StandId) (wm v : Word) (s : State) : State :=
  let off := stdOff st 0x1C0
  let old := regGet s off
  let new := merge ((mask 63 1 ||| mask 0 12) &&& wm) old v
  let valid := bitAt new 63
  let n := fld new 0 12
  match (if valid then tenantAt s n else none) with
  | none =>
    if valid then refuseWrite s off
    else
      let w := put 16 16 0 new
      let changed := bitAt old 63
      let s := regSet s off w
      if changed then
        { s with tnt := { s.tnt with portBkt := cset {} s.tnt.portBkt st.val { t := 0, last := s.time } }
                 slice := { s.slice with zeroing := cset false s.slice.zeroing st.val true } }
      else s
  | some t =>
    let w := put 16 16 t.tag.toNat new
    let changed := !bitAt old 63 || fld old 0 12 ≠ n || fld old 16 16 ≠ t.tag.toNat
    let newTag := !bitAt old 63 || fld old 16 16 ≠ t.tag.toNat
    let s := regSet s off w
    let s := if changed then
        { s with tnt := { s.tnt with
            portBkt := cset {} s.tnt.portBkt st.val { t := 0, last := s.time }
            portMtr := cset {} s.tnt.portMtr st.val (fullMeter t.police s.time) } }
      else s
    if newTag then { s with slice := { s.slice with zeroing := cset false s.slice.zeroing st.val true } } else s

def execCorePortBindWrite (st : StandId) (v : Word) (s : State) : Step := mgStep s (stdOff st 0x1C0) v (bindWrite st)

/-- The zeroing ends: mailbox and general memory hold clean zeros; release block, shadows and a ring context area keep
their contents (R296). -/
def dpZeroed (st : Nat) (s : State) : State :=
  let zero (s : State) (lo hi : Nat) : State :=
    let b := regFld s 0x4000 17 2 * 0x20000
    if decide (st ∈ centreTaps) then
      let s := if lo < b then zeroDp s st lo (min hi b - lo) else s
      if b + 0x20000 < hi then zeroDp s st (max lo (b + 0x20000)) (hi - max lo (b + 0x20000)) else s
    else zeroDp s st lo (hi - lo)
  zero (zero s 0 0xFC00) 0x10800 0x80000

def execDpZeroComplete (st : StandId) (s : State) : Step :=
  run s fun s =>
    if cget false s.slice.zeroing st.val then
      let s := dpZeroed st.val s
      { s with slice := { s.slice with zeroing := cset false s.slice.zeroing st.val false } }
    else s

/-- Write of `GLB_SHARE_MAP`: it reaches every stand over the rhizome (R131; log 10: at once). -/
def shareMapSet (wm v : Word) (s : State) : State :=
  let s := regWritePlain wm 0x100 v s
  let w := regGet s 0x100
  sendRhz { s with mesh := { s.mesh with
    shareMap := stands.foldl (fun t st => cset 0xFEDCBA9876543210 t st.val w) s.mesh.shareMap } } (.shareMap w)

def execShareMapWrite (v : Word) (s : State) : Step := mgStep s 0x100 v shareMapSet

end Sys2Proof.Machine
end

