-- ==== Sys2Proof/Machine/BringUp.lean ====
section
/-! DEFINITION. Bring-up: the stages and their reports, the memory test, the re-test of a released stand, STAGE records (R387, R423,
R436 to R449). -/

namespace Sys2Proof.Machine

/-- The stage that runs, or that halted; 7 in service (R449). -/
def stageNo (s : State) : Nat := min 7 s.bup.reported

/-- A bring-up that goes on: `FAB_PORST_N` is high and no stage has halted. -/
def stageRuns (s : State) (k : Nat) : Bool := decide (s.bup.reported = k) && !s.bup.halted

/-- A STAGE record (R448). -/
def stageRecord (status : Status) (tag : Nat) (smask : List StandId) (hcause durUs det0 det1 : Nat) : List Byte :=
  leBytes 1 3 ++ leBytes 1 0 ++ leBytes 2 (statusCode status) ++ leBytes 4 tag ++
  leBytes 6 (smask.foldl (fun m st => m + 2 ^ st.val) 0) ++ leBytes 1 hcause ++ leBytes 1 0 ++ leBytes 4 (min (2 ^ 32 - 1) durUs) ++
  leBytes 2 det0 ++ leBytes 2 det1 ++ leBytes 4 0xFFFFFFFF ++ leBytes 4 0

/-- Keep a STAGE record in its four registers (R449). -/
def keepRecord (s : State) (off : Nat) (r : List Byte) : State :=
  (List.range 4).foldl (fun s i => regSet s (off + i * 8) (BitVec.ofNat 64 (leAt r (i * 8) 8))) s

/-- The record that four registers hold. -/
def keptRecord (s : State) (off : Nat) : List Byte := (List.range 4).flatMap (fun i => leBytes 8 (regGet s (off + i * 8)).toNat)

/-- A STAGE record goes to the ring of `NENTRY`, where `NEN` is 1 and its rings are open (R448). -/
def notifyRing (s : State) (r : List Byte) : State :=
  let n := regFld s 0x2100 48 12
  if regBit s 0x2100 63 && ringsOpen s n then unsolicited s n r else s

/-- The records of every stage already reported go to the ring, in stage order (R448). -/
def notifyAll (s : State) : State :=
  let n := regFld s 0x2100 48 12
  (List.range (s.bup.reported + if s.bup.halted then 1 else 0)).foldl (fun s k => unsolicited s n (keptRecord s (0x2200 + k * 32))) s

/-- A write of `BUP_CTL` (R448, R449). -/
def bupCtlWrite (wm v : Word) (s : State) : State :=
  let was := regBit s 0x2100 63
  let s := regWritePlain wm 0x2100 v s
  if !was && regBit s 0x2100 63 && ringsOpen s (regFld s 0x2100 48 12) then notifyAll s else s

def execBupNotifyEnable (v : Word) (s : State) : Step := mgStep s 0x2100 v bupCtlWrite

/-- OPEN of an entry's rings; those of `NENTRY` then take the records of the stages reported (R167, R448). -/
def ringOpenRow (n : Nat) (s : State) : State :=
  let was := ringsOpen s n
  let s := ringOpenCmd n s
  if !was && ringsOpen s n && regBit s 0x2100 63 && regFld s 0x2100 48 12 == n then notifyAll s else s

def execRingOpen (n : Fin 4096) (s : State) : Step := mgStep s 0x4040 0 (fun _ _ s => ringCommand s (ringOpenRow n.val))

/-- The stage that runs reports, and the next begins (R439, R448); none begins after S7, which `BUP_STAGE` goes on to name (R449). -/
def stageReported (s : State) (det0 det1 : Nat) : State :=
  let k := s.bup.reported
  let r := stageRecord .ok (0xFFFFFE00 + k) s.bup.gone 0 ((s.time - s.bup.startAt) / 1000) det0 det1
  let s := notifyRing (keepRecord s (0x2200 + k * 32) r) r
  { s with bup := { s.bup with reported := k + 1, startAt := if k < 7 then s.time else s.bup.startAt, gone := [], det0 := 0, det1 := 0 } }

/-- The stage that runs halts bring-up (R441, R443). -/
def stageHalt (s : State) (cause loc : Nat) : State :=
  let k := s.bup.reported
  let r := stageRecord .notReady (0xFFFFFE00 + k) s.bup.gone cause ((s.time - s.bup.startAt) / 1000) 0 0
  let s := { s with bup := { s.bup with halted := true, hcause := cause, hloc := loc } }
  notifyRing (keepRecord s (0x2200 + k * 32) r) r

/-- A stage girdles a stand (R441, R442). -/
def stageGirdle (s : State) (st : StandId) : State :=
  if girdled s st.val then s else girdleUnit { s with bup := { s.bup with gone := s.bup.gone ++ [st] } } (.stand st)

/-- 20 µs into S1 every stand that is not alive is girdled (R439). -/
def livenessDeadline (s : State) : State :=
  if stageRuns s 1 then
    let u := advanceTo s (s.bup.startAt + 20000)
    let t := (stands.filter (fun st => !alive u st.val)).foldl stageGirdle u
    advanceTo (sameGirdles t (settle t)) (s.bup.startAt + 20000)
  else s

def execS1LivenessDeadline (s : State) : Step := run s livenessDeadline

/-- `GLB_GRADE` from the manufacture record: a fenced port fences its whole site (R492). -/
def gradeWord (fsite : BitVec 12) (fport : BitVec 48) : Word :=
  let sites := (List.range 12).filter (fun i => bitAt fsite i || (sitePorts i).any (bitAt fport))
  mkBit 63 true ||| sites.foldl (fun w i => w ||| mkBit (48 + i) true ||| (sitePorts i).foldl (fun w k => w ||| mkBit k true) 0) 0

/-- S1: the manufacture record (R22, R441, R492); from its report on the ports resynchronise (R370, R375), and S2 begins with the version counter and
the two record copies (R459, R461). -/
def stage1 (s : State) (r : StageReport) : State :=
  match r.manuf with
  | none => stageHalt s 2 0
  | some (fsite, fport) =>
    let s := regSet s 0x8 (gradeWord fsite fport)
    if 2 < popcount (BitVec.ofNat 12 (regFld s 0x8 48 12)) then stageHalt s 3 0
    else ([.sec 4 [], .sec 0 [0], .sec 0 [1]] : List Out).foldl emit (stands.foldl (fun s k => resyncStart s k) (stageReported s 0 0))

/-- `STD_SLC_CTL.MODE` of every stand, as the bring-up engine sets it (R314). -/
def setModes (s : State) (m : Nat) : State := stands.foldl (fun s st => regPut s (stdOff st 0x7A0) 0 2 m) s

/-- S2: the table set (R441, R462); S3 begins with every slice in TEST. -/
def stage2 (s : State) (r : StageReport) : State :=
  let (ok, s) := s2Choose s r
  if ok then setModes (stageReported s 0 0) 1 else stageHalt s 4 0

/-- What a failed self-test leaves in `STD_BUP_RES`: the failing unit and its plane (R449). -/
def selftestWord (f : BitVec 4 × BitVec 2) : Word := mkBit 63 true ||| mk 59 4 f.1.toNat ||| mk 57 2 f.2.toNat

/-- S3: stands that fail their self-test are girdled (R441); S4 begins with bridge training (R386), and with the margin test, after which the
request is at its last code, 56 (R439). -/
def stage3 (s : State) (r : StageReport) : State :=
  let s := r.s3fail.foldl (fun s f =>
    let s := regSet s (stdOff f.1 0x380) (selftestWord f.2)
    stageGirdle (raise s cSelftestFail f.1.val 0 0) f.1) s
  let s := stageReported s 0 0
  let s := { s with pwr := { s.pwr with vfab := 56 } }
  (List.range 64).foldl (fun s i =>
    if mayTrain s (i / 16) (i % 16) && decide ((modAt s (i / 16) (i % 16)).state = .down) then trainStart s (i / 16) (i % 16) else s) s

/-- `PDIE` of the trained edges, with `ROW`; none is TOPO (R387). -/
def dieShape (s : State) : Option (Nat × Bool) :=
  let e := trainedEdges s
  let row := rowShape s
  let others := (List.range 4).any (fun k => (partners s k).any (fun x => x.row != row))
  if others then none
  else match e with
  | 0 => some (0, false)
  | 6 => some (0, false)
  | 12 => some (1, false)
  | 3 => some (2, false)
  | 9 => some (3, false)
  | _ => if row then (ownWcount s).map (fun n => (n, true)) else none

/-- Every edge is held DOWN under TOPO (R386, R387). -/
def topoHold (s : State) : State :=
  let s := { s with brg := { s.brg with topo := true } }
  let s := (List.range 64).foldl (fun s i =>
    if modExists (i / 16) (i % 16) && decide ((modAt s (i / 16) (i % 16)).state ≠ .down) then modGone s (i / 16) (i % 16) .down else s) s
  raise s cTopo locFault 0 0

/-- A direction of a plane-link that carried the margin test fails it: any bit error at 0.70 V, more than 16 at 0.68 V (R439, R441). -/
def marginBad (s : State) (l : Fin 328 × Fin 2 × Nat × Nat) : Bool :=
  !linkGirdled s l.1.val && !girdled s (linkFrom l.1.val 0) && !girdled s (linkTo l.1.val 0) && (decide (0 < l.2.2.1) || decide (16 < l.2.2.2))

/-- S4, no earlier than the 2 ms of its margin test: plane-links with a direction that fails are girdled, with an event at the receiving end of
each (R407, R431; log 123), the die's position is fixed, the dual-port regions are released (R387, R441, R445, R447); S5 begins. -/
def stage4 (s : State) (r : StageReport) : State :=
  let s := advanceTo s (s.bup.startAt + 2000000)
  let bad := r.links.filter (marginBad s)
  let links := (bad.map (fun l => l.1)).eraseDups
  let s := bad.foldl (fun s l =>
    let a := linkFrom l.1.val l.2.1.val
    let b := linkTo l.1.val l.2.1.val
    let s := raise s cCruise b (meshSub (l.1.val % 4) ((dirTo b a).getD 0)) (BitVec.ofNat 64 (l.2.2.1 + l.2.2.2))
    girdleUnit s (.link l.1)) s
  let failed := ((List.range 64).filter (fun i => modExists (i / 16) (i % 16) && decide ((modAt s (i / 16) (i % 16)).state = .failed))).length
  let s := match dieShape s with
    | some (n, row) => regPut (regPut s 0x18 0 2 n) 0x18 2 1 (if row then 1 else 0)
    | none => topoHold s
  let s := (stands.filter (fun st => !girdled s st.val)).foldl (fun s st => dpZeroed st.val s) s
  let s := stageReported s links.length failed
  { s with bup := { s.bup with tier := 0, sphase := 0, quick := regBit s 0x2100 0, passes := 0, waiting := [], failed := [],
                               away := stands.filter (fun st => girdled s st.val) } }

/-- The banks of a tier: sixteen service banks, and its spare (R444). -/
def tierBanks (t : Nat) : List Nat := ((List.range 16).map (fun b => t * 16 + b))
def tierSpare (t : Nat) : Nat := 32 + t

/-- A pause of the retention test in ns (R444). -/
def pauseNs (s : State) : Nat := if s.bup.quick then 9500000000 else 88000000000

/-- A bank that S5 tests: its stand is not girdled, and it is not in service already, as those of a stand re-tested meanwhile are (R442, R444). -/
def underTest (s : State) (st b : Nat) : Bool := !girdled s st && !ownReleased (ownReg s st b)

/-- The banks of a tier under test go into retention for it, or come back (R444). -/
def tierRetain (s : State) (t : Nat) (on : Bool) : State :=
  stands.foldl (fun s st => ((tierBanks t ++ [tierSpare t]).filter (underTest s st.val)).foldl (fun s b =>
    setRet s st.val b (if on then rRetained else rActive) false) s) s

/-- The march phase of a tier is complete: its banks are written and placed in retention (R444). While `PWR_DROOP_WARN` is asserted the
march repeats. -/
def marchComplete (s : State) : State :=
  if stageRuns s 5 && s.bup.sphase == 0 && !s.pwr.warnPin then
    tierRetain { s with bup := { s.bup with sphase := 1, passes := 0, pauseEnd := s.time + pauseNs s } } s.bup.tier true
  else s

def execMemoryTestMarchComplete (s : State) : Step := run s marchComplete

/-- A retention pause ends: the banks wake and are read; the second pass follows with the inverse (R444). -/
def pauseEnds (s : State) : State :=
  if stageRuns s 5 && s.bup.sphase == 1 then
    let s := advanceTo s s.bup.pauseEnd
    let n := s.bup.passes + 1
    if n < 2 then { s with bup := { s.bup with passes := n, pauseEnd := s.time + pauseNs s } }
    else tierRetain { s with bup := { s.bup with passes := n, sphase := 2 } } s.bup.tier false
  else s

def execMemoryTestRetentionPauseEnd (s : State) : Step := run s pauseEnds

/-- A bank is marked as failed in `STD_BUP_RES.BFAIL`, or as passed (R449). -/
def markBank (s : State) (st : StandId) (b : Nat) (bad : Bool) : State :=
  regSet s (stdOff st 0x380) (setBit (regGet s (stdOff st 0x380)) (14 + b) bad)

/-- What a bank's owner register keeps over a test: `TSTALE` where an entry names it as its twin, which a new fill alone clears (R310). -/
def keptStale (s : State) (st bank : Nat) : Word := mkBit 60 (ownTstale (ownReg s st bank) && (entryOfTwin s st bank).isSome)

/-- A bank is released: FREE, ACTIVE, `RELEASED` 1 (R301, R445). -/
def releaseBank (s : State) (st bank : Nat) : State := regSet s (ownOff st bank) (mkBit 63 true ||| keptStale s st bank)

/-- The first spare that a failed bank may take, in the order of R445: some spare with whether it has been tested. -/
def repairSpare (s : State) (st : Nat) : Option (Nat × Nat × Bool) :=
  (((st :: List.range 48).flatMap (fun t => [(t, 32), (t, 33)])).find? (fun p =>
    !girdled s p.1 && !s.bup.failed.any (fun f => f.1.val == p.1 && f.2 == p.2) && !namedByOther s 1536 p.1 p.2)).map
    (fun p => (p.1, p.2, decide (p.2 < 32 + s.bup.tier) || decide (p.2 = 32 + s.bup.tier)))

/-- An entry is LOST (R445). -/
def entryLost (s : State) (n : Nat) : State :=
  let s := coppiceApply s n (put 33 2 2 (coppice s n))
  { s with bup := { s.bup with det1 := s.bup.det1 + 1 } }

/-- A failed service bank is repaired onto a spare, waits for the next tier, or its entry is LOST (R445). -/
def repairBank (s : State) (st : StandId) (bank : Nat) : State :=
  match entryOfPrimary s st.val bank with
  | none => s
  | some n => match repairSpare s st.val with
    | none => entryLost s n
    | some (ts, tb, tested) =>
      if tested then
        let s := releaseBank (coppiceApply s n (put 8 6 tb (put 0 6 ts (coppice s n)))) ts tb
        { s with bup := { s.bup with det0 := s.bup.det0 + 1 } }
      else { s with bup := { s.bup with waiting := s.bup.waiting ++ [(st, bank)] } }

/-- A tier of the memory test reports (R445): its failed banks are repaired, the entries on a stand that was girdled before S5 are LOST, its passed
banks are released. -/
def tierReport (fails : List (StandId × Fin 34)) (s : State) : State :=
  if stageRuns s 5 && s.bup.sphase == 2 then
    let t := s.bup.tier
    let mine := fails.filter (fun f => underTest s f.1.val f.2.val && (decide (f.2.val / 16 = t) || decide (f.2.val = tierSpare t)))
    let bad (st : StandId) (b : Nat) : Bool := mine.any (fun f => decide (f.1 = st) && f.2.val == b)
    let s := mine.foldl (fun s f => markBank s f.1 f.2.val true) s
    let old := if t = 0 then [] else s.bup.waiting
    let s := { s with bup := { s.bup with
      failed := s.bup.failed ++ ((mine.filter (fun f => f.2.val == tierSpare t)).map (fun f => (f.1, f.2.val))), waiting := [] } }
    let todo := old ++ stands.flatMap (fun st => ((tierBanks t).filter (bad st)).map (fun b => (st, b)))
    let s := todo.foldl (fun s p => repairBank s p.1 p.2) s
    let s := ((List.range 1536).filter (fun n => copState (coppice s n) == 1 && s.bup.away.any (fun st => st.val == copPStand (coppice s n)) &&
      (decide (copPBank (coppice s n) / 16 = t) || decide (copPBank (coppice s n) = tierSpare t)))).foldl entryLost s
    let s := stands.foldl (fun s st =>
      ((tierBanks t).filter (fun b => !bad st b && underTest s st.val b)).foldl (fun s b => releaseBank s st.val b) s) s
    { s with bup := { s.bup with tier := if t = 0 then 1 else t, sphase := if t = 0 then 0 else 3 } }
  else s

def execMemoryTestTierReport (fails : List (StandId × Fin 34)) (s : State) : Step := run s (tierReport fails)

/-- S5 reports: the spares that no entry names are released (R445), and the slices leave TEST (R314). S6 begins, whose last point is `VMAX` (R452). -/
def stage5 (s : State) : State :=
  if s.bup.sphase ≠ 3 then s
  else
    let s := (stands.filter (fun st => !girdled s st.val)).foldl (fun s st =>
      [32, 33].foldl (fun s b =>
        if s.bup.failed.any (fun f => decide (f.1 = st) && f.2 == b) || ownReleased (ownReg s st.val b) then s
        else releaseBank s st.val b) s) s
    let s := stands.foldl (fun s st => if regFld s (stdOff st 0x7A0) 0 2 = 1 then regPut s (stdOff st 0x7A0) 0 2 0 else s) s
    let s := stageReported s s.bup.det0 s.bup.det1
    { s with pwr := { s.pwr with vfab := regFld s 0x2010 24 8 } }

/-- `OFS`: the largest of canary pace less reference pace over the three points, rounded up to 0.01 GHs (R452), and kept within its 8 bits (log 123). -/
def offsetOf (m : S6Meas) : Int :=
  let d (c r : Nat) : Int := (c : Int) - (r : Int)
  let x := max (d m.c60 m.r60) (max (d m.c70 m.r70) (d m.cMax m.rMax))
  max (-128) (min 127 (-((-x) / 100)))

/-- S6: the offsets of the stands that were measured, and those whose reference pace at `VMAX` is below 1.60 GHs (R441, R452). -/
def stage6 (s : State) (r : StageReport) : State :=
  let s := (r.s6.filter (fun f => !girdled s f.1.val)).foldl (fun s f =>
    let s := regPut s (stdOff f.1 0x388) 48 8 (ofSigned 8 (offsetOf f.2))
    if f.2.rMax < 16000 then
      let s := regPut s (stdOff f.1 0x380) 56 1 1
      stageGirdle (raise s cBelowFloor f.1.val 0 0) f.1
    else s) s
  stageReported s 0 0

/-- S0: rails (R441); S1 begins with the READ of the manufacture record (R439, R459). -/
def stage0 (s : State) (r : StageReport) : State :=
  match r.railBad with
  | some st => stageHalt s 1 st.val
  | none => emit (stageReported s 0 0) (.sec 6 [])

/-- A stage completes, or halts bring-up (R439, R441). `elapsed` is the time it took, in ns. -/
def stageReport (r : StageReport) (s : State) : State :=
  if s.bup.halted || decide (8 ≤ s.bup.reported) then s
  else
    let s := advanceTo s (s.bup.startAt + r.elapsed)
    match s.bup.reported with
    | 0 => stage0 s r
    | 1 => stage1 s r
    | 2 => stage2 s r
    | 3 => stage3 s r
    | 4 => stage4 s r
    | 5 => stage5 s
    | 6 => stage6 s r
    | _ => stageReported s 0 0

def execBringupStageReport (r : StageReport) (s : State) : Step := runMsg s (stageReport r)

/-- A released stand is back: its girdle ends, its links hold nothing, its dual-port region is zero, its objects are undefined, its port
resynchronises, its neighbours have heard of it (R86, R324, R423, R445). -/
def standBack (s : State) (st : StandId) : State :=
  let s := unapplied (setGirdle s (.stand st) false) (.stand st)
  let s := (List.range 4).foldl (fun s d => match linkOf st.val d with
    | some l => planes.foldl (fun s pl => linkBack s (l * 4 + pl.val)) s
    | none => s) s
  let s := dpZeroed st.val (regPut (regPut s (stdOff st 0x7A0) 0 2 0) (stdOff st 0x380) 57 7 0)
  let s := syncLeave s st.val
  let s := (watchers s st.val).foldl (fun s p =>
    { s with flt := { s.flt with
        heard := cset 0 (cset 0 s.flt.heard (nbrKey p.1 p.2) s.time) (nbrKey st.val ((p.2 + 2) % 4)) s.time,
        silent := oset (oset s.flt.silent (nbrKey p.1 p.2) none) (nbrKey st.val ((p.2 + 2) % 4)) none } }) s
  fabricReset s st

/-- The quick test of a released stand's banks: failed ones are repaired or lost, the others are released (R423, R445). -/
def retestBanks (s : State) (st : StandId) (bad : List (Fin 34)) : State :=
  let isBad (b : Nat) : Bool := bad.any (fun f => f.val == b)
  let s := (List.range 34).foldl (fun s b => markBank s st b (isBad b)) s
  let s := { s with bup := { s.bup with
    failed := s.bup.failed.filter (fun f => decide (f.1 ≠ st)) ++ (([32, 33].filter isBad).map (fun b => (st, b))), det0 := 0, det1 := 0 } }
  let s := ((List.range 34).filter (fun b => !isBad b)).foldl (fun s b => releaseBank s st.val b) s
  let s := ((List.range 34).filter isBad).foldl (fun s b => regSet s (ownOff st.val b) (keptStale s st.val b)) s
  ((List.range 34).filter isBad).foldl (fun s b => repairBank { s with bup := { s.bup with tier := 1 } } st b) s

/-- The re-test of a released stand is done (R423, R448): `fail` is the unit that failed its self-test, with the plane of a router (R449). -/
def retestDone (st : StandId) (fail : Option (BitVec 4 × BitVec 2)) (bad : List (Fin 34)) (s : State) : State :=
  match s.bup.retest.find? (fun p => decide (p.1 = st)) with
  | none => s
  | some (_, t) =>
    let s := { s with bup := { s.bup with retest := s.bup.retest.filter (fun p => decide (p.1 ≠ st)) } }
    let finish (s : State) (status : Status) (d0 d1 : Nat) : State :=
      let r := stageRecord status (0xFFFFFD00 + st.val) [] 0 ((s.time - t) / 1000) d0 d1
      notifyRing (keepRecord s (0x2300 + st.val * 32) r) r
    match fail with
    | none =>
      let b := s.bup
      let s := retestBanks (standBack s st) st bad
      let d := (s.bup.det0, s.bup.det1)
      finish { s with bup := { s.bup with tier := b.tier, det0 := b.det0, det1 := b.det1 } } .ok d.1 d.2
    | some f =>
      let s := regPut s (stdOff st 0x380) 57 7 (fld (selftestWord f) 57 7)
      finish (raise s cSelftestFail st.val 0 0) .notReady 0 0

def execStandRetestComplete (st : StandId) (failed : Option (BitVec 4 × BitVec 2)) (bankFails : List (Fin 34)) (s : State) : Step :=
  runMsg s (retestDone st failed bankFails)

/-- The banks released on the die (R449). -/
def releasedBanks (s : State) : Nat :=
  (s.regs.filter (fun p => bitAt p.2 63 && (match standWindow p.1 with | some (_, o) => inArray o 0x680 34 8 | none => false))).length

/-- `BUP_STAGE` and `BUP_S5` (R449). -/
def bupStage (s : State) : Word :=
  mk 61 3 (stageNo s) ||| mkBit 60 s.bup.halted ||| mk 56 4 s.bup.hcause ||| mk 48 8 (2 ^ s.bup.reported - 1) ||| mk 32 6 s.bup.hloc |||
    mk 0 32 (s.bup.startAt / 1024)
def bupS5 (s : State) : Word :=
  mk 62 2 s.bup.sphase ||| mk 61 1 s.bup.tier ||| mkBit 60 s.bup.quick ||| mk 32 16 (releasedBanks s) |||
    mk 0 32 (if s.bup.sphase = 1 then (s.bup.pauseEnd - s.time) / 1000000 else 0)

end Sys2Proof.Machine
end

