-- ==== Sys2Proof/Machine/Pace.lean ====
section
/-! DEFINITION. The pace loop and the supply: canaries, the request on `PWR_VREQ`, its conditions, droop, heat, brown-out (R430, R437,
R450 to R456). -/

namespace Sys2Proof.Machine

/-- `STD_CANARY` of a stand (R453). -/
def canaryOff (st : Nat) : Nat := stdOff (standOf st) 0x388

/-- A stand is in the pace loop (R450): a stand whose canary failed S3 is girdled (R441). -/
def inLoop (s : State) (st : Nat) : Bool := !girdled s st

/-- The calibrated pace of a stand: canary less `OFS` (R453). -/
def calibrated (pace ofs : Nat) : Nat := min 255 (Int.toNat ((pace : Int) - toSigned 8 ofs))

/-- A stand's `VDD_SLC` below 0.50 V, code 20: what its banks retain is undefined (R456). -/
def retainedLost (s : State) (st : StandId) (c : Canary) : State :=
  if c.vslc.toNat < 20 then
    ((List.range 34).filter (fun b => ownRstate (ownReg s st.val b) == 2)).foldl (fun s b => bankLost s st.val b) s
  else s

/-- A canary's reading is kept (R453). -/
def keepReading (s : State) (st : StandId) (c : Canary) : State :=
  let off := canaryOff st.val
  let pace := calibrated c.pace.toNat (regFld s off 48 8)
  let s := regPut (regPut s off 56 8 pace) off 16 8 (min pace (regFld s off 16 8))
  regPut (regPut (regPut s off 40 8 c.vfab.toNat) off 32 8 c.vslc.toNat) off 24 8 c.tj.toNat

/-- The pace p of the slowest stand in the loop, and that stand (R450). -/
def slowest (s : State) : Nat × Nat :=
  ((List.range 48).filter (inLoop s)).foldl (fun (b : Nat × Nat) st =>
    let p := regFld s (canaryOff st) 56 8
    if p < b.1 then (p, st) else b) (255, s.pwr.slowest)

/-- The target less a droop derate (R450, R454). -/
def loopTarget (s : State) : Nat :=
  let t := if 7 ≤ s.bup.reported then paceTarget s else 160
  if s.pwr.droop then max 160 (t - regFld s 0x2000 16 8) else t

/-- VMAX and VMIN (R453). -/
def vMax (s : State) : Nat := regFld s 0x2010 24 8
def vMin (s : State) : Nat := regFld s 0x2010 16 8

/-- An entry of the PACE curve of the table set that runs: the pace at a request code (R457). -/
def paceEntry (s : State) (v : Nat) : Nat := leAt (sectionOf s.tbl.image 2) (2 * v) 2

/-- `slope(v)`: the pace gained from code v to the next, at least 1 (R450, R457). -/
def slopeAt (s : State) (v : Nat) : Nat := max 1 (paceEntry s (v + 1) - paceEntry s v)

/-- The `VDD_FAB` request that a stage sets: the margin test of S4, 1 ms at code 60 and 1 ms at 56 (R439), and the points of S6 (R450, R452;
log 123). -/
def stageRequest (s : State) : Option Nat :=
  let t := s.time - s.bup.startAt
  if stageRuns s 4 then (if t < 1000000 then some 60 else if t < 2000000 then some 56 else none)
  else if stageRuns s 6 then some (([60, 70, vMax s] : List Nat).getD (Config.testPoint s.time).val 60)
  else none

/-- The requests on `PWR_VREQ` (R437, R450): in the march of S5 `VDD_SLC` is at 0.70, 0.75 or 0.80 V (R444; log 123). -/
def vfabNow (s : State) : Nat := if s.pwr.safe then s.pwr.vfab else (stageRequest s).getD s.pwr.vfab
def vslcNow (s : State) : Nat :=
  if stageRuns s 5 && s.bup.sphase == 0 && !s.pwr.safe then ([60, 70, 80] : List Nat).getD (Config.testPoint s.time).val 60 else s.pwr.vslc

/-- The request after a period (R450): held before S4, in a test that sets it, from COMMIT until the exit starts (R342), in the safe state and
while the rail lags. -/
def nextRequest (s : State) (p sp : Nat) : Nat :=
  let v := s.pwr.vfab
  if s.bup.reported < 4 ∨ (stageRequest s).isSome ∨ s.dorm.phase = .entering ∨ s.dorm.phase = .dormant ∨ s.pwr.safe ∨ s.pwr.lag then v
  else if p < sp then min (vMax s) (v + min 4 ((sp - p + slopeAt s v - 1) / slopeAt s v))
  else if sp + 2 < p ∧ !s.pwr.droop then max (vMin s) (v - 1)
  else v

/-- MARGIN (R451): counted by stand, set after 4 periods, cleared after 4 periods with every stand at or above sp. -/
def marginStep (s : State) (sp : Nat) : State :=
  if s.bup.reported < 4 then s
  else
    let l := (List.range 48).filter (inLoop s)
    let low (st : Nat) : Bool := decide (regFld s (canaryOff st) 56 8 < sp)
    let cnt := l.foldl (fun t st => cset 0 t st (if low st then min 4 (cget 0 t st + 1) else 0)) s.pwr.marginN
    let off := if l.any low then 0 else min 4 (s.pwr.marginOff + 1)
    let hit := l.find? (fun st => cget 0 cnt st == 4)
    let s := { s with pwr := { s.pwr with marginN := cnt, marginOff := off } }
    match hit with
    | some st => if s.pwr.margin then s else raise { s with pwr := { s.pwr with margin := true } } cMargin st 0 0
    | none => if off = 4 then { s with pwr := { s.pwr with margin := false } } else s

/-- BELOW (R451): 2 periods below 160 outside dormancy, which lasts from COMMIT until the exit is complete (R343), cleared by 2 at or above it. -/
def belowStep (s : State) (p st : Nat) : State :=
  if dormHeld s then s
  else
    let on := if p < 160 then min 2 (s.pwr.belowOn + 1) else 0
    let off := if p < 160 then 0 else min 2 (s.pwr.belowOff + 1)
    let s := { s with pwr := { s.pwr with belowOn := on, belowOff := off } }
    if on = 2 ∧ !s.pwr.below then raise { s with pwr := { s.pwr with below := true } } cBelowFloor st 0 0
    else if off = 2 then { s with pwr := { s.pwr with below := false } }
    else s

/-- LAG (R451): a stand's measured rail more than 4 codes below the request for 10 µs, cleared when all are within 2. Every stand counts whose
rail the loop knows: those in the loop, and any other that this period reads. -/
def lagStep (s : State) (readings : List (StandId × Canary)) : State :=
  let l := (List.range 48).filter (fun st => inLoop s st || readings.any (fun r => r.1.val == st))
  let rail (st : Nat) : Nat := regFld s (canaryOff st) 40 8
  let v := vfabNow s
  let at_ : Tbl (Option Nat) := (List.range 48).foldl (fun t st => oset t st
    (if l.contains st && decide (rail st + 4 < v) then some ((oget s.pwr.lagAt st).getD s.time) else none)) []
  let due := l.any (fun st => match oget at_ st with | some t => decide (t + 10000 ≤ s.time) | none => false)
  let near := l.all (fun st => decide (v ≤ rail st + 2) && decide (rail st ≤ v + 2))
  { s with pwr := { s.pwr with lagAt := at_, lag := due || (s.pwr.lag && !near) } }

/-- One period of the pace loop (R450, R451). -/
def paceStep (readings : List (StandId × Canary)) (s : State) : State :=
  let s := advanceTo s (s.pwr.stepAt + 1000)
  let s := readings.foldl (fun s r => keepReading (retainedLost s r.1 r.2) r.1 r.2) s
  let (p, st) := slowest s
  let sp := loopTarget s + regFld s 0x2000 32 8
  let v := nextRequest s p sp
  let s := { s with pwr := { s.pwr with p := p, slowest := st, sp := sp, vfab := v, stepAt := s.time, limit := (stageRequest s).getD v == vMax s && decide (p < sp) } }
  lagStep (belowStep (marginStep s sp) p st) readings

def execPaceStep (readings : List (StandId × Canary)) (s : State) : Step := run s (paceStep readings)

/-- `PWR_DROOP_WARN` rises (R454). While the die is dormant it has no effect. -/
def droopWarn (s : State) : State :=
  if s.pwr.warnPin then s
  else
    let s := { s with pwr := { s.pwr with warnPin := true } }
    if s.dorm.phase = .dormant then s
    else raise { s with pwr := { s.pwr with droop := true } } cDroop locPace 0 0

def execPwrDroopWarnAssert (s : State) : Step := runPin s (fun s => { s with pwr := { s.pwr with warnPin := true } }) droopWarn

/-- `PWR_DROOP_WARN` falls: the 10 µs of R454 begin. -/
def droopFalls (s : State) : State :=
  if s.pwr.warnPin then { s with pwr := { s.pwr with warnPin := false, fellAt := s.time } } else s

def execPwrDroopWarnDeassert (s : State) : Step := runPin s (fun s => { s with pwr := { s.pwr with warnPin := false } }) droopFalls

/-- Droop handling ends 10 µs after the fall (R454). -/
def droopEnds (s : State) : State :=
  if s.pwr.droop && !s.pwr.warnPin then
    let s := advanceTo s (s.pwr.fellAt + 10000)
    { s with pwr := { s.pwr with droop := false } }
  else s

def execDroopHandlingEnd (s : State) : Step := run s droopEnds

/-- What BROWNOUT and CRITICAL add to the safe state of R433 (R456): retention on every released bank that is not FREE, `VBOOT` on both
rails. -/
def safeSupply (s : State) : State :=
  let v := regFld s 0x2010 32 8
  let s := { s with pwr := { s.pwr with safe := true, vfab := v, vslc := v } }
  (List.range (48 * 34)).foldl (fun s i =>
    let o := ownReg s (i / 34) (i % 34)
    if ownReleased o && ownKind o != 0 then retSet s (i / 34) (i % 34) else s) s

/-- A stand's junction temperature reaches a threshold, or falls 5 °C below TWARN (R455). -/
def thermal (st : StandId) (tj : BitVec 8) (s : State) : State :=
  let t := toSigned 8 tj.toNat
  let s := regPut s (canaryOff st.val) 24 8 tj.toNat
  let warn := (regFld s 0x2018 56 8 : Int)
  let crit := (regFld s 0x2018 48 8 : Int)
  let s := if warn ≤ t then
      (if cget false s.pwr.hot st.val then s else raise { s with pwr := { s.pwr with hot := cset false s.pwr.hot st.val true } } cWarn st.val 0 0)
    else if t ≤ warn - 5 then { s with pwr := { s.pwr with hot := cset false s.pwr.hot st.val false } }
    else s
  if crit ≤ t then
    (if cget false s.pwr.crit st.val then s
    else safeSupply (raise { s with pwr := { s.pwr with crit := cset false s.pwr.crit st.val true } } cCritical st.val 0 0))
  else { s with pwr := { s.pwr with crit := cset false s.pwr.crit st.val false } }

def execThermalThreshold (st : StandId) (tj : BitVec 8) (s : State) : Step := run s (thermal st tj)

/-- A stand, girdled or not, measures a rail below its brown-out limit for 20 ns (R456). -/
def brownout (st : StandId) (s : State) : State := safeSupply (raise s cBrownout st.val 0 0)

def execBrownout (st : StandId) (s : State) : Step := run s (brownout st)

/-- `LSTATE` (R453). -/
def lstate (s : State) : Nat :=
  if s.pwr.safe then 5
  else if s.dorm.phase = .dormant then 4
  else if s.bup.reported < 5 then 0
  else if s.pwr.limit then 3
  else if s.bup.reported < 7 then 1
  else 2

/-- `PWR_STATUS` (R453). -/
def pwrStatus (s : State) : Word :=
  let p := s.pwr
  mk 61 3 (lstate s) ||| mkBit 60 p.droop ||| mkBit 59 p.margin ||| mkBit 58 p.below ||| mkBit 57 p.lag ||| mk 40 8 (vfabNow s) ||| mk 32 8 (vslcNow s) |||
    mk 24 8 p.p ||| mk 16 6 p.slowest ||| mk 8 8 p.sp

/-- The hottest stand and its TJ in `PWR_THERM` (R453): of every stand, by what its canary block last told. -/
def hottest (s : State) : Nat × Nat :=
  (List.range 48).foldl (fun (b : Nat × Nat) st =>
    let t := regFld s (canaryOff st) 24 8
    if toSigned 8 b.2 < toSigned 8 t then (st, t) else b) (0, regFld s (canaryOff 0) 24 8)

end Sys2Proof.Machine
end

