-- ==== Sys2Proof/Machine/Views.lean ====
section
/-! DEFINITION. What every register of the set-up window reads at this moment (chapter 17): stored registers, and the registers
whose fields live in the units. -/

namespace Sys2Proof.Machine

/-- `FLT_SUMMARY`, `FLT_EVQ` and `FLT_FATAL` (R415, R434). -/
def fltSummary (s : State) : Word := mk 48 16 s.flt.nFatal ||| mk 32 16 s.flt.nCont ||| mk 0 32 s.flt.nCorr
def fltEvq (s : State) : Word := mk 32 16 s.flt.drops ||| mk 16 11 s.flt.fifo.length ||| mk 0 16 s.flt.merges
def fltFatal (s : State) : Word :=
  mkBit 62 s.flt.hb ||| mkBit 61 s.flt.hbRun |||
  (match s.flt.fatal with
  | none => 0
  | some r => mkBit 63 true ||| mk 52 4 r.family.val ||| mk 44 8 r.cause.val ||| mk 37 7 r.loc.toNat ||| mk 0 32 (r.time / 1024))

/-- `FLT_RING_CTL` and `FLT_RING_HEAD` (R414). -/
def ringCtlWord (s : State) : Word := mkBit 63 s.flt.ringEn ||| mk 0 32 s.flt.ringTail.toNat
def ringHeadWord (s : State) : Word := mk 0 32 s.flt.ringHead.toNat

/-- `HST_TNT_RESULT` and `HST_RING_RESULT` (R125, R166). -/
def tntResultWord (s : State) (r : CmdResult) : Word :=
  mkBit 63 (cmdDone s r) ||| mkBit 62 r.overrun ||| mkBit 61 r.flag ||| mk 48 12 r.index ||| mk 32 16 (statusCode r.status) ||| mk 0 32 r.value.toNat
def ringResultWord (s : State) (r : CmdResult) : Word :=
  mkBit 63 (cmdDone s r) ||| mkBit 62 r.overrun ||| mkBit 61 r.flag ||| mk 32 16 (statusCode r.status) ||| mk 0 32 r.value.toNat

/-- The ACTIVE entries: `HST_TNT_COUNT` (R125). -/
def activeCount (s : State) : Nat := (s.tnt.entries.filter (fun p => p.2.isSome)).length

/-- `STD_CP_SHAPER` (R129): the port's bucket brought up to this moment. -/
def shaperWord (s : State) (k : StandId) : Word :=
  let b := cget {} s.tnt.portBkt k.val
  let b := match (boundEntry s k).bind (tenantAt s) with | some t => refill b t.rate t.burst s.time | none => b
  mk 0 32 (tokens b)

/-- `BRG_EDGE` and `BRG_MOD` (R402). -/
def mstateNo : MState → Nat
  | .down => 0 | .training => 1 | .hello => 2 | .up => 3 | .retrain => 4 | .failed => 5
def edgeUps (s : State) (e : Nat) : Nat :=
  ((List.range (edgeMods e)).filter (fun m => decide ((modAt s e m).state = .up))).foldl (fun w m => w + 2 ^ m) 0
def edgeStateNo (s : State) (e : Nat) : Nat :=
  let l := (List.range (edgeMods e)).map (fun m => (modAt s e m).state)
  if s.brg.topo then 4
  else if l.all (fun x => decide (x = .up)) then 2
  else if l.any (fun x => decide (x = .up)) then 3
  else if l.any (fun x => decide (x = .training ∨ x = .hello ∨ x = .retrain)) then 1
  else 0
def edgeWord (s : State) (e : Nat) : Word :=
  mk 61 3 (edgeStateNo s e) ||| mkBit 60 (sbUp s e) ||| (regGet s (0xB0010 + e * 8) &&& mask 32 16) ||| mk 0 16 (edgeUps s e)
def modWord (s : State) (e m : Nat) : Word :=
  mk 61 3 (mstateNo (modAt s e m).state) ||| (regGet s (0xB0100 + e * 0x80 + m * 8) &&& mask 0 56)

/-- `OBS_DUMP_CTL` and `OBS_TRC_PTR` (R478, R482). -/
def dumpNo : DumpPhase → Nat
  | .idle => 0 | .freezing => 1 | .capturing => 2 | .frozen => 3
def dumpCtlWord (s : State) : Word := mk 60 3 (dumpNo s.obs.dump) ||| mkBit 59 s.obs.refused ||| mk 0 32 s.obs.durUs
def trcPtrWord (s : State) : Word := mk 32 32 s.obs.wr.toNat ||| mk 0 32 (regFld s 0xC0028 0 32)

/-- The offsets of the tallies of R467. -/
def isTallyOff (off : Nat) : Bool :=
  inArray off 0xC0100 2 8 || inArray off 0xC0140 4 8 || inArray off 0xC0180 4 8 || inArray off 0xC1000 384 8 ||
  inArray off 0xC2000 656 8 || inArray off 0xC3800 128 8 || inArray off 0xC3C00 16 8

/-- The girdle register of an offset, of either alias (R419): 0 stands, 1 ports, 2 to 7 plane-links. -/
def girdleReg (off : Nat) : Option (Nat × Bool) :=
  match (List.range 8).find? (fun r => girdleOff r == off) with
  | some r => some (r, false)
  | none => ((List.range 8).find? (fun r => girdleRelOff r == off)).map (fun r => (r, true))
def girdleWord (s : State) (reg : Nat) : Word :=
  match reg with
  | 0 => BitVec.ofNat 64 s.map.gstand.toNat
  | 1 => BitVec.ofNat 64 s.map.gport.toNat
  | n => mk 0 64 (fld s.map.glink ((n - 2) * 64) 64)

/-- A register of a stand window (R498): a double-banked one is read from the bank that `VIEW` selects (R101). -/
def stdLive (s : State) (st : StandId) (o : Nat) : Word :=
  let off := stdOff st o
  if inArray o 0x200 48 8 || (decide (0x800 ≤ o) && decide (o < 0x1000)) then
    bkGet s (if regBit s (stdOff st 0) 0 then parity s else !parity s) off
  else if o = 0x1C8 then shaperWord s st
  else if o = 0x1D8 then cpStatus s st
  else if o = 0x7C0 then put 63 1 (if rawDone s st then 1 else 0) (regGet s off)
  else if o = 0x388 then put 0 1 (if inLoop s st.val && decide (4 ≤ s.bup.reported) then 1 else 0) (regGet s off)
  else if inArray o 0x1000 512 8 then chanRole (regGet s (stdOff st (o - o % 32))) (o % 32 / 8) &&& regGet s off
  else if inArray o 0x518 8 32 then cmbStatus (cmbAt s st.val ((o - 0x518) / 32))
  else regGet s off

/-- A register of `GLB_` (R494). -/
def glbLive (s : State) (off : Nat) : Word :=
  if off = 0x88 then epochStatus s
  else if off < 0x200 then regGet s off
  else if off < 0x400 then bkGet s (!parity s) off
  else if off < 0x600 then bkGet s (parity s) (off - 0x200)
  else if inArray off 0x800 64 8 then groupReg s ((off - 0x800) / 8)
  else if off = 0xA28 then dormStatus s
  else regGet s off

/-- A register of `FLT_`, `PWR_`, `BUP_` and `HST_` (R495). -/
def fltLive (s : State) (off : Nat) : Word :=
  match off with
  | 0x1000 => fltSummary s
  | 0x1008 => fltFatal s
  | 0x1020 => fltEvq s
  | 0x1030 => ringCtlWord s
  | 0x1038 => ringHeadWord s
  | 0x1050 => contHalf s (regFld s 0x1048 0 16)
  | 0x1060 => evPopWord s 0
  | 0x1068 => evPopWord s 1
  | 0x1070 => evPopWord s 2
  | 0x1078 => evPopWord s 3
  | 0x2008 => pwrStatus s
  | 0x2018 => let h := hottest s; (regGet s off &&& mask 48 16) ||| mk 32 6 h.1 ||| mk 24 8 h.2
  | 0x2108 => bupStage s
  | 0x2110 => bupS5 s
  | 0x4048 => ringResultWord s s.host.ringRes
  | 0x4108 => tntResultWord s s.tnt.result
  | 0x4110 => mk 0 13 (activeCount s)
  | _ => regGet s off

/-- A register of `SYN_`, `BAR_` and `TNT_` (R319, R332, R123). -/
def arrayLive (s : State) (off : Nat) : Word :=
  if off < 0x90000 then
    let n := (off - 0x80000) / 16
    if off % 16 = 8 then synCtlWord s n else synObjWord (syncObj s n)
  else if off < 0xA0000 then
    let b := barAt s ((off - 0x90000) / 32)
    match off % 32 with
    | 0 => barMaskWord b
    | 8 => barCtlWord b
    | _ => BitVec.ofNat 64 b.arrived.toNat
  else
    let n := (off - 0xA0000) / 16
    if off % 16 = 8 then (match tenantAt s n with | some t => t.police | none => 0) else shapeImage s n

/-- A register of `BRG_` and `HAL_` (R402, R403). -/
def canopyLive (s : State) (off : Nat) : Word :=
  if inArray off 0xB0010 4 8 then edgeWord s ((off - 0xB0010) / 8)
  else if inArray off 0xB0100 64 8 then let i := (off - 0xB0100) / 8; modWord s (i / 16) (i % 16)
  else if inArray off 0xB8100 8 0x40 then hallStatus s ((off - 0xB8100) / 0x40)
  else regGet s off

/-- A register of `MAP_` (R497). -/
def mapLive (s : State) (off : Nat) : Word :=
  if off < 0xE3000 then coppice s ((off - 0xE0000) / 8)
  else if off = 0xE4200 then mkBit 0 (decide (s.epoch.phase = .copying))
  else match girdleReg off with
  | some (r, _) => girdleWord s r
  | none =>
    match tierAt off with
    | some (act, t, n) => bkGet s (if act then parity s else !parity s) (tierOff false t n)
    | none => 0

/-- A register of `OBS_` and `TBL_` but `OBS_DUMP_DATA` (R467, R478, R482, R463). -/
def obsLive (s : State) (off : Nat) : Word :=
  match off with
  | 0xC0008 => s.obs.snapTime
  | 0xC0028 => trcPtrWord s
  | 0xC0800 => dumpCtlWord s
  | 0xD0008 => tblResult s
  | 0xD0010 => tblStateWord s
  | _ => if isTallyOff off && regBit s 0xC0000 61 then cget 0 s.obs.snap off else regGet s off

/-- What the register at an offset reads; 0 where none stands (R9). -/
def regLive (s : State) (off : Nat) : Word :=
  match regInfo off with
  | none => 0
  | some _ =>
    match standWindow off with
    | some (st, o) => stdLive s st o
    | none =>
      if off < 0x1000 then glbLive s off
      else if off < 0x20000 then fltLive s off
      else if off < 0xB0000 then arrayLive s off
      else if off < 0xC0000 then canopyLive s off
      else if off < 0xE0000 then obsLive s off
      else mapLive s off

end Sys2Proof.Machine
end

