-- ==== Sys2Proof/Machine/Obs.lean ====
section
/-! DEFINITION. Tallies, trace and dumps: the snapshot, the trace buffer and its drops, the dump and its capture areas (R467 to
R487). -/

namespace Sys2Proof.Machine

/-- The offsets of every tally (R467). -/
def tallyOffs : List Nat :=
  (List.range 2).map (fun i => 0xC0100 + i * 8) ++ (List.range 4).map (fun i => 0xC0140 + i * 8) ++
  (List.range 4).map (fun i => 0xC0180 + i * 8) ++ (List.range 384).map (fun i => 0xC1000 + i * 8) ++
  (List.range 656).map (fun i => 0xC2000 + i * 8) ++ (List.range 128).map (fun i => 0xC3800 + i * 8) ++
  (List.range 16).map (fun i => 0xC3C00 + i * 8)

/-- A snapshot of every tally in one instant; it replaces the one before (R468, R469). -/
def takeSnapshot (s : State) : State :=
  let snap := tallyOffs.foldl (fun t off => cset 0 t off (regGet s off)) []
  sendRhz { s with obs := { s.obs with snap := snap, snapTime := BitVec.ofNat 64 s.time } } .snapshot

/-- The entries of a bank list that break the rules of R480 for a `KIND`: not VALID, not RELEASED, of another KIND, or on a
girdled stand; and two that name the same bank. -/
def bankListBad (s : State) (base n kind : Nat) : Bool :=
  let e (i : Nat) : Word := regGet s (base + i * 8)
  let bad (i : Nat) : Bool :=
    let st := fld (e i) 8 6
    let b := fld (e i) 0 6
    !bitAt (e i) 63 || decide (48 ≤ st) || decide (34 ≤ b) || girdled s st ||
      !ownReleased (ownReg s st b) || ownKind (ownReg s st b) != kind
  (List.range n).any (fun i => bad i || (List.range i).any (fun j => fld (e i) 0 14 == fld (e j) 0 14))

/-- `NBANK` (R478). -/
def trcBanks (s : State) : Nat := regFld s 0xC0020 60 4

/-- A write that would set `TRC_EN` is refused (R480). -/
def traceRefused (s : State) : Bool :=
  !(trcBanks s == 1 || trcBanks s == 2 || trcBanks s == 4 || trcBanks s == 8) || bankListBad s 0xC0040 (trcBanks s) 4

/-- A write of `OBS_CTL` (R468, R480): a refused start leaves the whole write without effect. The records that sources still hold when trace
ends are discarded, and a MARK whose record is one of them completes (R473; log 70). -/
def obsCtl (wm v : Word) (s : State) : State :=
  let was := regBit s 0xC0000 63
  let on := bitAt (regNext s wm 0xC0000 v) 63
  if on && !was && traceRefused s then refuseWrite s 0xC0000
  else
    let s := if bitAt (v &&& wm) 62 then takeSnapshot s else s
    let s := regWritePlain wm 0xC0000 v s
    if on && !was then
      sendRhz (regPut { s with obs := { s.obs with wr := 0 } } 0xC0028 0 32 0) (.traceOn true)
    else if was && !on then
      let held := s.obs.hold
      let s := sendRhz { s with obs := { s.obs with hold := [], srcDrop := [] } } (.traceOn false)
      held.foldl (fun s p => p.2.foldl (markDone p.1) s) s
    else s

def execTallySnapshot (v : Word) (s : State) : Step := mgStep s 0xC0000 v (settled obsCtl)

/-- The same write as the row TRACE_ENABLE. -/
def traceCtl (wm v : Word) (s : State) : State := obsCtl wm v s

def execTraceEnable (v : Word) (s : State) : Step := mgStep s 0xC0000 v (settled traceCtl)

/-- The buffer's capacity in records (R479). -/
def trcCap (s : State) : Nat := trcBanks s * 65536

/-- Records in the buffer: `WR` − `RD` modulo 2^32. -/
def trcFill (s : State) : Nat := (s.obs.wr - BitVec.ofNat 32 (regFld s 0xC0028 0 32)).toNat

/-- A write of `OBS_TRC_PTR`: a new `RD` no further than `WR` (R479). -/
def trcPtr (wm v : Word) (s : State) : State :=
  let old := BitVec.ofNat 32 (regFld s 0xC0028 0 32)
  let new := BitVec.ofNat 32 (fld (regNext s wm 0xC0028 v) 0 32)
  if (new - old).toNat ≤ trcFill s then regPut s 0xC0028 0 32 new.toNat else s

def execTraceReadPointerWrite (v : Word) (s : State) : Step := mgStep s 0xC0028 v trcPtr

/-- A record enters the unit's staging of 512, a LOSS record before it where the unit has dropped records (R476, R481). -/
def stageRecordIn (s : State) (r : List Byte) : State :=
  let drop (s : State) : State := dropTrace { s with obs := { s.obs with unitDrop := s.obs.unitDrop.more s.time r } }
  let put1 (s : State) (r : List Byte) : State :=
    { s with obs := { s.obs with stage := s.obs.stage ++ [r], stageAt := if s.obs.stage.isEmpty then s.time else s.obs.stageAt } }
  if 512 ≤ s.obs.stage.length then drop s
  else
    let d := s.obs.unitDrop
    if d.n = 0 then put1 s r
    else
      let s := put1 { s with obs := { s.obs with unitDrop := {} } } (lossRecord d.since 49 d.n 1)
      if 512 ≤ s.obs.stage.length then drop s else put1 s r

/-- The tally and trace unit stages the oldest record of a source, or drops it, and the MARK whose record it is completes (R473, R476, R481). With
`CAP` 0 no record leaves its source (R477). -/
def traceReceive (srcu : Nat) (s : State) : State :=
  match cget [] s.obs.hold srcu with
  | [] => s
  | r :: q =>
    if s.obs.dump ≠ .idle ∨ obsCap s = 0 then s
    else markDone srcu (stageRecordIn { s with obs := { s.obs with hold := cset [] s.obs.hold srcu q } } r) r

def execTraceRecordReceive (srcu : BitVec 8) (s : State) : Step := runMsg s (traceReceive srcu.toNat)

/-- The stand, bank and byte of record index `w` in a buffer of `c` records (R479). -/
def trcPlace (s : State) (c w : Nat) : Nat × Nat × Nat :=
  let i := w % c
  let e := regGet s (0xC0040 + i / 65536 * 8)
  (fld e 8 6, fld e 0 6, i % 65536 * 32)

/-- Whether the record at `WR` has a place: the buffer is not full and the record's bank is not girdled (R479, R480). -/
def trcRoom (s : State) : Bool :=
  decide (trcFill s < trcCap s) && !girdled s (trcPlace s (trcCap s) s.obs.wr.toNat).1

/-- Write a record at `WR` (R479). -/
def trcPut (s : State) (r : List Byte) : State :=
  let (st, b, byte) := trcPlace s (trcCap s) s.obs.wr.toNat
  let s := (bankTouch s st b true).2
  let s := storeWord s st b (byte / 32) r
  let s := { s with obs := { s.obs with wr := s.obs.wr + 1 } }
  if leAt r 8 1 = tkLoss then regCount s 0xC0030 0 32 1 else s

/-- One staged record is written, or dropped at the buffer; drops at the buffer are reported as the first record written after space
returns (R480, R481). A record whose index falls in a girdled bank is dropped, and its index is passed over. -/
def trcWrite (s : State) (r : List Byte) : State :=
  let drop (s : State) : State :=
    let s := dropTrace { s with obs := { s.obs with bufDrop := s.obs.bufDrop.more s.time r } }
    if trcFill s < trcCap s then { s with obs := { s.obs with wr := s.obs.wr + 1 } } else s
  if trcCap s = 0 then dropTrace s
  else if !trcRoom s then drop s
  else
    let d := s.obs.bufDrop
    if d.n = 0 then trcPut s r
    else
      let s := trcPut { s with obs := { s.obs with bufDrop := {} } } (lossRecord d.since 49 d.n 2)
      if trcRoom s then trcPut s r else drop s

/-- The records at `n` places of the buffer from index `w`, all in one bank, travel to it on VC 6 as one WRITE (R83, R476). -/
def trcSend (s : State) (w n : Nat) : State :=
  let (st, b, byte) := trcPlace s (trcCap s) w
  if n = 0 ∨ girdled s st then s
  else inject s .trace (unitStand s .trace) (innerMsg s .trace (planeOf 0) opWrite vcBackground st (memBytes s st b byte (n * 32)))

/-- The unit writes up to 128 records, a LOSS record of the buffer among them: when 128 are staged, or 10 µs after the oldest arrived
(R476, R481). -/
def trcFlush (s : State) : State :=
  if s.obs.stage.isEmpty || decide (s.obs.dump ≠ .idle) then s
  else
    let s := if s.obs.stage.length < 128 then advanceTo s (s.obs.stageAt + 10000) else s
    let k := if s.obs.bufDrop.n = 0 then 128 else 127
    let l := s.obs.stage.take k
    let s := { s with obs := { s.obs with stage := s.obs.stage.drop k, stageAt := s.time } }
    let w := s.obs.wr.toNat
    let s := l.foldl trcWrite s
    let n := (s.obs.wr - BitVec.ofNat 32 w).toNat
    let a := min n (65536 - w % 65536)
    trcSend (trcSend s w a) (w + a) (n - a)

def execTraceStagingFlush (s : State) : Step := run s trcFlush

/-- A write of `OBS_DUMP_CTL` with `GO` (R482, R483). -/
def dumpCtl (wm v : Word) (s : State) : State :=
  if !bitAt (v &&& wm) 63 then s
  else if s.obs.dump ≠ .idle || bankListBad s 0xC0840 7 5 then
    refuseWrite { s with obs := { s.obs with refused := true } } 0xC0800
  else sendRhz { s with obs := { s.obs with dump := .freezing, refused := false, dumpAt := s.time, areas := [] } } .freeze

def execDumpGo (v : Word) (s : State) : Step := mgStep s 0xC0800 v dumpCtl

/-- Signed numbers of 4 bytes in a capture area (R485). -/
def int4 (i : Int) : List Byte := leBytes 4 (ofSigned 32 i)

/-- The credits an output VC holds: those of the facing input on this die, or across the edge (R485). -/
def heldCredits (s : State) (st pl outp vc : Nat) : Nat :=
  match outwardEdge st outp with
  | some e => (edgeVc s e (if e = 0 ∨ e = 2 then sx st else sy st) pl vc).credits
  | none => (cget {} s.mesh.outs ((st * 4 + pl) * 6 + outp)).credits.getD vc 0

/-- The 168 bytes of an output's arbitration state (R485). -/
def outBytes (x : OutPort) : List Byte :=
  (List.range 8).flatMap (fun v => leBytes 4 (x.deficit.getD v 0)) ++
  leBytes 1 x.cur ++ [if x.fresh then 1 else 0] ++ leBytes 1 (x.hist.filter id).length ++ List.replicate 5 0 ++
  (List.range 16).flatMap (fun c => int4 (x.sh0.sdef.getD c 0)) ++ (List.range 16).flatMap (fun c => int4 (x.sh1.sdef.getD c 0))

/-- The 8 bytes of an input VC's state (R485). -/
def inBytes (s : State) (st i : Nat) : List Byte :=
  let k := st * 192 + i
  let x := cget ({} : InVc) s.mesh.inv k
  leBytes 8 (min 15 x.q.length + (if x.skip then 16 else 0) + (if x.opened.isSome then 32 else 0) + (if cget false s.mesh.audit (k / 8) then 64 else 0))

/-- The pieces of the input queues of a stand: 80 bytes an entry, for the fronds held (R485). -/
def queuePieces (s : State) (st : Nat) : List (Nat × List Byte) :=
  (List.range 192).flatMap (fun i =>
    let q := (cget ({} : InVc) s.mesh.inv (st * 192 + i)).q
    (List.range (min 8 q.length)).filterMap (fun k =>
      (q[k]?).map (fun x => (0x1100 + (i * 8 + k) * 80, leBytes 16 x.f.stem.toNat ++ leBytes 64 x.f.payload.toNat))))

/-- The 16 bytes of a receive-table entry (R485). -/
def recvBytes (e : RecvEntry) : List Byte :=
  let k := e.key.src.toNat + e.key.unit.toNat * 2 ^ 26 + (if e.key.impl then 2 ^ 29 else 0) + e.key.chan.toNat * 2 ^ 30 + e.key.plane.val * 2 ^ 42
  leBytes 6 k ++ leBytes 2 e.e.toNat ++ leBytes 4 e.rmask.toNat ++ leBytes 4 (e.last / 1024)

/-- The receive table of a stand (R485). -/
def recvPieces (s : State) (st : StandId) : List (Nat × List Byte) :=
  let l := ((cget [] s.trans.recv st.val).filter (fun e => decide (s.time < e.last + ms8_4))).take 4096
  (List.range l.length).filterMap (fun i => (l[i]?).map (fun e => (0x20000 + i * 16, recvBytes e)))

/-- A source flow with messages unacknowledged, 16 bytes (R485). -/
def flowBytes (k : Nat) (u : SrcUnit) (f : Flow) : Option (List Byte) :=
  match f.win.filter (fun c => !c.acked) with
  | [] => none
  | c :: r => some (leBytes 1 (unitCode u).toNat ++ leBytes 1 (k / 4096 % 2) ++ leBytes 2 (k % 4096) ++ leBytes 2 f.next.toNat ++
      leBytes 2 c.m.seq.toNat ++ leBytes 1 (r.length + 1) ++ leBytes 1 c.m.plane.val ++ List.replicate 6 0)

/-- The source flows of a stand's port, mover, reducer and hub (R485). -/
def flowPieces (s : State) (st : StandId) : List (Nat × List Byte) :=
  let us := [SrcUnit.port st, .mover st, .reducer st, .hub st]
  let l := (s.trans.flows.filterMap (fun p =>
    (us.find? (fun u => unitNo u == p.1 / 8192)).bind (fun u => flowBytes p.1 u p.2))).take 2048
  (List.range l.length).filterMap (fun i => (l[i]?).map (fun b => (0x30000 + i * 16, b)))

/-- The core port's part (R485): the layout of its `RID` and `TID` entries is open, so their bytes are free (log 4); the command-queue
slots hold their descriptors. -/
def portPieces (s : State) (st : StandId) : List (Nat × List Byte) × State :=
  let (rids, s) := drawBytes s 2048
  let (tids, s) := drawBytes s 512
  let slots := (List.range 16).flatMap (fun j =>
    match (oget s.port.slots (st.val * 16 + j)).bind (fun id => oget s.host.descs id) with
    | some d => sub d.raw 0 64
    | none => List.replicate 64 0)
  ([(0x38000, rids), (0x38800, slots), (0x38C00, tids), (0x38E00, leBytes 8 (cpStatus s st).toNat)], s)

/-- The content of a stand's area after its header (R485). -/
def standPieces (s : State) (st : StandId) : List (Nat × List Byte) × State :=
  let (pp, s) := portPieces s st
  ([(0x40, (List.range 192).map (fun i => BitVec.ofNat 8 (heldCredits s st.val (i / 48) (i / 8 % 6) (i % 8)))),
    (0x100, (List.range 24).flatMap (fun i => outBytes (cget {} s.mesh.outs (st.val * 24 + i)))),
    (0x1F100, (List.range 192).flatMap (inBytes s st.val))] ++
   queuePieces s st.val ++ recvPieces s st ++ flowPieces s st ++ pp, s)

/-- The host agent's state of an entry, 32 bytes (R485). -/
def entryBytes (s : State) (n : Nat) : List Byte :=
  match ctxGet s n with
  | none => List.replicate 32 0
  | some c =>
    let fly := (s.host.descs.filter (fun p => match p.2 with
      | some d => decide (d.acc = .ring ⟨n % 4096, Nat.mod_lt _ (by decide)⟩) && decide (d.phase ≠ .complete)
      | none => false)).length
    leBytes 4 c.sqTail ++ leBytes 4 c.sqHead ++ leBytes 4 c.cqTail ++ leBytes 4 c.cqHead ++ leBytes 4 c.resv ++ leBytes 4 fly ++
      [if c.isOpen then 1 else 0] ++ List.replicate 7 0

/-- The tenant entries of which the host agent holds state: the ACTIVE ones, and those of which a byte of a context is listed (R168, R485). The
contexts of all others read 0. -/
def ctxEntries (s : State) : List Nat :=
  let base := regFld s 0x4000 17 2 * 0x20000
  let kept := s.slice.mem.filterMap (fun p =>
    (centreTaps.findIdx? (fun t => decide (memKey t dpBank base ≤ p.1) && decide (p.1 < memKey t dpBank (base + 0x20000)))).map (fun i =>
      let r := p.1 - memKey (centreTaps.getD i 19) dpBank base
      r % 0x10000 / 64 * 4 + (i + 4 - r / 0x10000) % 4))
  (s.tnt.entries.filterMap (fun p => if p.2.isSome then some p.1 else none) ++ kept).eraseDups

/-- The content of area 48 after its header (R485). -/
def diePieces (s : State) : List (Nat × List Byte) :=
  [(0x40, leBytes 8 (epochStatus s).toNat), (0x48, leBytes 8 (drainSums s).1), (0x50, leBytes 8 (drainSums s).2),
   (0x100, leBytes 8 (fltEvq s).toNat ++ leBytes 8 (fltFatal s).toNat)] ++
  (ctxEntries s).map (fun n => (0x1000 + n * 32, entryBytes s n))

/-- The 64-byte header of an area (R485). -/
def areaHeader (s : State) (a : Nat) (gone : Bool) : List Byte :=
  leBytes 4 0x41445A49 ++ leBytes 1 a ++
  leBytes 1 ((if gone then 2 else 1) + (if fatalLatched s then 4 else 0)) ++ leBytes 2 0 ++ leBytes 8 s.time ++
  leBytes 4 s.epoch.epoch.toNat ++ leBytes 1 (match s.epoch.phase with | .idle => 0 | .flipping => 1 | .draining => 2 | .copying => 3) ++
  List.replicate 43 0

/-- The stand, bank and byte of an area (R485). -/
def areaPlace (s : State) (a : Nat) : Nat × Nat × Nat :=
  let e := regGet s (0xC0840 + a / 8 * 8)
  (fld e 8 6, fld e 0 6, a % 8 * 0x40000)

/-- Write an area: 256 KiB of clean words, 0 but for its pieces (R485). -/
def writeArea (s : State) (a : Nat) (l : List (Nat × List Byte)) : State :=
  let (st, b, byte) := areaPlace s a
  let s := (bankTouch s st b true).2
  let s := clearRange s st b byte 0x40000
  l.foldl (fun s p => putBytes s st b (byte + p.1) p.2) s

/-- FREEZE reaches a stand or the die-wide units: movement stops and the capture area goes to its place; when all are written the
state is CAPTURING (R483, R485). A girdled stand has an area without content. -/
def freezeUnit (a : Nat) (s : State) : State :=
  if s.obs.dump ≠ .freezing ∨ a ∈ s.obs.areas then s
  else
    let gone := decide (a < 48) && girdled s a
    let (l, s) := if gone then ([], s) else if a < 48 then standPieces s (standOf a) else (diePieces s, s)
    let s := writeArea s a ((0, areaHeader s a gone) :: l)
    let areas := a :: s.obs.areas
    { s with obs := { s.obs with areas := areas, dump := if areas.length = 49 then .capturing else .freezing } }

def execDumpFreeze (area : Fin 49) (s : State) : Step := run s (freezeUnit area.val)

/-- Every area is written: FROZEN, with `DUR_US` (R483). -/
def dumpDone (s : State) : State :=
  if s.obs.dump = .capturing then
    { s with obs := { s.obs with dump := .frozen, durUs := min (2 ^ 32 - 1) ((s.time - s.obs.dumpAt) / 1000) } }
  else s

def execDumpCaptureComplete (s : State) : Step := run s dumpDone

/-- The word that `OBS_DUMP_ADDR` names, and the size at which `OFF` wraps; none where reads return 0 (R486). A dump area is defined
while FROZEN alone: before, its bytes are free (log 4). -/
def dumpWord (s : State) : Option (Nat × Word) × State :=
  let area := regFld s 0xC0880 48 6
  let off := regFld s 0xC0880 3 21 * 8
  if area ≤ 48 then
    if s.obs.dump = .frozen then
      let (st, b, byte) := areaPlace s area
      let s := (bankTouch s st b true).2
      (some (0x40000, BitVec.ofNat 64 (leNat (memBytes s st b (byte + off % 0x40000) 8))), s)
    else
      let (l, s) := drawBytes s 8
      (some (0x40000, BitVec.ofNat 64 (leNat l)), s)
  else if area = 63 ∧ !regBit s 0xC0000 63 ∧ (s.obs.dump = .idle ∨ s.obs.dump = .frozen) ∧ trcCap s ≠ 0 then
    let n := trcCap s * 32
    let (st, b, byte) := trcPlace s (trcCap s) (off % n / 32)
    let s := (bankTouch s st b true).2
    (some (n, BitVec.ofNat 64 (leNat (memBytes s st b (byte + off % 32) 8))), s)
  else (none, s)

/-- A low-word read of `OBS_DUMP_DATA`: the 8 bytes, and `OFF` one word on (R486). -/
def dumpRead (s : State) : Word × State :=
  let off := regFld s 0xC0880 3 21 * 8
  match dumpWord s with
  | (some (n, w), s) => (w, regPut s 0xC0880 3 21 ((off % n + 8) % n / 8))
  | (none, s) => (0, s)

end Sys2Proof.Machine
end

