-- ==== Sys2Proof/Machine/Registers.lean ====
section
/-! DEFINITION. Accesses of the management port word by word: reads with the snapshot, held low words and writes of every register of
the map with the effect its rule gives it; the reset inputs (R9 to R14, R371 to R375, R488 to R499). -/

namespace Sys2Proof.Machine

/-- A register of `HST_RCT_BASE`: no effect while any ring is open (R166). Where the contexts leave the place of the shadows, the hubs of
the centre taps write these (R293, R294). -/
def rctBaseWrite (wm v : Word) (s : State) : State :=
  if s.tnt.entries.any (fun p => p.2.isSome && ringsOpen s p.1) then s
  else
    let t := regWritePlain wm 0x4000 v s
    (centreTaps.filter (fun st => shadowShut s st && !shadowShut t st)).foldl shadowsUp t

/-- A write of `HST_TNT_CMD`: a reserved `OP` is no command (R125, R126). -/
def tntCmdWrite (wm v : Word) (s : State) : State :=
  let w := v &&& wm
  match fld w 62 2 with
  | 0 => tntCommand s (tntAdmit (BitVec.ofNat 16 (fld w 0 16)))
  | 1 => tntCommand s (retire (fld w 16 12))
  | 2 => tntCommand s (peek (fld w 16 12))
  | _ => s

/-- A write of `HST_RING_CMD` (R166). -/
def ringCmdWrite (wm v : Word) (s : State) : State :=
  let w := v &&& wm
  let n := fld w 0 12
  match fld w 62 2 with
  | 0 => ringCommand s (ringOpenRow n)
  | 1 => ringCommand s (ringCloseCmd n)
  | 2 => ringCommand s (ringPeekCmd n)
  | _ => s

/-- A write of `TBL_CMD` (R463). -/
def tblCmdWrite (wm v : Word) (s : State) : State :=
  let w := v &&& wm
  let b := bitAt w 10
  let p := fld w 0 10
  match fld w 60 4 with
  | 0 => tblCommand s (tblWrite b p)
  | 1 => tblCommand s (tblRead b p)
  | 2 => tblCommand s (tblVerify b)
  | 3 => tblCommand s (tblActivate b)
  | 4 => tblCommand s (tblConfirm b)
  | 5 => tblCommand s (tblErase b)
  | _ => s

/-- A write of `PWR_LIMITS` (R453). -/
def limitsWrite (wm v : Word) (s : State) : State :=
  if limitsOk (regNext s wm 0x2010 v) then regWritePlain wm 0x2010 v s else refuseWrite s 0x2010

/-- A write of `PWR_THERM` (R453). -/
def thermWrite (wm v : Word) (s : State) : State :=
  let w := regNext s wm 0x2018 v
  if fld w 48 8 ≤ fld w 56 8 then refuseWrite s 0x2018 else regWritePlain wm 0x2018 v s

/-- A write of `HAL_GUEST_POLICE`: a meter being enabled is filled; an enabled one keeps its counts under R139 (R143, R144). -/
def guestWrite (wm v : Word) (s : State) : State :=
  let old := regGet s 0xB8F00
  let s := regWritePlain wm 0xB8F00 v s
  let new := regGet s 0xB8F00
  let fill := bitAt new 62 && !bitAt old 62
  { s with tnt := { s.tnt with guest := (List.range 8).foldl (fun t h =>
      cmod {} t h (fun m => if fill then fullMeter new s.time else refillMeter m old s.time)) s.tnt.guest } }

/-- A write of `OBS_TRC_CFG` or `OBS_TRC_BANK`: no effect while trace runs (R480). -/
def trcCfgWrite (off : Nat) (wm v : Word) (s : State) : State := if regBit s 0xC0000 63 then s else regWritePlain wm off v s

/-- A write in a stand window (R498). -/
def stdEffect (st : StandId) (o : Nat) (wm v : Word) (s : State) : State :=
  if o = 0x1C0 then bindWrite st wm v s
  else if o = 0x1D0 then cpCtlWrite st wm v s
  else if inArray o 0x200 48 8 then routeWrite st ((o - 0x200) / 8) wm v s
  else if inArray o 0x400 32 8 then memberWrite st ((o - 0x400) / 16) ((o - 0x400) / 8 % 2) wm v s
  else if inArray o 0x500 32 8 then cmbWrite st ((o - 0x500) / 32) ((o - 0x500) / 8 % 4) wm v s
  else if o = 0x610 then redTestWrite st wm v s
  else if inArray o 0x680 34 8 then ownWrite st ((o - 0x680) / 8) wm v s
  else if o = 0x7A0 then modeWrite st wm v s
  else if o = 0x7C0 then rawCmdWrite st wm v s
  else if 0x800 ≤ o ∧ o < 0x1000 then skidWrite st o wm v s
  else if 0x1000 ≤ o then chanWrite st ((o - 0x1000) / 32) ((o - 0x1000) / 8 % 4) wm v s
  else regWritePlain wm (stdOff st o) v s

/-- A write in `GLB_` (R494). -/
def glbEffect (off : Nat) (wm v : Word) (s : State) : State :=
  if off = 0x10 then selfWrite wm v s
  else if off = 0x80 then epochCtlWrite wm v s
  else if off = 0x100 then shareMapSet wm v s
  else if inArray off 0x200 45 8 then exitWrite ((off - 0x200) / 8) wm v s
  else if inArray off 0x600 64 8 then chainRegWrite ((off - 0x600) / 8) wm v s
  else if off = 0xA20 then dormCtlWrite wm v s
  else regWritePlain wm off v s

/-- A write in `FLT_`, `PWR_`, `BUP_` and `HST_` (R495). -/
def fltEffect (off : Nat) (wm v : Word) (s : State) : State :=
  if off = 0x1030 then evRingCtl wm v s
  else if off = 0x1038 then evRingHead wm v s
  else if off = 0x1050 then contDataWrite wm v s
  else if inArray off 0x1100 224 8 then classWrite ((off - 0x1100) / 128) ((off - 0x1100) / 8 % 16) wm v s
  else if inArray off 0x1800 64 8 then contKeyWrite ((off - 0x1800) / 8) wm v s
  else if off = 0x2010 then limitsWrite wm v s
  else if off = 0x2018 then thermWrite wm v s
  else if off = 0x2100 then bupCtlWrite wm v s
  else if off = 0x4000 then rctBaseWrite wm v s
  else if off = 0x4040 then ringCmdWrite wm v s
  else if off = 0x4100 then tntCmdWrite wm v s
  else regWritePlain wm off v s

/-- A write in `SYN_`, `BAR_` and `TNT_` (R497). -/
def arrayEffect (off : Nat) (wm v : Word) (s : State) : State :=
  if off < 0x90000 then
    (if off % 16 = 8 then syncCtlWrite ((off - 0x80000) / 16) wm v s else syncObjWrite ((off - 0x80000) / 16) wm v s)
  else if off < 0xA0000 then
    (if off % 32 < 16 then barRewrite ((off - 0x90000) / 32) (off % 32 / 8) wm v s else s)
  else if off % 16 = 8 then policeWrite ((off - 0xA0000) / 16) wm v s
  else shapeWrite ((off - 0xA0000) / 16) wm v s

/-- A write in `BRG_` and `HAL_` (R402, R403). -/
def canopyEffect (off : Nat) (wm v : Word) (s : State) : State :=
  if inArray off 0xB0010 4 8 then edgeWrite ((off - 0xB0010) / 8) wm v s
  else if inArray off 0xB8100 8 0x40 then hallEnable ((off - 0xB8100) / 0x40) wm v s
  else if off = 0xB8F00 then guestWrite wm v s
  else regWritePlain wm off v s

/-- A write in `OBS_` and `TBL_` (R467, R478, R482, R463). -/
def obsEffect (off : Nat) (wm v : Word) (s : State) : State :=
  if off = 0xC0000 then obsCtl wm v s
  else if off = 0xC0020 || inArray off 0xC0040 8 8 then trcCfgWrite off wm v s
  else if off = 0xC0028 then trcPtr wm v s
  else if off = 0xC0800 then dumpCtl wm v s
  else if off = 0xD0000 then tblCmdWrite wm v s
  else regWritePlain wm off v s

/-- A write in `MAP_` (R497). -/
def mapEffect (off : Nat) (wm v : Word) (s : State) : State :=
  if off < 0xE3000 then coppiceWrite ((off - 0xE0000) / 8) wm v s
  else match girdleReg off with
  | some (r, false) => girdleWrite r wm v s
  | some (r, true) => releaseWrite r wm v s
  | none =>
    match tierAt off with
    | some (false, t, n) => tierWrite t n wm v s
    | _ => s

/-- The effect of a write of the register at an offset, with the reports it gives rise to; none where no register stands (R9, R11). -/
def regEffect (off : Nat) (wm v : Word) (s : State) : State :=
  match regInfo off with
  | none => s
  | some _ =>
    settle (match standWindow off with
    | some (st, o) => stdEffect st o wm v s
    | none =>
      if off < 0x1000 then glbEffect off wm v s
      else if off < 0x20000 then fltEffect off wm v s
      else if off < 0xB0000 then arrayEffect off wm v s
      else if off < 0xC0000 then canopyEffect off wm v s
      else if off < 0xE0000 then obsEffect off wm v s
      else mapEffect off wm v s)

/-- The register whose word a `MG_ADDR` names, and whether it is the high word (R371). -/
def wordReg (a : BitVec 22) : Nat := a.toNat / 2 * 8
def wordHigh (a : BitVec 22) : Bool := a.toNat % 2 == 1

/-- An access of a register other than the one whose low word is held discards the held word (R13). -/
def dropHeld (s : State) (off : Nat) : State :=
  match s.mg.held with
  | some (h, _) => if h = off then s else dropLow s
  | none => s

/-- The port serves an access: a state without answer while `MG_RST_N` is low, `MG_ERR` while `FAB_PORST_N` is low or in the window of
a girdled stand (R372 to R375). -/
def mgServe (s : State) (off : Nat) (f : State → State) : Step :=
  .next (if !s.mg.porst then mgAnswer s 0 true
    else if !s.mg.rstN then s
    else
      let s := dropHeld s off
      if windowGirdled s off then mgAnswer s 0 true else f s)

/-- A write of one word (R13): a low word is held; a high word takes effect with the low word held for it, or alone. -/
def writeWord32 (a : BitVec 22) (data : BitVec 32) (s : State) : State :=
  let off := wordReg a
  if wordHigh a then
    let lo := match s.mg.held with | some (_, x) => some x | none => none
    let s := dropLow s
    let wm := if lo.isSome then allBits else highBits
    let v := mk 32 32 data.toNat ||| mk 0 32 (lo.getD 0).toNat
    mgAnswer (keep s (regEffect off wm v s)) 0 false
  else mgAnswer { s with mg := { s.mg with held := some (off, data) } } 0 false

def execRegisterWrite (a : BitVec 22) (data : BitVec 32) (s : State) : Step := mgServe s (wordReg a) (writeWord32 a data)

/-- The RC fields of a register clear to their reset value (R11). -/
def rcClear (off : Nat) (s : State) : State :=
  match regInfo off with
  | none => s
  | some i =>
    if i.rc = 0 then s
    else if off = 0x1000 then { s with flt := { s.flt with nFatal := 0, nCont := 0, nCorr := 0 } }
    else if off = 0x1020 then { s with flt := { s.flt with drops := 0, merges := 0 } }
    else regSet s off (merge i.rc (regGet s off) i.reset)

/-- A low-word read of a register: its 64 bits, with what the read does (R11, R415, R486). -/
def readReg (off : Nat) (s : State) : Word × State :=
  if off = 0xC0888 then dumpRead s
  else if off = 0x1078 then (evPopWord s 3, evPop s)
  else (regLive s off, rcClear off s)

/-- The live high half of a register (R12). A read of `FLT_EVPOP[3]` that no low-word read came before removes its record too (R415;
log 11). -/
def readHigh (off : Nat) (s : State) : Word × State :=
  if off = 0xC0888 then ((match dumpWord s with | (some (_, w), _) => w | (none, _) => 0), (dumpWord s).2)
  else if off = 0x1078 then (evPopWord s 3, evPop s)
  else (regLive s off, s)

/-- A read of one word (R12): a low word captures the register; a high word comes from the snapshot of the same register, else live.
Where no register stands it reads 0 (R9). -/
def readWord32 (a : BitVec 22) (s : State) : State :=
  let off := wordReg a
  if (regInfo off).isNone then mgAnswer s 0 false
  else if wordHigh a then
    match s.mg.snap.filter (fun x => x.1 == off) with
    | some (_, w) => mgAnswer s (BitVec.ofNat 32 (fld w 32 32)) false
    | none =>
      let r := readHigh off s
      mgAnswer (keep s r.2) (BitVec.ofNat 32 (fld r.1 32 32)) false
  else
    let r := readReg off s
    let s := keep s r.2
    mgAnswer { s with mg := { s.mg with snap := some (off, r.1) } } (BitVec.ofNat 32 (fld r.1 0 32)) false

def execLowWordRead (a : BitVec 22) (s : State) : Step := mgServe s (wordReg a) (readWord32 a)

def execRcRegisterRead (a : BitVec 22) (s : State) : Step := mgServe s (wordReg a) (fun s => readWord32 a s)

/-- A low-word read of `FLT_EVPOP[3]` (R415). -/
def execEventPop (s : State) : Step := mgServe s 0x1078 (readWord32 0x41E)

/-- A low-word read of `OBS_DUMP_DATA` (R486). -/
def execDumpDataRead (s : State) : Step := mgServe s 0xC0888 (readWord32 0x30222)

/-- `MG_RST_N` falls: the held low word and the snapshot go (R373). -/
def mgReset (s : State) : State := { s with mg := { s.mg with held := none, snap := none, rstN := false } }

def execMgRstNAssert (s : State) : Step := .next (mgReset s)

/-- `MG_RST_N` rises: accesses are offered again (R375). -/
def mgRelease (s : State) : State := { s with mg := { s.mg with rstN := true } }

def execMgRstNRelease (s : State) : Step := .next (mgRelease s)

/-- The hall ports at reset values but for the links of their MACs, which are input levels. -/
def macLevels (s : State) : HallState :=
  { ports := (List.range 8).foldl (fun t h => cset {} t h { link := (hallAt s h).link }) [] }

/-- `FAB_PORST_N` falls: the whole block takes its reset values (R374). The levels of its input pins stay: `MG_RST_N`, each
`CPk_RST_N`, the MACs' links and `PWR_DROOP_WARN`; so do `TIME`, which the integrator drives, the commands that wait, what has
been sent, and the count of free values drawn. -/
def porstLow (s : State) : State :=
  { mg := { rstN := s.mg.rstN, porst := false }
    time := s.time
    port := { inRst := s.port.inRst }
    pwr := { warnPin := s.pwr.warnPin }
    hall := macLevels s
    free := s.free, out := s.out, pending := s.pending }

def execFabPorstNAssert (s : State) : Step := .next (porstLow s)

/-- `FAB_PORST_N` rises: bring-up begins at S0 (R439). -/
def porstHigh (s : State) : State :=
  if s.mg.porst then s
  else { s with mg := { s.mg with porst := true }, bup := { s.bup with startAt := s.time }, pwr := { s.pwr with stepAt := s.time } }

def execFabPorstNRelease (s : State) : Step := .next (porstHigh s)

end Sys2Proof.Machine
end

