-- ==== Sys2Proof/Machine/Dispatch.lean ====
section
/-! DEFINITION. The command table: one arm for each row of spec/opcode_table.json, in its order. -/

namespace Sys2Proof.Machine

def exec (i : Instr) (s : State) : Host.Outcome State Fault Refusal :=
  match i with
  | .registerWrite a data => Sys2Proof.Machine.execRegisterWrite a data s
  | .lowWordRead a => Sys2Proof.Machine.execLowWordRead a s
  | .rcRegisterRead a => Sys2Proof.Machine.execRcRegisterRead a s
  | .mgRstNAssert => Sys2Proof.Machine.execMgRstNAssert s
  | .fabPorstNAssert => Sys2Proof.Machine.execFabPorstNAssert s
  | .fabPorstNRelease => Sys2Proof.Machine.execFabPorstNRelease s
  | .bringupStageReport r => Sys2Proof.Machine.execBringupStageReport r s
  | .s1LivenessDeadline => Sys2Proof.Machine.execS1LivenessDeadline s
  | .memoryTestTierReport fails => Sys2Proof.Machine.execMemoryTestTierReport fails s
  | .memoryTestRetentionPauseEnd => Sys2Proof.Machine.execMemoryTestRetentionPauseEnd s
  | .bupNotifyEnable v => Sys2Proof.Machine.execBupNotifyEnable v s
  | .glbSelfWrite v => Sys2Proof.Machine.execGlbSelfWrite v s
  | .tierMapStagedWrite tier n v => Sys2Proof.Machine.execTierMapStagedWrite tier n v s
  | .coppiceWrite n v => Sys2Proof.Machine.execCoppiceWrite n v s
  | .rehomeCommandReceive st n v => Sys2Proof.Machine.execRehomeCommandReceive st n v s
  | .frondReceive st pl inp f => Sys2Proof.Machine.execFrondReceive st pl inp f s
  | .creditAuditCounts st pl inp counts => Sys2Proof.Machine.execCreditAuditCounts st pl inp counts s
  | .creditReturn st pl outp vc => Sys2Proof.Machine.execCreditReturn st pl outp vc s
  | .outputArbitrate st pl outp => Sys2Proof.Machine.execOutputArbitrate st pl outp s
  | .stdRouteWrite st d v => Sys2Proof.Machine.execStdRouteWrite st d v s
  | .glbExitWrite n v => Sys2Proof.Machine.execGlbExitWrite n v s
  | .stallDetect st pl inp vc => Sys2Proof.Machine.execStallDetect st pl inp vc s
  | .epochSwitchRequest v => Sys2Proof.Machine.execEpochSwitchRequest v s
  | .flipReceive st => Sys2Proof.Machine.execFlipReceive st s
  | .flipAck st => Sys2Proof.Machine.execFlipAck st s
  | .epochDrainComplete => Sys2Proof.Machine.execEpochDrainComplete s
  | .epochDrainTimeout => Sys2Proof.Machine.execEpochDrainTimeout s
  | .epochCopyComplete => Sys2Proof.Machine.execEpochCopyComplete s
  | .messageArrival st m => Sys2Proof.Machine.execMessageArrival st m s
  | .ackTimer st key => Sys2Proof.Machine.execAckTimer st key s
  | .transportAckReceive u a => Sys2Proof.Machine.execTransportAckReceive u a s
  | .responseReceive u m => Sys2Proof.Machine.execResponseReceive u m s
  | .retransmitTimeout u impl chan => Sys2Proof.Machine.execRetransmitTimeout u impl chan s
  | .messageTimeout u impl chan => Sys2Proof.Machine.execMessageTimeout u impl chan s
  | .implicitSlotFree u => Sys2Proof.Machine.execImplicitSlotFree u s
  | .tenantAdmit tag => Sys2Proof.Machine.execTenantAdmit tag s
  | .tenantRetire n => Sys2Proof.Machine.execTenantRetire n s
  | .tenantPeek n => Sys2Proof.Machine.execTenantPeek n s
  | .tenantShapeWrite n v => Sys2Proof.Machine.execTenantShapeWrite n v s
  | .tenantPoliceWrite n v => Sys2Proof.Machine.execTenantPoliceWrite n v s
  | .corePortBindWrite st v => Sys2Proof.Machine.execCorePortBindWrite st v s
  | .dpZeroComplete st => Sys2Proof.Machine.execDpZeroComplete st s
  | .shareMapWrite v => Sys2Proof.Machine.execShareMapWrite v s
  | .shaperDispatch a => Sys2Proof.Machine.execShaperDispatch a s
  | .sqTailDoorbell d => Sys2Proof.Machine.execSqTailDoorbell d s
  | .cqHeadDoorbell d => Sys2Proof.Machine.execCqHeadDoorbell d s
  | .doorbellBaseWrite v => Sys2Proof.Machine.execDoorbellBaseWrite v s
  | .descriptorFetch n => Sys2Proof.Machine.execDescriptorFetch n s
  | .descriptorAccept a => Sys2Proof.Machine.execDescriptorAccept a s
  | .copy a => Sys2Proof.Machine.execCopy a s
  | .fill a => Sys2Proof.Machine.execFill a s
  | .send a => Sys2Proof.Machine.execSend a s
  | .mcast a => Sys2Proof.Machine.execMcast a s
  | .allsum a => Sys2Proof.Machine.execAllsum a s
  | .signal a => Sys2Proof.Machine.execSignal a s
  | .wait a => Sys2Proof.Machine.execWait a s
  | .mark a => Sys2Proof.Machine.execMark a s
  | .atomic a => Sys2Proof.Machine.execAtomic a s
  | .fence a => Sys2Proof.Machine.execFence a s
  | .group a => Sys2Proof.Machine.execGroup a s
  | .arm a => Sys2Proof.Machine.execArm a s
  | .armDisarm a => Sys2Proof.Machine.execArmDisarm a s
  | .fenceRelease a => Sys2Proof.Machine.execFenceRelease a s
  | .groupRunResume g => Sys2Proof.Machine.execGroupRunResume g s
  | .workItemReceive ex w => Sys2Proof.Machine.execWorkItemReceive ex w s
  | .holdingRecordWrite => Sys2Proof.Machine.execHoldingRecordWrite s
  | .ringOpen n => Sys2Proof.Machine.execRingOpen n s
  | .ringClose n => Sys2Proof.Machine.execRingClose n s
  | .ringPeek n => Sys2Proof.Machine.execRingPeek n s
  | .channelSlotWrite st j word v => Sys2Proof.Machine.execChannelSlotWrite st j word v s
  | .releaseWordAccess st j tenant acc => Sys2Proof.Machine.execReleaseWordAccess st j tenant acc s
  | .chainWrite c v => Sys2Proof.Machine.execChainWrite c v s
  | .memberSlotWrite st j word v => Sys2Proof.Machine.execMemberSlotWrite st j word v s
  | .mcastDispatch c => Sys2Proof.Machine.execMcastDispatch c s
  | .mcastReceive st m => Sys2Proof.Machine.execMcastReceive st m s
  | .mcastReportReceive st c bits => Sys2Proof.Machine.execMcastReportReceive st c bits s
  | .mcastReportTimeout st c => Sys2Proof.Machine.execMcastReportTimeout st c s
  | .combiningQueueWrite st j word v => Sys2Proof.Machine.execCombiningQueueWrite st j word v s
  | .contributionReceive st m => Sys2Proof.Machine.execContributionReceive st m s
  | .landingWriteComplete st j => Sys2Proof.Machine.execLandingWriteComplete st j s
  | .combiningTimeout st j => Sys2Proof.Machine.execCombiningTimeout st j s
  | .reducerTestArm st v => Sys2Proof.Machine.execReducerTestArm st v s
  | .tileReceive st m => Sys2Proof.Machine.execTileReceive st m s
  | .triggerReceive st g => Sys2Proof.Machine.execTriggerReceive st g s
  | .stageMessageReceive st m => Sys2Proof.Machine.execStageMessageReceive st m s
  | .allsumLossWaitExpiry st g seg share stage => Sys2Proof.Machine.execAllsumLossWaitExpiry st g seg share stage s
  | .allsumResultAbandon st g seg => Sys2Proof.Machine.execAllsumResultAbandon st g seg s
  | .nearPortAccess st r a => Sys2Proof.Machine.execNearPortAccess st r a s
  | .bankHandover st b v => Sys2Proof.Machine.execBankHandover st b v s
  | .bankRetWrite st b v => Sys2Proof.Machine.execBankRetWrite st b v s
  | .bankWipeComplete st b => Sys2Proof.Machine.execBankWipeComplete st b s
  | .bankRetentionEntered st b => Sys2Proof.Machine.execBankRetentionEntered st b s
  | .bankWakeComplete st b => Sys2Proof.Machine.execBankWakeComplete st b s
  | .twinFillComplete n => Sys2Proof.Machine.execTwinFillComplete n s
  | .scrubRead st => Sys2Proof.Machine.execScrubRead st s
  | .sliceModeWrite st v => Sys2Proof.Machine.execSliceModeWrite st v s
  | .rawRead st v => Sys2Proof.Machine.execRawRead st v s
  | .rawWrite st v => Sys2Proof.Machine.execRawWrite st v s
  | .syncObjectWrite n v => Sys2Proof.Machine.execSyncObjectWrite n v s
  | .syncControlWrite n v => Sys2Proof.Machine.execSyncControlWrite n v s
  | .signalApply n inc => Sys2Proof.Machine.execSignalApply n inc s
  | .watchRegister a => Sys2Proof.Machine.execWatchRegister a s
  | .watchReport a => Sys2Proof.Machine.execWatchReport a s
  | .watchRelease a => Sys2Proof.Machine.execWatchRelease a s
  | .waitTimeout a => Sys2Proof.Machine.execWaitTimeout a s
  | .waitPoll a => Sys2Proof.Machine.execWaitPoll a s
  | .barrierRewrite b word v => Sys2Proof.Machine.execBarrierRewrite b word v s
  | .barrierArrival k r => Sys2Proof.Machine.execBarrierArrival k r s
  | .barrierTimeout b => Sys2Proof.Machine.execBarrierTimeout b s
  | .sidebandUpdateReceive e x y => Sys2Proof.Machine.execSidebandUpdateReceive e x y s
  | .sidebandResend => Sys2Proof.Machine.execSidebandResend s
  | .sidebandLoss e => Sys2Proof.Machine.execSidebandLoss e s
  | .dormancyNow v => Sys2Proof.Machine.execDormancyNow v s
  | .dormancyWakeWrite v => Sys2Proof.Machine.execDormancyWakeWrite v s
  | .dormancyIdleExpiry => Sys2Proof.Machine.execDormancyIdleExpiry s
  | .dormancyProposeReceive w => Sys2Proof.Machine.execDormancyProposeReceive w s
  | .dormancyVote w round yes => Sys2Proof.Machine.execDormancyVote w round yes s
  | .dormancyVoteTimeout => Sys2Proof.Machine.execDormancyVoteTimeout s
  | .dormancyCommit st => Sys2Proof.Machine.execDormancyCommit st s
  | .dormancyEntryComplete => Sys2Proof.Machine.execDormancyEntryComplete s
  | .dormancyExitStart => Sys2Proof.Machine.execDormancyExitStart s
  | .dormancyExitComplete => Sys2Proof.Machine.execDormancyExitComplete s
  | .corePortDesc k r => Sys2Proof.Machine.execCorePortDesc k r s
  | .corePortWrite k r => Sys2Proof.Machine.execCorePortWrite k r s
  | .corePortRead k r => Sys2Proof.Machine.execCorePortRead k r s
  | .corePortAtomic k r => Sys2Proof.Machine.execCorePortAtomic k r s
  | .corePortSignal k r => Sys2Proof.Machine.execCorePortSignal k r s
  | .corePortReduce k r => Sys2Proof.Machine.execCorePortReduce k r s
  | .wakeAck k => Sys2Proof.Machine.execWakeAck k s
  | .targetRequestReceive st m => Sys2Proof.Machine.execTargetRequestReceive st m s
  | .trAnswer st tid status data => Sys2Proof.Machine.execTrAnswer st tid status data s
  | .hangDetect k c => Sys2Proof.Machine.execHangDetect k c s
  | .coreResetAssert r => Sys2Proof.Machine.execCoreResetAssert r s
  | .coreResetRelease k => Sys2Proof.Machine.execCoreResetRelease k s
  | .portFabricReset k v => Sys2Proof.Machine.execPortFabricReset k v s
  | .resyncAck k => Sys2Proof.Machine.execResyncAck k s
  | .resyncTimeout k => Sys2Proof.Machine.execResyncTimeout k s
  | .edgeRetrain e v => Sys2Proof.Machine.execEdgeRetrain e v s
  | .modulePhyUp e m x64at32 => Sys2Proof.Machine.execModulePhyUp e m x64at32 s
  | .moduleTrainFail e m => Sys2Proof.Machine.execModuleTrainFail e m s
  | .moduleTrainRetry e m => Sys2Proof.Machine.execModuleTrainRetry e m s
  | .helloSend e m => Sys2Proof.Machine.execHelloSend e m s
  | .helloReceive e m link => Sys2Proof.Machine.execHelloReceive e m link s
  | .helloTimeout e m => Sys2Proof.Machine.execHelloTimeout e m s
  | .moduleRecalStart e m => Sys2Proof.Machine.execModuleRecalStart e m s
  | .moduleRecalDone e m => Sys2Proof.Machine.execModuleRecalDone e m s
  | .moduleRecalTimeout e m => Sys2Proof.Machine.execModuleRecalTimeout e m s
  | .bridgeSlotReceive e m slot => Sys2Proof.Machine.execBridgeSlotReceive e m slot s
  | .bridgeAuditReceive e m link => Sys2Proof.Machine.execBridgeAuditReceive e m link s
  | .hallLinkUp h => Sys2Proof.Machine.execHallLinkUp h s
  | .hallLinkDown h => Sys2Proof.Machine.execHallLinkDown h s
  | .hallPortEnableWrite h v => Sys2Proof.Machine.execHallPortEnableWrite h v s
  | .hallOpen h f => Sys2Proof.Machine.execHallOpen h f s
  | .hallOpenAck h f => Sys2Proof.Machine.execHallOpenAck h f s
  | .hallData h f => Sys2Proof.Machine.execHallData h f s
  | .hallAck h f => Sys2Proof.Machine.execHallAck h f s
  | .hallRefuse h f => Sys2Proof.Machine.execHallRefuse h f s
  | .hallSkip h f => Sys2Proof.Machine.execHallSkip h f s
  | .hallContextOpen h peer => Sys2Proof.Machine.execHallContextOpen h peer s
  | .hallOpenTimeout h peer => Sys2Proof.Machine.execHallOpenTimeout h peer s
  | .hallContextIdle h peer => Sys2Proof.Machine.execHallContextIdle h peer s
  | .hallUnseqRetry h peer => Sys2Proof.Machine.execHallUnseqRetry h peer s
  | .hallRetransmitTimeout h peer lseq => Sys2Proof.Machine.execHallRetransmitTimeout h peer lseq s
  | .hallSkipResend h peer => Sys2Proof.Machine.execHallSkipResend h peer s
  | .hallAckTimer h peer => Sys2Proof.Machine.execHallAckTimer h peer s
  | .faultEvent e => Sys2Proof.Machine.execFaultEvent e s
  | .mergeWindowClose family cause loc sub => Sys2Proof.Machine.execMergeWindowClose family cause loc sub s
  | .eventRingWrite => Sys2Proof.Machine.execEventRingWrite s
  | .eventPop => Sys2Proof.Machine.execEventPop s
  | .eventRingEnable v => Sys2Proof.Machine.execEventRingEnable v s
  | .eventRingHeadWrite v => Sys2Proof.Machine.execEventRingHeadWrite v s
  | .faultClassWrite f c v => Sys2Proof.Machine.execFaultClassWrite f c v s
  | .girdle reg v => Sys2Proof.Machine.execGirdle reg v s
  | .girdleRelease reg v => Sys2Proof.Machine.execGirdleRelease reg v s
  | .girdleApply st u => Sys2Proof.Machine.execGirdleApply st u s
  | .standRetestComplete st failed bankFails => Sys2Proof.Machine.execStandRetestComplete st failed bankFails s
  | .livenessMessage st from_ => Sys2Proof.Machine.execLivenessMessage st from_ s
  | .nodeLinkSilence st dir => Sys2Proof.Machine.execNodeLinkSilence st dir s
  | .reroute => Sys2Proof.Machine.execReroute s
  | .twinConfirm st => Sys2Proof.Machine.execTwinConfirm st s
  | .contingencyDataWrite v => Sys2Proof.Machine.execContingencyDataWrite v s
  | .contingencyKeyWrite n v => Sys2Proof.Machine.execContingencyKeyWrite n v s
  | .heartbeatTick => Sys2Proof.Machine.execHeartbeatTick s
  | .cruisePatternSend n dir => Sys2Proof.Machine.execCruisePatternSend n dir s
  | .cruisePatternReceive n dir payload => Sys2Proof.Machine.execCruisePatternReceive n dir payload s
  | .reducerSelfcheck st badLanes => Sys2Proof.Machine.execReducerSelfcheck st badLanes s
  | .paceStep readings => Sys2Proof.Machine.execPaceStep readings s
  | .pwrDroopWarnAssert => Sys2Proof.Machine.execPwrDroopWarnAssert s
  | .droopHandlingEnd => Sys2Proof.Machine.execDroopHandlingEnd s
  | .thermalThreshold st tj => Sys2Proof.Machine.execThermalThreshold st tj s
  | .brownout st => Sys2Proof.Machine.execBrownout st s
  | .tableWrite slot page => Sys2Proof.Machine.execTableWrite slot page s
  | .tableRead slot page => Sys2Proof.Machine.execTableRead slot page s
  | .tableVerify slot => Sys2Proof.Machine.execTableVerify slot s
  | .tableActivate slot => Sys2Proof.Machine.execTableActivate slot s
  | .tableConfirm slot => Sys2Proof.Machine.execTableConfirm slot s
  | .tableErase slot => Sys2Proof.Machine.execTableErase slot s
  | .secAck result words facts => Sys2Proof.Machine.execSecAck result words facts s
  | .tallySnapshot v => Sys2Proof.Machine.execTallySnapshot v s
  | .traceEnable v => Sys2Proof.Machine.execTraceEnable v s
  | .traceReadPointerWrite v => Sys2Proof.Machine.execTraceReadPointerWrite v s
  | .traceRecordReceive srcu => Sys2Proof.Machine.execTraceRecordReceive srcu s
  | .traceStagingFlush => Sys2Proof.Machine.execTraceStagingFlush s
  | .dumpGo v => Sys2Proof.Machine.execDumpGo v s
  | .dumpFreeze area => Sys2Proof.Machine.execDumpFreeze area s
  | .dumpCaptureComplete => Sys2Proof.Machine.execDumpCaptureComplete s
  | .dumpDataRead => Sys2Proof.Machine.execDumpDataRead s
  | .mgRstNRelease => Sys2Proof.Machine.execMgRstNRelease s
  | .pwrDroopWarnDeassert => Sys2Proof.Machine.execPwrDroopWarnDeassert s
  | .hostMemoryReadCompletion tag data => Sys2Proof.Machine.execHostMemoryReadCompletion tag data s
  | .dlMessageTaken k => Sys2Proof.Machine.execDlMessageTaken k s
  | .memoryTestMarchComplete => Sys2Proof.Machine.execMemoryTestMarchComplete s
  | .livenessSend st => Sys2Proof.Machine.execLivenessSend st s

end Sys2Proof.Machine
end

