-- ==== Sys2Proof/Safety.lean ====
section
/-! DEFINITION. What counts as a safe run of the block: from every state it reaches, the next step answers a next state. -/

namespace Sys2Proof.Machine

/-- A run: steps that answer next states, with commands that arrive in between at the back of the queue (the sender's part). -/
inductive Run : State → State → Prop where
  | refl (s : State) : Run s s
  | step {s t u : State} : Run s t → step t = .next u → Run s u
  | send {s t : State} (c : Instr) : Run s t → Run s { t with pending := t.pending ++ [c] }

/-- No step of any run from `s` faults or is refused. -/
def SafeFrom (s : State) : Prop := ∀ t, Run s t → ∃ u, step t = .next u

/-- The command answers a next state from `s`, and that state has `P`. -/
def Next (c : Instr) (s : State) (P : State → Prop) : Prop := ∃ t, exec c s = .next t ∧ P t

/-- The block is out of reset (R374) and stands between two steps: no report of an earlier step is outstanding. -/
abbrev Up (s : State) : Prop := s.mg.porst = true ∧ s.todo = []

/-- The management port serves an access of the register at `off` (R372 to R375). -/
abbrev MgServed (s : State) (off : Nat) : Prop := Up s ∧ s.mg.rstN = true ∧ windowGirdled s off = false

/-- The state but for the management port, the step's bookkeeping (`TIME`, the queue, reports). -/
def body (s : State) : State := { s with mg := {}, time := 0, pending := [], todo := [] }

/-- `s` with the management port, `TIME` and the outstanding reports of `t`: what every command may change. -/
def rest (s t : State) : State := { s with mg := t.mg, time := t.time, todo := t.todo }

/-- The reset invariant: nothing is left to report between steps; with `FAB_PORST_N` low the block, but for its answers to the management
port, is as that reset leaves it (R374); with `MG_RST_N` low the port holds neither a low word nor a snapshot (R373). -/
abbrev ResetInv (s : State) : Prop :=
  s.todo = [] ∧
  (s.mg.porst = false → mgAnswer s 0 false = porstLow s) ∧
  (s.mg.rstN = false → s.mg.held = none ∧ s.mg.snap = none)

/-- A descriptor as its unit accepted it, alone in its chain: no outcome, no message outstanding. -/
abbrev FreshDesc (d : DescSt) : Prop :=
  d.chain = none ∧ d.status = .ok ∧ d.flags = 0 ∧ d.addr = 0 ∧ d.result = 0 ∧ d.todo = 0 ∧ d.unack = 0 ∧ d.items = [] ∧ d.unknown = false ∧ d.dead = false

/-- From `s` to `t` exactly one NORMAL record joined a port's delivery crossing: the completion of `d`, which frees its slot (R174, R178). -/
abbrev RecordSent (s t : State) (k : StandId) (d : DescSt) (status : Status) (addr result : Word) : Prop :=
  cget [] t.port.dl k.val = cget [] s.port.dl k.val ++
    [{ kind := 1, status := status, rid := 0, data := record recNormal 0 status (dTag d.raw) addr result d.idx, frees := .slots [d.slot] }]

/-- A message of a unit goes out at once in the implicit slot `i`, which is free with nothing in its window, to the target `p`, `e`: no message
waits at the unit for a slot, and it is no FINAL tile that an earlier one holds back (R112, R258). -/
abbrev SendsAt (s : State) (u : SrcUnit) (m : Msg) (i : Nat) (p : BitVec 6) (e : BitVec 2) : Prop :=
  targetOf s (unitStand s u) m = .ok (p, e) ∧ targetOf s (unitStand s u) { m with impl := true, chan := BitVec.ofNat 12 i } = .ok (p, e) ∧
  findSlot s u (destKey s (unitStand s u) m, m.plane) = some (i, true) ∧ i < 256 ∧ (flowAt s (flowKey u true i)).win = [] ∧
  (flowAt s (flowKey u true i)).wait = [] ∧ cget [] s.trans.noSlot (unitNo u) = [] ∧ finalHeld s u m = false

/-- A whole request message reaches the hub of its home: the stand is in service, the die not dormant, the message for this die, whole, fresh,
on a VC of requests, sent on by no hub (R60, R64, R82, R115), and no hall port has cleared its EXPRESS (R135). -/
abbrev AtHub (s : State) (st : StandId) (m : Msg) : Prop :=
  girdled s st.val = false ∧ frozenAt s st.val = false ∧ dormHeld s = false ∧ namesThisDie s m.dest = true ∧ m.vc ≠ vcSpill ∧ m.vc ≠ vcBackground ∧
  m.broken = false ∧ isFresh s m = true ∧ s.trans.cleared.contains (keyOf m, m.seq) = false ∧ s.mesh.fwds.contains (keyOf m, m.seq) = false ∧
  strayTo s st m = none

/-- The receive table of a stand has room for one more flow (R115). -/
abbrev TableRoom (s : State) (st : StandId) : Prop := ((recvTable s st).filter (entryLive s)).length < 4096

/-- A whole request, not marked red and of a length its class allows, reaches its home as the first of its flow, and opens it (R114, R115). -/
abbrev Arrives (s : State) (st : StandId) (m : Msg) : Prop :=
  AtHub s st m ∧ m.colour ≠ red ∧ lengthBad m = none ∧ m.openFl = true ∧ findEntry s st (keyOf m) = none ∧ TableRoom s st

/-- The entry with which the table of R115 takes a message: a new one that OPEN makes, the flow's own at E, or the flow's with E set to the
message's SEQ, a new incarnation, whose refusals keep their places. -/
abbrev TakenAs (s : State) (st : StandId) (m : Msg) (e : RecvEntry) : Prop :=
  (findEntry s st (keyOf m) = none ∧ TableRoom s st ∧ m.openFl = true ∧
    e = { key := keyOf m, e := m.seq, last := s.time, rmask := 0, atom := none, unacked := 0, oldest := s.time, gapAt := none }) ∨
  (findEntry s st (keyOf m) = some e ∧ m.seq = e.e) ∨
  (∃ x, findEntry s st (keyOf m) = some x ∧ m.seq ≠ x.e ∧ isBehind x.e m.seq = false ∧ m.openFl = true ∧
    e = { x with e := m.seq, rmask := x.rmask <<< (m.seq - x.e).toNat })

/-- A transport acknowledgement on the planes: a CTRL frond on VC 1 of the flow's plane to its source, with the flow key, E, its reason and the
refusal mask (R116, R147). -/
abbrev IsAck (k : FlowKey) (e : BitVec 16) (reason : Nat) (rmask : BitVec 32) (x : Msg) : Prop :=
  x.op = opReadRsp ∧ x.shape = .ctrl ∧ x.vc = vcRsp ∧ x.plane = k.plane ∧ x.chan = k.chan ∧ x.unit = k.unit ∧ x.impl = k.impl ∧
  x.dest = BitVec.ofNat 64 (k.src.toNat * 2 ^ 34) ∧ x.seq = e ∧ x.w = statusW (if reason = 0 then .ok else .notReady) ∧
  x.data = leBytes 4 reason ++ leBytes 4 rmask.toNat

/-- The response to a request on the planes: on VC 1 of its plane to its source, with its flow, SEQ and EXPRESS, a status and data (R75, R78). -/
abbrev IsRsp (m : Msg) (r : Status) (data : List Byte) (x : Msg) : Prop :=
  x.op = opReadRsp ∧ x.vc = vcRsp ∧ x.plane = m.plane ∧ x.chan = m.chan ∧ x.unit = m.unit ∧ x.impl = m.impl ∧ x.seq = m.seq ∧ x.express = m.express ∧
  x.dest = BitVec.ofNat 64 (m.src.toNat * 2 ^ 34) ∧ x.w = statusW r ∧ x.data = data

/-- The hub of `st` has sent the messages `l`, the last first, and nothing else left the block. -/
abbrev HubSent (s t : State) (st : StandId) (l : List Msg) : Prop := t.out = l.map (.msg st (unitCode (.hub st))) ++ s.out

/-- The requester of a message is on this die, so that what answers it needs no exit (R96). -/
abbrev FromThisDie (s : State) (m : Msg) : Prop := namesThisDie s (BitVec.ofNat 64 (m.src.toNat * 2 ^ 34)) = true

/-- The DRR of R93 over its ring, for the VCs that wait and the VCs whose credit is there: from one state to the VC that is served and the
state then. -/
inductive DrrRun (waiting ready : Nat → Bool) (quantum : Nat → Nat) : Drr → Nat → Drr → Prop where
  | empty {d d' : Drr} {v : Nat} : waiting (drrRing.getD d.cur 0) = false →
      DrrRun waiting ready quantum { deficit := d.deficit.set (drrRing.getD d.cur 0) 0, cur := (d.cur + 1) % 7, fresh := true } v d' →
      DrrRun waiting ready quantum d v d'
  | shut {d d' : Drr} {v : Nat} : waiting (drrRing.getD d.cur 0) = true → ready (drrRing.getD d.cur 0) = false →
      DrrRun waiting ready quantum { d with cur := (d.cur + 1) % 7, fresh := true } v d' → DrrRun waiting ready quantum d v d'
  | poor {d d' : Drr} {v q : Nat} : waiting (drrRing.getD d.cur 0) = true → ready (drrRing.getD d.cur 0) = true →
      q = d.deficit.getD (drrRing.getD d.cur 0) 0 + (if d.fresh then quantum (drrRing.getD d.cur 0) else 0) → q < 64 →
      DrrRun waiting ready quantum { deficit := d.deficit.set (drrRing.getD d.cur 0) q, cur := (d.cur + 1) % 7, fresh := true } v d' →
      DrrRun waiting ready quantum d v d'
  | serve {d : Drr} {q : Nat} : waiting (drrRing.getD d.cur 0) = true → ready (drrRing.getD d.cur 0) = true →
      q = d.deficit.getD (drrRing.getD d.cur 0) 0 + (if d.fresh then quantum (drrRing.getD d.cur 0) else 0) → 64 ≤ q →
      DrrRun waiting ready quantum d (drrRing.getD d.cur 0)
        { deficit := d.deficit.set (drrRing.getD d.cur 0) (q - 64), cur := d.cur, fresh := false }

/-- The class arbitration of R133, for the classes that wait: from one state of the level to that in which the class at its position starts a
message. -/
inductive ShareRun (waiting : Nat → Bool) (quantum : Nat → Nat) : ShareSt → ShareSt → Prop where
  | empty {x y : ShareSt} : waiting x.cur = false →
      ShareRun waiting quantum { x with sdef := x.sdef.set x.cur (min (x.sdef.getD x.cur 0) 0), cur := (x.cur + 1) % 16, fresh := true } y →
      ShareRun waiting quantum x y
  | poor {x y : ShareSt} {q : Int} : waiting x.cur = true → q = x.sdef.getD x.cur 0 + (if x.fresh then (quantum x.cur : Int) else 0) → q ≤ 0 →
      ShareRun waiting quantum { x with sdef := x.sdef.set x.cur q, cur := (x.cur + 1) % 16, fresh := true } y → ShareRun waiting quantum x y
  | serve {x : ShareSt} {q : Int} : waiting x.cur = true → q = x.sdef.getD x.cur 0 + (if x.fresh then (quantum x.cur : Int) else 0) → 0 < q →
      ShareRun waiting quantum x { x with sdef := x.sdef.set x.cur q, fresh := false }

/-- A frond charges 64 bytes to a class (R133). -/
def charged (x : ShareSt) (c : Nat) : ShareSt := { x with sdef := x.sdef.set c (x.sdef.getD c 0 - 64) }

/-- The commands that move an input pin other than the management port's own: its level is kept through `FAB_PORST_N` low (log 27). -/
def movesPin : Instr → Bool
  | .hallLinkUp _ => true
  | .hallLinkDown _ => true
  | .pwrDroopWarnAssert => true
  | .pwrDroopWarnDeassert => true
  | .coreResetAssert _ => true
  | .coreResetRelease _ => true
  | _ => false

/-- The commands of the management port and of the block's reset pins. -/
def movesMg : Instr → Bool
  | .fabPorstNRelease => true
  | .fabPorstNAssert => true
  | .mgRstNAssert => true
  | .mgRstNRelease => true
  | _ => false

/-- A core port that takes a request at once: up and not lossy, no message waits at it, new work is not held, the die is in service, and no
core reset is to discard what its head brings. -/
abbrev PortOpen (s : State) (k : StandId) : Prop :=
  Up s ∧ portClosed s k = false ∧ portLossy s k = false ∧ rqOf s k = [] ∧ cget none s.port.rqCol k.val = none ∧
  s.dorm.phase = .service ∧ workHeld s = false ∧ fatalLatched s = false ∧ rqGone s k = false

/-- From `s` to `t` exactly one message joined a port's delivery crossing (R352); it frees nothing. -/
abbrev Delivered (s t : State) (k : StandId) (kind : Nat) (status : Status) (rid : BitVec 8) : Prop :=
  cget [] t.port.dl k.val = cget [] s.port.dl k.val ++ [{ kind := kind, status := status, rid := rid, data := [], frees := .nothing }]

/-- No participant of a barrier of this die is girdled or fenced (R334). -/
abbrev MembersPresent (s : State) (mask : BitVec 48) : Prop :=
  ∀ j : StandId, bitAt mask j.val = true → girdled s j.val = false ∧ portGirdled s j.val = false ∧ fenced s j.val = false

end Sys2Proof.Machine
end

