-- ==== Sys2Proof/WellFormed.lean ====
section
/-! DEFINITION. Well-formed commands: the operands whose type admits more than the interface that carries them (R26, R52, R78, R80,
R155, R169, R354, R379, R392, R476). Every command has its meaning well-formed or not; a sender of well-formed ones is the real
environment. -/

namespace Sys2Proof

/-- A module of an edge: 16, and 12 on E1 and E3 (R26). -/
def modOk (e : Fin 4) (m : Fin 16) : Bool := decide (m.val < (if e.val = 1 ∨ e.val = 3 then 12 else 16))

/-- The entries of a tier map (R52). -/
def tierEntries (tier : Fin 4) : Nat := ([4, 8, 32, 1024] : List Nat).getD tier.val 0

/-- A doorbell access of 1, 2, 4 or 8 bytes (R169). -/
def dbOk : DbAccess → Bool
  | .haRead _ size => size == 1 || size == 2 || size == 4 || size == 8
  | .ha _ size _ => size == 1 || size == 2 || size == 4 || size == 8
  | .fabric _ _ _ size _ => size == 1 || size == 2 || size == 4 || size == 8

/-- A message of at most 65 fronds, with as many bytes as its LENGTH says unless it is broken (R80, R82). -/
def msgOk (m : Msg) : Bool := decide (m.data.length ≤ 4152) && (m.broken || m.data.length == m.len.toNat)

/-- A work item lies in its descriptor's range (R155). -/
def itemOk (w : WorkItem) : Bool := decide (w.off + w.len ≤ w.total)

/-- A request message on RQ: beats of 256 bytes that begin with a header of 32, and no more data than they carry (R347). -/
def rqOk (r : RqMsg) : Bool :=
  decide (1 ≤ r.beats) && decide (1 ≤ r.nbytes) && decide (r.nbytes ≤ 256) && decide (r.data.length + 32 ≤ 256 * r.beats)

/-- A frame as a MAC hands it over: no more bytes than it has (R392). -/
def frameOk (f : Frame) : Bool := decide (f.bytes.length ≤ f.trueLen)

/-- No number stands twice. -/
def noRepeat : List Nat → Bool
  | [] => true
  | x :: r => !r.contains x && noRepeat r

/-- A command whose operands the environment can send. -/
def Instr.wf (i : Instr) : Bool :=
  match i with
  | .memoryTestTierReport fails => noRepeat (fails.map (fun f => f.1.val * 34 + f.2.val))
  | .tierMapStagedWrite tier n _ => decide (n.val < tierEntries tier)
  | .messageArrival _ m => msgOk m
  | .responseReceive _ m => msgOk m
  | .sqTailDoorbell d => dbOk d
  | .cqHeadDoorbell d => dbOk d
  | .workItemReceive _ w => itemOk w
  | .mcastReceive _ m => msgOk m
  | .contributionReceive _ m => msgOk m
  | .tileReceive _ m => msgOk m
  | .stageMessageReceive _ m => msgOk m
  | .allsumLossWaitExpiry _ _ _ _ stage => decide (1 ≤ stage.val)
  | .nearPortAccess _ _ a => match a with | .none => true | .msg m => msgOk m
  | .barrierArrival _ r => rqOk r
  | .corePortDesc _ r => rqOk r
  | .corePortWrite _ r => rqOk r
  | .corePortRead _ r => rqOk r
  | .corePortAtomic _ r => rqOk r
  | .corePortSignal _ r => rqOk r
  | .corePortReduce _ r => rqOk r
  | .targetRequestReceive _ m => msgOk m
  | .trAnswer _ tid _ data => decide (tid.toNat < 32) && decide (data.length ≤ 4096)
  | .modulePhyUp e m _ => modOk e m
  | .moduleTrainFail e m => modOk e m
  | .moduleTrainRetry e m => modOk e m
  | .helloSend e m => modOk e m
  | .helloReceive e m link => modOk e m && decide (link.length = 64)
  | .helloTimeout e m => modOk e m
  | .moduleRecalStart e m => modOk e m
  | .moduleRecalDone e m => modOk e m
  | .moduleRecalTimeout e m => modOk e m
  | .bridgeSlotReceive e m _ => modOk e m
  | .bridgeAuditReceive e m link => modOk e m && decide (link.length = 64)
  | .hallOpen _ f => frameOk f
  | .hallOpenAck _ f => frameOk f
  | .hallData _ f => frameOk f
  | .hallAck _ f => frameOk f
  | .hallRefuse _ f => frameOk f
  | .hallSkip _ f => frameOk f
  | .standRetestComplete _ _ bankFails => noRepeat (bankFails.map (fun b => b.val))
  | .paceStep readings => noRepeat (readings.map (fun r => r.1.val))
  | .secAck _ words _ => decide (words.length ≤ 1024)
  | .traceRecordReceive srcu => decide (srcu.toNat ≤ 48)
  | .hostMemoryReadCompletion _ data => decide (data.length ≤ 4096)
  | .registerWrite .. | .lowWordRead .. | .rcRegisterRead .. | .mgRstNAssert | .fabPorstNAssert | .fabPorstNRelease |
    .bringupStageReport .. | .s1LivenessDeadline | .memoryTestRetentionPauseEnd | .bupNotifyEnable .. | .glbSelfWrite .. |
    .coppiceWrite .. | .rehomeCommandReceive .. | .frondReceive .. | .creditAuditCounts .. | .creditReturn .. |
    .outputArbitrate .. | .stdRouteWrite .. | .glbExitWrite .. | .stallDetect .. | .epochSwitchRequest .. | .flipReceive .. |
    .flipAck .. | .epochDrainComplete | .epochDrainTimeout | .epochCopyComplete | .ackTimer .. | .transportAckReceive .. |
    .retransmitTimeout .. | .messageTimeout .. | .implicitSlotFree .. | .tenantAdmit .. | .tenantRetire .. | .tenantPeek .. |
    .tenantShapeWrite .. | .tenantPoliceWrite .. | .corePortBindWrite .. | .dpZeroComplete .. | .shareMapWrite .. |
    .shaperDispatch .. | .doorbellBaseWrite .. | .descriptorFetch .. | .descriptorAccept .. | .copy .. | .fill .. | .send .. |
    .mcast .. | .allsum .. | .signal .. | .wait .. | .mark .. | .atomic .. | .fence .. | .group .. | .arm .. | .armDisarm .. |
    .fenceRelease .. | .groupRunResume .. | .holdingRecordWrite | .ringOpen .. | .ringClose .. | .ringPeek .. |
    .channelSlotWrite .. | .releaseWordAccess .. | .chainWrite .. | .memberSlotWrite .. | .mcastDispatch .. |
    .mcastReportReceive .. | .mcastReportTimeout .. | .combiningQueueWrite .. | .landingWriteComplete .. |
    .combiningTimeout .. | .reducerTestArm .. | .triggerReceive .. | .allsumResultAbandon .. | .bankHandover .. |
    .bankRetWrite .. | .bankWipeComplete .. | .bankRetentionEntered .. | .bankWakeComplete .. | .twinFillComplete .. |
    .scrubRead .. | .sliceModeWrite .. | .rawRead .. | .rawWrite .. | .syncObjectWrite .. | .syncControlWrite .. |
    .signalApply .. | .watchRegister .. | .watchReport .. | .watchRelease .. | .waitTimeout .. | .waitPoll .. |
    .barrierRewrite .. | .barrierTimeout .. | .sidebandUpdateReceive .. | .sidebandResend | .sidebandLoss .. |
    .dormancyNow .. | .dormancyWakeWrite .. | .dormancyIdleExpiry | .dormancyProposeReceive .. | .dormancyVote .. |
    .dormancyVoteTimeout | .dormancyCommit .. | .dormancyEntryComplete | .dormancyExitStart | .dormancyExitComplete |
    .wakeAck .. | .hangDetect .. | .coreResetAssert .. | .coreResetRelease .. | .portFabricReset .. | .resyncAck .. |
    .resyncTimeout .. | .edgeRetrain .. | .hallLinkUp .. | .hallLinkDown .. | .hallPortEnableWrite .. | .hallContextOpen .. |
    .hallOpenTimeout .. | .hallContextIdle .. | .hallUnseqRetry .. | .hallRetransmitTimeout .. | .hallSkipResend .. |
    .hallAckTimer .. | .faultEvent .. | .mergeWindowClose .. | .eventRingWrite | .eventPop | .eventRingEnable .. |
    .eventRingHeadWrite .. | .faultClassWrite .. | .girdle .. | .girdleRelease .. | .girdleApply .. | .livenessMessage .. |
    .nodeLinkSilence .. | .reroute | .twinConfirm .. | .contingencyDataWrite .. | .contingencyKeyWrite .. | .heartbeatTick |
    .cruisePatternSend .. | .cruisePatternReceive .. | .reducerSelfcheck .. | .pwrDroopWarnAssert | .droopHandlingEnd |
    .thermalThreshold .. | .brownout .. | .tableWrite .. | .tableRead .. | .tableVerify .. | .tableActivate .. |
    .tableConfirm .. | .tableErase .. | .tallySnapshot .. | .traceEnable .. | .traceReadPointerWrite .. | .traceStagingFlush |
    .dumpGo .. | .dumpFreeze .. | .dumpCaptureComplete | .dumpDataRead | .mgRstNRelease | .pwrDroopWarnDeassert |
    .dlMessageTaken .. | .memoryTestMarchComplete | .livenessSend .. => true

end Sys2Proof
end

