-- ==== Sys2Proof/Certificates/Slice0/Obligations.lean ====
section
/-! DEFINITION. The statements about the block for the provers, chapter by chapter. `Next c s P` says that the command completes from
`s` in a state with `P`; `Up` and `MgServed` say that the block is out of reset and that the management port serves the register. -/

open Sys2Proof Sys2Proof.Machine

/-- For every command and state, a step with the command at the front of the queue is its effect on the state with the queue's rest. With no command waiting the step only counts TIME on by 1: that the block idles so is the model's choice (log 2). -/
def Obligations.StepRunsTheFrontCommand : Prop :=
  ∀ (c : Instr) (r : List Instr) (s : State),
    (s.pending = c :: r → step s = exec c { s with pending := r }) ∧
    (s.pending = [] → step s = .next { s with time := s.time + 1 })

/-- For every command and state: where it answers a next state, the queue of waiting commands is as before, TIME is not lower (R361: the integrator never lowers it), and the reports of the step are worked off if none was outstanding before. The queue is the model's own (log 8). -/
def Obligations.CommandsKeepTheQueue : Prop :=
  ∀ (c : Instr) (s t : State), exec c s = .next t →
    t.pending = s.pending ∧ s.time ≤ t.time ∧ (s.todo = [] → t.todo = [])

/-- Every command of the table answers a next state from every state, so that every run, with whatever commands arrive in between, is safe (Sys2Proof/Safety.lean). The spec gives every command an effect; NOTES.md lists no stop. -/
def Obligations.NoCommandStops : Prop :=
  (∀ (c : Instr) (s : State), ∃ t, exec c s = .next t) ∧ (∀ s : State, SafeFrom s)

/-- The reset invariant of Sys2Proof/Safety.lean holds in the state after reset. -/
def Obligations.ResetInvariantAtReset : Prop :=
  ResetInv State.reset

/-- Every step, whatever command it runs, keeps the reset invariant: nothing is left to report between steps; while FAB_PORST_N is low every register, table and buffer holds its reset value, but for the levels of input pins, TIME, the outputs and the model's count of free values (R374); while MG_RST_N is low the management port holds no low word and no snapshot (R373). What stays through FAB_PORST_N besides the spec's own words is the model's choice (log 27). -/
def Obligations.ResetInvariantIsKept : Prop :=
  ∀ (s t : State), ResetInv s → step s = .next t → ResetInv t

/-- MG_RST_N falling discards the held low word and the snapshot and changes nothing else of the block; its rising changes only its own level; while it is low a word access is not offered and changes nothing. FAB_PORST_N falling puts every stored register, double-banked register and unit at its reset value (R374); while it is low a management access completes with MG_ERR 1 and MG_RDATA 0 and changes no register, and every other command leaves the block as it is, but for the level of an input pin that it moves; its rising begins bring-up at S0 at this moment. That input pin levels and TIME stay is the model's choice (log 27). -/
def Obligations.ResetInputsDiscardAndRestore : Prop :=
  (∀ (s : State),
    Next .mgRstNAssert s (fun t => t.mg.held = none ∧ t.mg.snap = none ∧ t.mg.rstN = false ∧ { t with mg := s.mg } = s) ∧
    Next .mgRstNRelease s (fun t => t = { s with mg := { s.mg with rstN := true } }) ∧
    (∀ (a : BitVec 22) (d : BitVec 32), s.mg.porst = true → s.mg.rstN = false →
      Next (.registerWrite a d) s (fun t => t = s) ∧ Next (.lowWordRead a) s (fun t => t = s))) ∧
  (∀ (s : State),
    Next .fabPorstNAssert s (fun t => t.mg.porst = false ∧ t.mg.held = none ∧ t.mg.snap = none ∧ (∀ off, regGet t off = regReset off) ∧
      (∀ p off, bkGet t p off = bkGet State.reset p off) ∧ t.epoch = {} ∧ t.map = {} ∧ t.mesh = {} ∧ t.trans = {} ∧ t.tnt = {} ∧ t.host = {} ∧
      t.chan = [] ∧ t.slice = {} ∧ t.brg = {} ∧ t.mc = {} ∧ t.red = {} ∧ t.all = {} ∧ t.sync = {} ∧ t.dorm = {} ∧ t.obs = {} ∧ t.flt = {} ∧
      t.bup = {} ∧ t.tbl = {} ∧ t.port = { inRst := s.port.inRst } ∧ t.pwr = { warnPin := s.pwr.warnPin } ∧ t.hall = macLevels s) ∧
    (s.mg.porst = false →
      Next .fabPorstNRelease s (fun t => t.mg.porst = true ∧ t.regs = s.regs ∧ t.bup = { s.bup with startAt := s.time }) ∧
      (∀ (a : BitVec 22) (d : BitVec 32),
        Next (.registerWrite a d) s (fun t => t.mg.err = true ∧ t.mg.rdata = 0 ∧ { t with mg := s.mg } = s) ∧
        Next (.lowWordRead a) s (fun t => t.mg.err = true ∧ t.mg.rdata = 0 ∧ { t with mg := s.mg } = s)) ∧
      (∀ c : Instr, movesMg c = false → movesPin c = false → Next c s (fun t => { t with mg := s.mg } = s)) ∧
      (∀ c : Instr, movesPin c = true →
        Next c s (fun t => { t with mg := s.mg, port := s.port, hall := s.hall, pwr := s.pwr } = s ∧
          { t.port with inRst := s.port.inRst } = s.port ∧ { t.pwr with warnPin := s.pwr.warnPin } = s.pwr))))

/-- A write of a low word is held and changes no register. A write of the high word of the same register takes effect with the held word as one 64-bit write under the access types of the register; without a held word it writes bits [63:32] only. Every other register keeps its value, and the held word is used up. Said of registers without effects of their own; rows of their own have their own statements. A read of a low word answers the low half of the register and captures all its 64 bits; a register without RC fields is not changed. A read of the high word answers the high half of the snapshot taken of the same register, else the live half, and leaves the snapshot in place. OBS_DUMP_DATA and FLT_EVPOP[3] have rows of their own. A low-word read of a register with RC fields answers the value before and clears those fields to their reset value; a register whose fields live in the event collector clears there; every other register keeps its value. -/
def Obligations.RegisterWordAccesses : Prop :=
  (∀ (s : State) (a : BitVec 22) (d : BitVec 32), MgServed s (wordReg a) →
    (wordHigh a = false →
      Next (.registerWrite a d) s (fun t => t.mg.held = some (wordReg a, d) ∧ t.mg.err = false ∧ body t = body s)) ∧
    (∀ i, wordHigh a = true → regInfo (wordReg a) = some i →
      wordReg a ∈ [0x18, 0xA00, 0x1028, 0x1040, 0x1048, 0x2000, 0x4008, 0x4020, 0x4038, 0xB0000, 0xB8000, 0xC0400, 0xC0880, 0xD1000] →
      (∀ lo, s.mg.held = some (wordReg a, lo) →
        Next (.registerWrite a d) s (fun t =>
          regGet t (wordReg a) = regWritten i allBits (regGet s (wordReg a)) (mk 32 32 d.toNat ||| mk 0 32 lo.toNat) ∧
          (∀ off, off ≠ wordReg a → regGet t off = regGet s off) ∧ t.mg.held = none ∧ t.mg.err = false)) ∧
      ((∀ lo, s.mg.held ≠ some (wordReg a, lo)) →
        Next (.registerWrite a d) s (fun t =>
          regGet t (wordReg a) = regWritten i highBits (regGet s (wordReg a)) (mk 32 32 d.toNat) ∧
          (∀ off, off ≠ wordReg a → regGet t off = regGet s off) ∧ t.mg.err = false)))) ∧
  (∀ (s : State) (a : BitVec 22), MgServed s (wordReg a) → wordReg a ≠ 0xC0888 → wordReg a ≠ 0x1078 →
    (∀ i, wordHigh a = false → regInfo (wordReg a) = some i → i.rc = 0 →
      Next (.lowWordRead a) s (fun t => t.mg.rdata = BitVec.ofNat 32 (fld (regLive s (wordReg a)) 0 32) ∧ t.mg.err = false ∧
        t.mg.snap = some (wordReg a, regLive s (wordReg a)) ∧ body t = body s)) ∧
    (∀ w, wordHigh a = true → (regInfo (wordReg a)).isSome = true → s.mg.snap = some (wordReg a, w) →
      Next (.lowWordRead a) s (fun t => t.mg.rdata = BitVec.ofNat 32 (fld w 32 32) ∧ t.mg.snap = s.mg.snap ∧ body t = body s)) ∧
    (wordHigh a = true → (regInfo (wordReg a)).isSome = true → (∀ w, s.mg.snap ≠ some (wordReg a, w)) →
      Next (.lowWordRead a) s (fun t => t.mg.rdata = BitVec.ofNat 32 (fld (regLive s (wordReg a)) 32 32) ∧
        t.mg.snap = s.mg.snap ∧ body t = body s))) ∧
  (∀ (s : State) (a : BitVec 22), MgServed s (wordReg a) → wordHigh a = false →
    (∀ i, regInfo (wordReg a) = some i → i.rc ≠ 0 → wordReg a ≠ 0x1000 → wordReg a ≠ 0x1020 →
      Next (.rcRegisterRead a) s (fun t => t.mg.rdata = BitVec.ofNat 32 (fld (regLive s (wordReg a)) 0 32) ∧
        t.mg.snap = some (wordReg a, regLive s (wordReg a)) ∧
        regGet t (wordReg a) = merge i.rc (regGet s (wordReg a)) i.reset ∧ (∀ off, off ≠ wordReg a → regGet t off = regGet s off))) ∧
    (wordReg a = 0x1000 →
      Next (.rcRegisterRead a) s (fun t => t.mg.snap = some (0x1000, fltSummary s) ∧ t.flt.nFatal = 0 ∧ t.flt.nCont = 0 ∧ t.flt.nCorr = 0 ∧
        fltSummary t = 0 ∧ t.regs = s.regs)) ∧
    (wordReg a = 0x1020 →
      Next (.rcRegisterRead a) s (fun t => t.mg.snap = some (0x1020, fltEvq s) ∧ t.flt.drops = 0 ∧ t.flt.merges = 0 ∧
        t.flt.fifo = s.flt.fifo ∧ t.regs = s.regs)))

/-- At every word offset of the set-up window whose register the map does not list, in no girdled stand's window, a read of either word answers 0 with MG_ERR 0, and a write of either word changes nothing of the block but the management port's held word, so that it raises no event either. -/
def Obligations.NoRegisterStandsThere : Prop :=
  ∀ (s : State) (a : BitVec 22) (d : BitVec 32), MgServed s (wordReg a) → regInfo (wordReg a) = none →
    Next (.lowWordRead a) s (fun t => t.mg.rdata = 0 ∧ t.mg.err = false ∧ body t = body s) ∧
    Next (.registerWrite a d) s (fun t => t.mg.err = false ∧ body t = body s)

/-- With no ring named for STAGE records: the report of S0 with both rails inside their windows makes S1 the running stage from that moment on and puts the STAGE record into BUP_LOG[0]; a stand whose rail is outside halts bring-up with HCAUSE 1 and HLOC that stand; a missing manufacture record halts S1 with HCAUSE 2; the report of S7 completes bring-up; a report after a halt changes nothing of bring-up. While S1 runs, its liveness deadline moves TIME to 20 µs after the stage began where it is not there yet; every stand from which no neighbour has heard in the last 1 µs is girdled then, and every stand girdled before stays girdled. In any other stage nothing happens. In S5 the end of the march of a tier begins its first retention pause of 88 s, or 9.5 s in a quick test, unless PWR_DROOP_WARN is asserted, when the march is repeated; the end of the first pause begins the second, the end of the second the repair. On a die with no girdled stand, the report of tier 0 without failures releases the banks 0 to 15 of every stand, FREE where they were not in service before, and begins the march of tier 1; that of tier 1 does so with banks 16 to 31 and completes the test. -/
def Obligations.BringUpRunsItsStagesAndTests : Prop :=
  (∀ (s : State) (r : StageReport), Up s → regBit s 0x2100 63 = false →
    (s.bup.reported = 0 → s.bup.halted = false → r.railBad = none →
      Next (.bringupStageReport r) s (fun t => t.bup.reported = 1 ∧ t.bup.halted = false ∧ t.time = max s.time (s.bup.startAt + r.elapsed) ∧
        t.bup.startAt = t.time ∧ fld (regGet t 0x2200) 0 8 = 3 ∧ fld (regGet t 0x2200) 32 32 = 0xFFFFFE00 ∧ t.map = s.map)) ∧
    (∀ st, s.bup.reported = 0 → s.bup.halted = false → r.railBad = some st →
      Next (.bringupStageReport r) s (fun t => t.bup.halted = true ∧ t.bup.hcause = 1 ∧ t.bup.hloc = st.val ∧ t.bup.reported = 0)) ∧
    (s.bup.reported = 1 → s.bup.halted = false → r.manuf = none →
      Next (.bringupStageReport r) s (fun t => t.bup.halted = true ∧ t.bup.hcause = 2 ∧ t.bup.reported = 1)) ∧
    (s.bup.reported = 7 → s.bup.halted = false →
      Next (.bringupStageReport r) s (fun t => t.bup.reported = 8 ∧ t.bup.halted = false)) ∧
    (s.bup.halted = true → Next (.bringupStageReport r) s (fun t => t.bup = s.bup ∧ t.regs = s.regs ∧ t.map = s.map))) ∧
  (∀ (s : State), Up s →
    (stageRuns s 1 = true →
      Next .s1LivenessDeadline s (fun t => s.time ≤ t.time ∧ s.bup.startAt + 20000 ≤ t.time ∧
        (∀ st : StandId, alive (advanceTo s (s.bup.startAt + 20000)) st.val = false → girdled t st.val = true) ∧
        (∀ n, girdled s n = true → girdled t n = true))) ∧
    (stageRuns s 1 = false → Next .s1LivenessDeadline s (fun t => body t = body s))) ∧
  (∀ (s : State), Up s → stageRuns s 5 = true →
    (s.bup.sphase = 0 → s.pwr.warnPin = false →
      Next .memoryTestMarchComplete s (fun t => t.bup.sphase = 1 ∧ t.bup.passes = 0 ∧
        t.bup.pauseEnd = s.time + (if s.bup.quick then 9500000000 else 88000000000))) ∧
    (s.bup.sphase = 0 → s.pwr.warnPin = true → Next .memoryTestMarchComplete s (fun t => body t = body s)) ∧
    (s.bup.sphase = 1 → s.bup.passes = 0 →
      Next .memoryTestRetentionPauseEnd s (fun t => t.bup.sphase = 1 ∧ t.bup.passes = 1 ∧ t.time = max s.time s.bup.pauseEnd ∧
        t.bup.pauseEnd = t.time + (if s.bup.quick then 9500000000 else 88000000000))) ∧
    (s.bup.sphase = 1 → 1 ≤ s.bup.passes →
      Next .memoryTestRetentionPauseEnd s (fun t => t.bup.sphase = 2 ∧ t.time = max s.time s.bup.pauseEnd)) ∧
    (s.bup.sphase = 2 → s.bup.tier = 0 → s.bup.away = [] → s.map.gstand = 0 →
      Next (.memoryTestTierReport []) s (fun t => t.bup.sphase = 0 ∧ t.bup.tier = 1 ∧ t.bup.waiting = [] ∧
        ∀ (st : StandId) (b : Nat), b < 16 → ownReleased (ownReg t st.val b) = true ∧
          (ownReleased (ownReg s st.val b) = false → ownKind (ownReg t st.val b) = 0))) ∧
    (s.bup.sphase = 2 → s.bup.tier = 1 → s.bup.waiting = [] → s.bup.away = [] → s.map.gstand = 0 →
      Next (.memoryTestTierReport []) s (fun t => t.bup.sphase = 3 ∧
        ∀ (st : StandId) (b : Nat), 16 ≤ b → b < 32 → ownReleased (ownReg t st.val b) = true ∧
          (ownReleased (ownReg s st.val b) = false → ownKind (ownReg t st.val b) = 0))))

/-- A write of GLB_SELF takes effect while SET is 0 and has none once SET is 1; a write of BUP_CTL that does not newly set NEN takes NEN, NENTRY and QUICK, the reserved bits reading 0; neither changes another register. A write of MAP_COPPICE that R58, R308 or stage S5 refuses leaves every entry and raises one TABLE WRITE_REFUSED event; one of an entry under a re-home waits; any other changes exactly that entry of the collector's copy and sends one re-home command. A hub in service that receives the command changes exactly that entry of its own copy and no other hub's. -/
def Obligations.SelfNotifyAndCoppiceRegisters : Prop :=
  (∀ (s : State) (v : Word), Up s → s.mg.rstN = true →
    (regBit s 0x10 63 = false →
      Next (.glbSelfWrite v) s (fun t => regGet t 0x10 = merge (mask 63 1 ||| mask 0 20) (regGet s 0x10) v ∧
        ∀ off, off ≠ 0x10 → regGet t off = regGet s off)) ∧
    (regBit s 0x10 63 = true → Next (.glbSelfWrite v) s (fun t => body t = body s)) ∧
    ((bitAt v 63 = false ∨ regBit s 0x2100 63 = true) →
      Next (.bupNotifyEnable v) s (fun t => regGet t 0x2100 = merge (mask 63 1 ||| mask 48 12 ||| mask 0 1) (regGet s 0x2100) v ∧
        ∀ off, off ≠ 0x2100 → regGet t off = regGet s off))) ∧
  (∀ (s : State) (n : Fin 1536) (v : Word), Up s →
    (∀ new, s.mg.rstN = true → new = merge (mask 32 3 ||| mask 24 6 ||| mask 16 6 ||| mask 8 6 ||| mask 0 6) (coppice s n.val) v →
      (inS5 s || coppiceBad s n.val new) = true →
        Next (.coppiceWrite n v) s (fun t => t.map = s.map ∧ t.flt.inbox.map (fun e => (e.family, e.cause)) =
          s.flt.inbox.map (fun e => (e.family, e.cause)) ++ [(cWriteRefused.family, cWriteRefused.cause)])) ∧
    (∀ new, s.mg.rstN = true → new = merge (mask 32 3 ||| mask 24 6 ||| mask 16 6 ||| mask 8 6 ||| mask 0 6) (coppice s n.val) v →
      (inS5 s || coppiceBad s n.val new) = false → oget s.map.rehomes n.val = none →
        Next (.coppiceWrite n v) s (fun t => coppice t n.val = new ∧ (∀ m, m ≠ n.val → coppice t m = coppice s m) ∧
          t.out = .rhz (.rehome n.val new) :: s.out ∧ t.flt = s.flt)) ∧
    (∀ new, s.mg.rstN = true → new = merge (mask 32 3 ||| mask 24 6 ||| mask 16 6 ||| mask 8 6 ||| mask 0 6) (coppice s n.val) v →
      (inS5 s || coppiceBad s n.val new) = false → (oget s.map.rehomes n.val).isSome = true →
        Next (.coppiceWrite n v) s (fun t => (∀ m : Fin 1536, coppice t m.val = coppice s m.val) ∧ t.map.waiting = s.map.waiting ++ [(n.val, new)] ∧
          t.out = s.out ∧ t.flt = s.flt)) ∧
    (∀ st : StandId, girdled s st.val = false → noPath s st.val = false →
      Next (.rehomeCommandReceive st n v) s (fun t => hubCoppice t st.val n.val = v ∧
        (∀ (st' : StandId) (m : Fin 1536), st' ≠ st ∨ m ≠ n → hubCoppice t st'.val m.val = hubCoppice s st'.val m.val))))

/-- While the epoch controller is IDLE, a write of a tier-map entry, of a route entry without a reserved port and of an exit entry with a legal KIND changes exactly that entry of the staged bank and nothing of the active bank; a route write with a reserved port, and an exit write with a reserved KIND or, on E1 or E3 with KIND 0, with MASK bit 6 or 7, has no effect but a TABLE WRITE_REFUSED event. -/
def Obligations.StagedTablesAreWrittenInIdle : Prop :=
  ∀ (s : State) (v : Word), Up s → s.mg.rstN = true → s.epoch.phase = .idle →
    let only (t : State) (off : Nat) : Prop := ∀ x, x < 16777216 → bkGet t (parity s) x = bkGet s (parity s) x ∧
      (x ≠ off → bkGet t (!parity s) x = bkGet s (!parity s) x)
    (∀ (tier : Fin 4) (n : Fin 1024), n.val < tierSize tier.val →
      Next (.tierMapStagedWrite tier n v) s (fun t =>
        bkGet t (!parity s) (tierOff false tier.val n.val) =
          merge (mask 63 1 ||| mask 0 (tierBits tier.val)) (bkGet s (!parity s) (tierOff false tier.val n.val)) v ∧
        only t (tierOff false tier.val n.val))) ∧
    (∀ (st d : StandId) (new : Word), girdled s st.val = false → regBit s (stdOff st 0) 0 = false →
      new = merge (mask 0 3 ||| mask 4 3 ||| mask 8 3 ||| mask 12 3) (bkGet s (!parity s) (stdOff st (0x200 + d.val * 8))) v →
      ((∀ p, p < 4 → fld new (p * 4) 3 ≠ 5 ∧ fld new (p * 4) 3 ≠ 6) →
        Next (.stdRouteWrite st d v) s (fun t => bkGet t (!parity s) (stdOff st (0x200 + d.val * 8)) = new ∧
          only t (stdOff st (0x200 + d.val * 8)))) ∧
      ((∃ p, p < 4 ∧ (fld new (p * 4) 3 = 5 ∨ fld new (p * 4) 3 = 6)) →
        Next (.stdRouteWrite st d v) s (fun t => t.banked = s.banked ∧ t.flt.inbox.length = s.flt.inbox.length + 1))) ∧
    (∀ (n : Fin 45) (new : Word), new = merge (mask 63 1 ||| mask 0 12) (bkGet s (!parity s) (0x200 + n.val * 8)) v →
      (fld new 10 2 = 1 ∨ (fld new 10 2 = 0 ∧ (fld new 8 2 % 2 = 0 ∨ fld new 6 2 = 0)) →
        Next (.glbExitWrite n v) s (fun t => bkGet t (!parity s) (0x200 + n.val * 8) = new ∧
          only t (0x200 + n.val * 8))) ∧
      (2 ≤ fld new 10 2 ∨ (fld new 10 2 = 0 ∧ (fld new 8 2 = 1 ∨ fld new 8 2 = 3) ∧ fld new 6 2 ≠ 0) →
        Next (.glbExitWrite n v) s (fun t => t.banked = s.banked ∧ t.flt.inbox.length = s.flt.inbox.length + 1)))

/-- While the epoch controller is in FLIPPING, DRAINING or COPYING, a write of any STD_ROUTE or STD_SKID register of a stand in service and of any GLB_EXIT register changes nothing of the block. -/
def Obligations.StagedWritesOutsideIdleHaveNoEffect : Prop :=
  ∀ (s : State), Up s → s.mg.rstN = true → s.epoch.phase ≠ .idle →
    (∀ (st d : StandId) (v : Word), girdled s st.val = false → Next (.stdRouteWrite st d v) s (fun t => body t = body s)) ∧
    (∀ (n : Fin 45) (v : Word), Next (.glbExitWrite n v) s (fun t => body t = body s)) ∧
    (∀ (a : BitVec 22) (x : BitVec 32) (st : StandId) (o : Nat), standWindow (wordReg a) = some (st, o) → 0x800 ≤ o → o < 0x1000 →
      girdled s st.val = false → Next (.registerWrite a x) s (fun t => body t = body s))

/-- A request in IDLE counts EPOCH up by 1 and broadcasts FLIP; a request in any other state sets PENDING only; a stand in service takes FLIP once and acknowledges it; when the last stand in service has acknowledged, the drain count starts; when the drain condition holds, copying starts; 150 µs after the request without it, STUCK is set and one ROUTER event raised, once; the end of the copy clears STUCK and records the duration, and goes to IDLE, or to FLIPPING of the next epoch where PENDING was set. In COPYING, the end of the copy leaves the staged bank equal to the active bank in every register of the set-up window. -/
def Obligations.EpochSwitchAndItsCopy : Prop :=
  (∀ (s : State), Up s →
    (∀ v, s.mg.rstN = true → bitAt v 0 = true → s.epoch.phase = .idle →
      Next (.epochSwitchRequest v) s (fun t => t.epoch.phase = .flipping ∧ t.epoch.epoch = s.epoch.epoch + 1 ∧ t.epoch.acked = [] ∧
        t.out = .rhz .flip :: s.out ∧
        (∀ off, off < 16777216 → bkGet t (parity s) off = bkGet s (parity s) off) ∧
        (∀ p off, off < 16777216 → bkGet t p off &&& ~~~(mask 61 2) = bkGet s p off &&& ~~~(mask 61 2)))) ∧
    (∀ v, s.mg.rstN = true → bitAt v 0 = true → s.epoch.phase ≠ .idle →
      Next (.epochSwitchRequest v) s (fun t => t.epoch = { s.epoch with pending := true } ∧ t.out = s.out)) ∧
    (∀ st : StandId, s.epoch.phase = .flipping → st ∉ s.epoch.taken → girdled s st.val = false → noPath s st.val = false →
      Next (.flipReceive st) s (fun t => st ∈ t.epoch.taken ∧ t.out = .rhz (.flipAck st) :: s.out ∧ t.epoch.phase = .flipping)) ∧
    (∀ st : StandId, s.epoch.phase = .flipping → st ∈ s.epoch.taken → st ∉ s.epoch.acked →
      Next (.flipAck st) s (fun t => t.epoch.acked = st :: s.epoch.acked ∧
        (t.epoch.phase = .draining ↔ ∀ k : StandId, girdled s k.val = true ∨ k = st ∨ k ∈ s.epoch.acked))) ∧
    (s.epoch.phase = .draining → (drainSums s).1 = (drainSums s).2 → Next .epochDrainComplete s (fun t => t.epoch.phase = .copying ∧ t.banked = s.banked)) ∧
    (s.epoch.phase = .draining → (drainSums s).1 ≠ (drainSums s).2 → Next .epochDrainComplete s (fun t => body t = body s)) ∧
    (s.epoch.phase = .draining → s.epoch.stuck = false →
      Next .epochDrainTimeout s (fun t => t.epoch = { s.epoch with stuck := true } ∧ s.epoch.reqAt + 150000 ≤ t.time ∧
        t.flt.inbox.length = s.flt.inbox.length + 1)) ∧
    (s.epoch.phase = .draining → s.epoch.stuck = true → Next .epochDrainTimeout s (fun t => body t = body s)) ∧
    (s.epoch.phase = .copying → s.epoch.pending = false →
      Next .epochCopyComplete s (fun t => t.epoch.phase = .idle ∧ t.epoch.stuck = false ∧ t.epoch.epoch = s.epoch.epoch ∧
        t.epoch.lastUs.toNat = min 65535 ((s.time - s.epoch.reqAt) / 1000))) ∧
    (s.epoch.phase = .copying → s.epoch.pending = true →
      Next .epochCopyComplete s (fun t => t.epoch.phase = .flipping ∧ t.epoch.pending = false ∧ t.epoch.epoch = s.epoch.epoch + 1))) ∧
  (∀ (s : State), Up s → s.epoch.phase = .copying → s.epoch.pending = false →
    Next .epochCopyComplete s (fun t => ∀ off, off < 16777216 → bkGet t true off = bkGet t false off))

/-- At an input whose link and stand are in service, with room in its VC: a frond whose CHECK fails starts a credit audit and raises one LINK event, and no VC changes; one whose PCHECK fails, or that carries a reserved value, is discarded: one event, one credit back on an inner link, its VC in skip state; a frond that starts a message and whose route has an output is queued behind the VC's fronds for that output and counted as received modulo 16. A credit returned for an inner output counts up to 8 on its VC and leaves the other VCs; the sender's counts at an input under audit end the audit: where exactly one VC differs by exactly 1, its frond is counted as received and its credit given back with the VC in skip state; where none differs, more than one does or one by more than 1, every VC of the input is flushed; a VC that holds a frond without progress for STALL_US raises one ROUTER event per stall and keeps the frond. -/
def Obligations.PlaneInputsAndCredits : Prop :=
  (∀ (s : State) (st : StandId) (pl : PlaneId) (inp : Fin 6) (f : Frond), Up s → inputDead s st.val pl.val inp.val = false →
    frozenAt s st.val = false → auditing s st.val pl.val inp.val = false →
    (checkOk f = false →
      Next (.frondReceive st pl inp f) s (fun t => auditing t st.val pl.val inp.val = true ∧ t.mesh.inv = s.mesh.inv ∧
        t.flt.inbox.length = s.flt.inbox.length + 1 ∧ t.out = s.out)) ∧
    (checkOk f = true → (inVc s st.val pl.val inp.val (stVc f.stem)).q.length < 8 → (pcheckOk f = false ∨ reservedStem f = true) →
      (inVc s st.val pl.val inp.val (stVc f.stem)).opened = none → outwardEdge st.val inp.val = none →
      Next (.frondReceive st pl inp f) s (fun t => (inVc t st.val pl.val inp.val (stVc f.stem)).skip = true ∧
        (inVc t st.val pl.val inp.val (stVc f.stem)).q = (inVc s st.val pl.val inp.val (stVc f.stem)).q ∧
        t.out = .credit st pl inp (stVc f.stem) :: s.out ∧ t.flt.inbox.length = s.flt.inbox.length + 1)) ∧
    (∀ o : Fin 6, checkOk f = true → (inVc s st.val pl.val inp.val (stVc f.stem)).q.length < 8 → pcheckOk f = true → reservedStem f = false →
      startsMsg f.stem = true → routeOf s st pl.val inp.val f = .goes o →
      Next (.frondReceive st pl inp f) s (fun t =>
        (inVc t st.val pl.val inp.val (stVc f.stem)).q = (inVc s st.val pl.val inp.val (stVc f.stem)).q ++ [⟨f, o, false⟩] ∧
        (inVc t st.val pl.val inp.val (stVc f.stem)).recv = ((inVc s st.val pl.val inp.val (stVc f.stem)).recv + 1) % 16 ∧
        (inVc t st.val pl.val inp.val (stVc f.stem)).skip = false ∧ t.out = s.out ∧ t.flt = s.flt))) ∧
  (∀ (s : State) (st : StandId) (pl : PlaneId), Up s → frozenAt s st.val = false →
    (∀ (outp : Fin 6) (vc : Fin 8), outwardEdge st.val outp.val = none →
      Next (.creditReturn st pl outp vc) s (fun t => (outPort t st.val pl.val outp.val).credits =
        (outPort s st.val pl.val outp.val).credits.set vc.val (min 8 ((outPort s st.val pl.val outp.val).credits.getD vc.val 8 + 1)) ∧
        t.mesh.inv = s.mesh.inv ∧ t.out = s.out)) ∧
    (∀ (outp : Fin 6) (vc : Fin 8) (e : Nat), outwardEdge st.val outp.val = some e →
      Next (.creditReturn st pl outp vc) s (fun t => (edgeVc t e (edgePos e st.val) pl.val vc.val).credits =
        min 32 ((edgeVc s e (edgePos e st.val) pl.val vc.val).credits + 1) ∧ t.mesh = s.mesh ∧ t.out = s.out)) ∧
    (∀ (inp : Fin 6) (counts : BitVec 32) (vc : Nat), auditing s st.val pl.val inp.val = true → auditDiff s st.val pl.val inp.val counts = [(vc, 1)] →
      outwardEdge st.val inp.val = none →
      Next (.creditAuditCounts st pl inp counts) s (fun t => auditing t st.val pl.val inp.val = false ∧
        (inVc t st.val pl.val inp.val vc).skip = true ∧ (inVc t st.val pl.val inp.val vc).recv = ((inVc s st.val pl.val inp.val vc).recv + 1) % 16 ∧
        t.out = .credit st pl inp vc :: s.out)) ∧
    (∀ (inp : Fin 6) (counts : BitVec 32), auditing s st.val pl.val inp.val = true → (∀ vc, auditDiff s st.val pl.val inp.val counts ≠ [(vc, 1)]) →
      Next (.creditAuditCounts st pl inp counts) s (fun t => auditing t st.val pl.val inp.val = false ∧
        (∀ vc, vc < 8 → (inVc t st.val pl.val inp.val vc).q.length ≤ 1 ∧ (inVc t st.val pl.val inp.val vc).opened = none ∧
          (inVc t st.val pl.val inp.val vc).recv = 0) ∧ t.out = .flushed st pl inp :: s.out ∧ t.flt.inbox.length = s.flt.inbox.length + 1)) ∧
    (∀ (inp : Fin 6) (vc : Fin 8), girdled s st.val = false → (inVc s st.val pl.val inp.val vc.val).q ≠ [] →
      ((inVc s st.val pl.val inp.val vc.val).stalled = false →
        Next (.stallDetect st pl inp vc) s (fun t => (inVc t st.val pl.val inp.val vc.val).stalled = true ∧
          (inVc t st.val pl.val inp.val vc.val).q = (inVc s st.val pl.val inp.val vc.val).q ∧
          (inVc s st.val pl.val inp.val vc.val).since + stallNs s st ≤ t.time ∧ t.flt.inbox.length = s.flt.inbox.length + 1)) ∧
      ((inVc s st.val pl.val inp.val vc.val).stalled = true → Next (.stallDetect st pl inp vc) s (fun t => body t = body s))))

/-- At a stand in service whose hall port, if it has one, holds no frond back, for every output: where an express frond may go, the head of its input's queue leaves, and the handshake counts as an express one, no deficit of DRR or of a share class changing; else, where a VC 2 frond waits that has a credit and that the shaper of its source slot lets go, its head leaves and that shaper gives 64 of its 64ths of a frond; else, where a VC waits that has a credit and room under the caps of VC 6, the VC that the DRR of R93 runs to, with the quanta of the stand's registers, sends its head, and the deficits are those of that run. On VC 0 and VC 1 that head is of the message that holds the VC, whose class it charges 64, or, with no holder, one of the class that the arbitration of R133 runs to, with the classes' quanta, which it charges 64; the class state of the other VC is as before. What leaves is counted: one credit returns to an inner input where the head is no abort tail of the router's own, an inner output gives one of its credits of that VC, and of the hub output the last frond of a message has the hub put the message together. Where nothing waits on any VC of an output, no frond is sent, no queue changes and the handshake is recorded as not express: an inner output sends nothing, an outward one whose module is UP, with nothing waiting on the module's other plane either, in a die not in the fatal safe state, sends an IDLE slot. That the round robin of an output has one pointer is the model's choice (log 87), as are which VC counts as empty while a message holds it (log 88) and the accrual per handshake (log 108). -/
def Obligations.OutputsArbitrateExpressThenVc2ThenDrr : Prop :=
  ∀ (s : State) (st : StandId) (pl : PlaneId) (outp : Fin 6), Up s → girdled s st.val = false → frozenAt s st.val = false →
    (∀ h, tapHall st.val = some h → (hallAt s h.val).later = []) →
    let p : OutPort := outPort s st.val pl.val outp.val
    let a : State := skidAccrue s st pl.val outp.val
    let q (t : State) : OutPort := outPort t st.val pl.val outp.val
    let sent (t : State) (vc : Nat) (i : Fin 6) (h : QFrond) : Prop :=
      let o := .frond st pl outp vc h.f :: (if h.own then s.out else .credit st pl i vc :: s.out)
      (outwardEdge st.val i.val = none → (outp.val = 4 → t.out = o ∨ (stKind h.f.stem ≠ 1 ∧ stKind h.f.stem ≠ 2 ∧
          ∃ m, t.out = .whole st m :: o ∨ t.out = .msg st (unitCode (.hub st)) m :: o)) ∧
        ((neighbour st.val outp.val).isSome = true → t.out = o)) ∧
      ((neighbour st.val outp.val).isSome = true → (q t).credits = p.credits.set vc (p.credits.getD vc 0 - 1))
    (∀ (vc : Nat) (i : Fin 6) (h : QFrond) (r : List QFrond), expressPick s st.val pl.val outp.val = some (vc, i) →
      (inVc s st.val pl.val i.val vc).q = h :: r →
      Next (.outputArbitrate st pl outp) s (fun t => (inVc t st.val pl.val i.val vc).q = r ∧ sent t vc i h ∧ (q t).hist.head? = some true ∧
        ((q t).deficit, (q t).cur, (q t).fresh, (q t).sh0, (q t).sh1) = (p.deficit, p.cur, p.fresh, p.sh0, p.sh1))) ∧
    (∀ (i : Fin 6) (h : QFrond) (r : List QFrond), expressPick s st.val pl.val outp.val = none → creditOk s st.val pl.val outp.val 2 = true →
      pickInput a st.val pl.val outp.val 2 (skidReady a st pl.val outp.val) = some i → (inVc s st.val pl.val i.val 2).q = h :: r →
      Next (.outputArbitrate st pl outp) s (fun t => (inVc t st.val pl.val i.val 2).q = r ∧ sent t 2 i h ∧ (q t).hist.head? = some false ∧
        (∀ j, skidSource a st pl.val outp.val i h.f = some j → skidTokens t st.val j = skidTokens a st.val j - 64))) ∧
    (expressPick s st.val pl.val outp.val = none →
      (creditOk s st.val pl.val outp.val 2 = false ∨ pickInput a st.val pl.val outp.val 2 (skidReady a st pl.val outp.val) = none) →
      (∃ v ∈ drrRing, vcWaiting s st.val pl.val outp.val v = true ∧ drrOpen s st.val pl.val outp.val v = true) →
      Next (.outputArbitrate st pl outp) s (fun t => ∃ (v : Nat) (d : Drr) (i : Fin 6) (h : QFrond) (r : List QFrond),
        DrrRun (vcWaiting s st.val pl.val outp.val) (drrOpen s st.val pl.val outp.val) (quantum s st) ⟨p.deficit, p.cur, p.fresh⟩ v d ∧
        ((q t).deficit, (q t).cur, (q t).fresh) = (d.deficit, d.cur, d.fresh) ∧ (q t).hist.head? = some false ∧
        (inVc s st.val pl.val i.val v).q = h :: r ∧ h.outp = outp ∧ (inVc t st.val pl.val i.val v).q = r ∧ sent t v i h ∧
        (v ≠ 0 → (q t).sh0 = p.sh0) ∧ (v ≠ 1 → (q t).sh1 = p.sh1) ∧
        ((v = 0 ∨ v = 1) →
          (∀ j, p.holder.getD v none = some j → i = j ∧ shareOfVc (q t) v = charged (shareOfVc p v) (heldClass p v)) ∧
          (p.holder.getD v none = none → ∃ x : ShareSt, ShareRun (fun c => (pickInput s st.val pl.val outp.val v (fun _ f => classOf s st f == c)).isSome)
            (squantum s st) (shareOfVc p v) x ∧ classOf s st h.f = x.cur ∧ shareOfVc (q t) v = charged x x.cur)))) ∧
    ((∀ inp vc, headFor s st.val pl.val inp vc outp.val = none) →
      Next (.outputArbitrate st pl outp) s (fun t => t.mesh.inv = s.mesh.inv ∧ (q t).hist = (false :: p.hist).take 80 ∧
        (outwardEdge st.val outp.val = none → t.out = s.out) ∧
        (∀ (e : Fin 4) (m : Fin 16), outwardEdge st.val outp.val = some e.val → m.val = moduleOf (edgePos e.val st.val) pl.val →
          (∀ inp vc, headFor s st.val (pl.val / 2 * 2 + (1 - pl.val % 2)) inp vc outp.val = none) →
          (modAt s e.val m.val).state = .up → fatalLatched s = false →
          t.out = .slot e m idleSlot :: s.out)))

/-- For a whole request of this die, not marked red, at the hub of its home. With no entry, a message without OPEN is discarded and answered NACK NO_FLOW, one that finds the table full NACK BUSY. Behind E it is a duplicate: nothing is stored, E stays, the acknowledgement goes out again, then RATE_EXCEEDED for a refused SEQ, the held result of an ATOMIC, the status that the checks give its address now for a WRITE with DELIVERED into slice memory, the data again of a READ_REQ. Ahead of E without OPEN it is discarded, with a NACK GAP where one is due. Taken, as the first of its flow, as E itself or as a new incarnation, E becomes SEQ + 1; in slice memory, within one word that reads clean, in a bank without a twin or the dual-port region, where the home serves it: a WRITE stores exactly its bytes, those of an alias the OR or the clearing of its data, acknowledged after the 8th or answered OK with DELIVERED; a READ_REQ through any alias is answered with the bytes, or POISON with free bytes for a poisoned word; an ATOMIC stores its result, answers the bytes before and holds them for a duplicate. What R302 refuses is answered so and stores nothing; a bank in retention answers NACK BUSY. 200 ns after the oldest acceptance not yet acknowledged, the acknowledgement goes out and none is owed. That an acceptance answered at once counts neither for the 8 nor for the 200 ns is the model's choice (log 112). -/
def Obligations.MessagesAreTakenInSequence : Prop :=
  ∀ (s : State) (st : StandId), Up s →
    let nack (t : State) (k : FlowKey) (reason : Nat) : Prop := ∃ e r x, IsAck k e reason r x ∧ HubSent s t st [x]
    let again (t : State) (m : Msg) (e : RecvEntry) (r : Status) (d : List Byte) : Prop :=
      ∃ x y, IsAck e.key e.e 0 e.rmask x ∧ IsRsp m r d y ∧ HubSent s t st [y, x]
    let word (m : Msg) (w : Bool) (bank off n : Nat) : Prop := aSpace m.dest = 0 ∧ memBad m = false ∧ lengthBad m = none ∧ inHold s st m = false ∧
      isSend m = false ∧ 1 ≤ n ∧ off % 32 + n ≤ 32 ∧
      ((serveHome st w s m.dest = .dp st.val ∧ bank = dpBank ∧ off = aDpByte m.dest ∧ dpRefuse s st m.tenant off n = none) ∨
       (bank < 34 ∧ serveHome st w s m.dest = .bank st.val bank ∧ settledHome s w m.dest (.bank st.val bank) = .bank st.val bank ∧ off = aByte m.dest ∧
        bankRefuse s st.val bank m.tenant = none ∧ ownRstate (ownReg s st.val bank) = 0 ∧ twinOf s st.val bank = none))
    let only (t : State) (bank off n : Nat) (d : List Byte) : Prop := memBytes t st.val bank off n = d ∧
      (∀ (st' : StandId) (bank' b : Nat), bank' < 35 → b < 2 ^ 21 → st' ≠ st ∨ bank' ≠ bank ∨ b < off ∨ off + n ≤ b →
        memByte t st'.val bank' b = memByte s st'.val bank' b)
    (∀ m : Msg, AtHub s st m → FromThisDie s m → m.colour ≠ red →
      (findEntry s st (keyOf m) = none → (¬ TableRoom s st ∨ m.openFl = false) → Next (.messageArrival st m) s (fun t =>
        nack t (keyOf m) (if ((recvTable s st).filter (entryLive s)).length < 4096 then 2 else 3) ∧ t.slice = s.slice ∧ t.trans = s.trans ∧ t.flt = s.flt)) ∧
      (∀ (e : RecvEntry) (i : Nat), findEntry s st (keyOf m) = some e → isBehind e.e m.seq = true → i = (e.e - 1 - m.seq).toNat →
        let kept (t : State) : Prop := t.slice = s.slice ∧ (recvTable t st).head? = some { e with last := s.time, unacked := 0 }
        (i < 32 → bitAt e.rmask i = true → Next (.messageArrival st m) s (fun t => kept t ∧ again t m e .rateExceeded [])) ∧
        (¬ (i < 32 ∧ bitAt e.rmask i = true) →
          (m.op = opWrite → aSpace m.dest ≠ 1 → m.delivered = false → Next (.messageArrival st m) s (fun t => kept t ∧
            ∃ x, IsAck e.key e.e 0 e.rmask x ∧ HubSent s t st [x])) ∧
          (∀ r d, m.op = opAtomic → e.atom = some (m.seq, r, d) → Next (.messageArrival st m) s (fun t => kept t ∧ again t m e r d)) ∧
          (∀ bank off, m.op = opWrite → m.delivered = true → m.data.length = m.len.toNat → word m true bank off m.data.length →
            Next (.messageArrival st m) s (fun t => kept t ∧ again t m e .ok [])) ∧
          (∀ (b : Nat) (r : Status), m.op = opWrite → m.delivered = true → isSend m = false → memBad m = false → aSpace m.dest = 0 →
            m.data.length = m.len.toNat → 1 ≤ m.data.length → aByte m.dest + m.data.length ≤ 2 ^ 21 → serveHome st true s m.dest = .bank st.val b →
            settledHome s true m.dest (.bank st.val b) = .bank st.val b → bankRefuse s st.val b m.tenant = some r →
            Next (.messageArrival st m) s (fun t => kept t ∧ again t m e r [])) ∧
          (∀ bank off, m.op = opReadReq → word m false bank off (msgBytes m) → wordSt s st.val bank (off / 32) = .clean →
            Next (.messageArrival st m) s (fun t => kept t ∧ again t m e .ok (memBytes s st.val bank off (msgBytes m)))))) ∧
      (∀ e : RecvEntry, findEntry s st (keyOf m) = some e → m.seq ≠ e.e → isBehind e.e m.seq = false → m.openFl = false →
        (gapDue s e m = true → Next (.messageArrival st m) s (fun t => t.slice = s.slice ∧
          (recvTable t st).head? = some { e with last := s.time, gapAt := some s.time, unacked := 0 } ∧
          ∃ x, IsAck e.key e.e 1 e.rmask x ∧ HubSent s t st [x])) ∧
        (gapDue s e m = false → Next (.messageArrival st m) s (fun t => t.slice = s.slice ∧ t.out = s.out ∧
          (recvTable t st).head? = some { e with last := s.time }))) ∧
      (∀ e : RecvEntry, TakenAs s st m e → e.unacked < 8 →
        let took (t : State) (m : Msg) : Prop := (recvTable t st).head?.map (fun x => (x.key, x.e, x.rmask, x.unacked)) =
          some (keyOf m, m.seq + 1, e.rmask <<< 1, e.unacked)
        (∀ bank off old, m.op = opWrite → m.data.length = m.len.toNat → word m true bank off m.data.length → old = memBytes s st.val bank off m.data.length →
          (wordSt s st.val bank (off / 32) = .clean ∨ (aAlias m.dest = 0 ∧ m.data.length = 32)) →
          Next (.messageArrival st m) s (fun t => wordSt t st.val bank (off / 32) = .clean ∧
            only t bank off m.data.length (if aAlias m.dest = 0 then m.data else if aAlias m.dest = 1 then bitSetOp m.data old else bitClearOp m.data old) ∧
            (m.delivered = true → took t m ∧ ∃ y, IsRsp m .ok [] y ∧ HubSent s t st [y]) ∧
            (m.delivered = false → (recvTable t st).head? = some { e with
                e := m.seq + 1, last := s.time, rmask := e.rmask <<< 1, unacked := if 8 ≤ e.unacked + 1 then 0 else e.unacked + 1,
                oldest := if e.unacked = 0 then s.time else e.oldest } ∧
              (e.unacked + 1 < 8 → t.out = s.out) ∧
              (8 ≤ e.unacked + 1 → ∃ x, IsAck (keyOf m) (m.seq + 1) 0 (e.rmask <<< 1) x ∧ HubSent s t st [x])))) ∧
        (∀ bank off, m.op = opReadReq → word m false bank off (msgBytes m) →
          (wordSt s st.val bank (off / 32) = .clean → Next (.messageArrival st m) s (fun t => took t m ∧ t.slice = s.slice ∧
            ∃ y, IsRsp m .ok (memBytes s st.val bank off (msgBytes m)) y ∧ HubSent s t st [y])) ∧
          (wordSt s st.val bank (off / 32) = .poison → Next (.messageArrival st m) s (fun t => took t m ∧ t.slice = s.slice ∧
            ∃ y, IsRsp m .poison ((List.range (msgBytes m)).map (fun i => Config.freeByte (s.free + i))) y ∧ HubSent s t st [y]))) ∧
        (∀ bank off old, m.op = opAtomic → m.data.length = m.len.toNat → word m true bank off m.data.length → old = memBytes s st.val bank off m.data.length →
          wordSt s st.val bank (off / 32) = .clean →
          Next (.messageArrival st m) s (fun t => took t m ∧ only t bank off m.data.length (atomicOp (msgOpx m) m.data old) ∧
            (recvTable t st).head?.map (fun x => x.atom) = some (some (m.seq, .ok, old)) ∧ ∃ y, IsRsp m .ok old y ∧ HubSent s t st [y])) ∧
        (∀ (b : Nat) (w : Bool), (m.op = opReadReq ∨ m.op = opWrite ∨ m.op = opAtomic) → w = isWriting m → aSpace m.dest = 0 → memBad m = false → lengthBad m = none →
          inHold s st m = false → isSend m = false → (m.op ≠ opReadReq → m.data.length = m.len.toNat) → 1 ≤ msgBytes m → aByte m.dest + msgBytes m ≤ 2 ^ 21 →
          serveHome st w s m.dest = .bank st.val b → settledHome s w m.dest (.bank st.val b) = .bank st.val b →
          (∀ r, bankRefuse s st.val b m.tenant = some r → Next (.messageArrival st m) s (fun t => took t m ∧ t.slice = s.slice ∧
            ∃ y, IsRsp m r [] y ∧ HubSent s t st [y])) ∧
          (bankRefuse s st.val b m.tenant = none → (ownRstate (ownReg s st.val b) = 2 ∨ ownRstate (ownReg s st.val b) = 3) →
            Next (.messageArrival st m) s (fun t => t.slice = s.slice ∧ nack t (keyOf m) 3))))) ∧
    (∀ (key : FlowKey) (e : RecvEntry), findEntry s st key = some e → e.unacked ≠ 0 →
      Next (.ackTimer st key) s (fun t => (recvTable t st).head? = some { e with unacked := 0 } ∧ e.oldest + 200 ≤ t.time ∧ t.slice = s.slice ∧
        (frozenAt s st.val = false → namesThisDie s (BitVec.ofNat 64 (key.src.toNat * 2 ^ 34)) = true →
          ∃ x, IsAck key e.e 0 e.rmask x ∧ HubSent s t st [x]))) ∧
    (∀ (key : FlowKey) (e : RecvEntry), findEntry s st key = some e → e.unacked = 0 → Next (.ackTimer st key) s (fun t => body t = body s))

/-- For a flow with nothing waiting, whose messages belong to nothing that is reported: an acknowledgement up to E removes or marks the copies behind E and moves the moment of the last acknowledgement; an undamaged response removes the copies of its SEQ, unless it is the notice that a work item there has failed, which changes no flow; a damaged response (the model's reading, log 83), one that matches neither a copy nor a spilled SEND, or a timer of a flow without copies, changes no flow; 1 ms after the first injection of the oldest message outstanding, every message due and every later unacknowledged one leaves the window and the next message owes OPEN. At a unit where one message waits for an implicit slot and its target is resolved, no FINAL tile and no ATOMIC behind an unanswered one, a free slot whose window has room is taken by it: it leaves the unit's list and stands last in the window of a flow that serves its pair and carries its SEQ. Where no slot serves or is free for any of the waiting messages they go on waiting in order, and where none waits nothing changes. -/
def Obligations.SourceUnitsKeepTheirWindows : Prop :=
  (∀ (s : State) (u : SrcUnit) (impl : Bool) (chan : BitVec 12), Up s →
    (flowAt s (flowKey u impl chan.toNat)).wait = [] → (∀ c ∈ (flowAt s (flowKey u impl chan.toNat)).win, c.owner = .none_) →
    (∀ a : AckMsg, a.impl = impl → a.chan = chan → a.reason = 0 →
      Next (.transportAckReceive u a) s (fun t => (flowAt t (flowKey u impl chan.toNat)).lastAck = some s.time ∧
        (flowAt t (flowKey u impl chan.toNat)).win = (flowAt s (flowKey u impl chan.toNat)).win.filterMap (fun c => (ackCopy a c).1) ∧
        (∀ k, k ≠ flowKey u impl chan.toNat → flowAt t k = flowAt s k))) ∧
    (∀ (m : Msg) (c : Copy), m.impl = impl → m.chan = chan → m.broken = false → isInterim c m = false →
      (flowAt s (flowKey u impl chan.toNat)).win.find? (fun c => c.m.seq == m.seq) = some c → c.m.op ≠ opReadReq →
      Next (.responseReceive u m) s (fun t => (flowAt t (flowKey u impl chan.toNat)).lastAck = some s.time ∧
        (flowAt t (flowKey u impl chan.toNat)).win = (flowAt s (flowKey u impl chan.toNat)).win.filter (fun x => x.m.seq != m.seq))) ∧
    (∀ (m : Msg) (c : Copy), m.impl = impl → m.chan = chan → (flowAt s (flowKey u impl chan.toNat)).win.find? (fun c => c.m.seq == m.seq) = some c →
      isInterim c m = true → Next (.responseReceive u m) s (fun t => t.trans = s.trans ∧ t.out = s.out)) ∧
    (∀ m : Msg, m.impl = impl → m.chan = chan → (m.broken = true ∨ (∀ c ∈ (flowAt s (flowKey u impl chan.toNat)).win, c.m.seq ≠ m.seq) ∧
        (∀ x ∈ s.trans.late, x.1 = flowKey u impl chan.toNat → x.2.1.seq ≠ m.seq)) →
      Next (.responseReceive u m) s (fun t => t.trans = s.trans ∧ t.out = s.out)) ∧
    ((flowAt s (flowKey u impl chan.toNat)).win = [] → Next (.retransmitTimeout u impl chan) s (fun t => t.trans = s.trans ∧ t.out = s.out)) ∧
    (∀ c : Copy, (flowAt s (flowKey u impl chan.toNat)).win = [c] → c.acked = false → c.m.op ≠ opReadReq →
      (∀ p e, targetOf (advanceTo s (c.last + retransNs s c.m.dest)) c.st c.m = .ok (p, e) →
        Next (.retransmitTimeout u impl chan) s (fun t => c.last + retransNs s c.m.dest ≤ t.time ∧
          (flowAt t (flowKey u impl chan.toNat)).win.map (fun x => (x.m.seq, x.m.replay, x.first, x.last, x.acked)) =
            [(c.m.seq, true, c.first, t.time, false)])) ∧
      Next (.messageTimeout u impl chan) s (fun t => c.first + 1000000 ≤ t.time ∧ (flowAt t (flowKey u impl chan.toNat)).win = [] ∧
        (flowAt t (flowKey u impl chan.toNat)).owed = true))) ∧
  (∀ (s : State) (u : SrcUnit), Up s →
    (∀ (w : Waiting) (i : Nat), cget [] s.trans.noSlot (unitNo u) = [w] → w.owner = .none_ →
      findSlot s u (destKey s w.st w.m, w.m.plane) = some (i, true) → w.st = unitStand s u → windowCount (flowAt s (flowKey u true i)) < 32 →
      isFinalTile w.m = false → (w.m.op = opAtomic → ∀ c ∈ (flowAt s (flowKey u true i)).win, c.m.op ≠ opAtomic) →
      w.m.op ≠ opCtrl → (∀ p e, targetOf s w.st w.m = .ok (p, e) → targetOf s w.st { w.m with impl := true, chan := BitVec.ofNat 12 i } = .ok (p, e) →
        Next (.implicitSlotFree u) s (fun t => cget [] t.trans.noSlot (unitNo u) = [] ∧
          (flowAt t (flowKey u true i)).pair = some (destKey s w.st w.m, w.m.plane) ∧
          (flowAt t (flowKey u true i)).win.map (fun c => (c.m.seq, c.m.data, c.st)) =
            (flowAt s (flowKey u true i)).win.map (fun c => (c.m.seq, c.m.data, c.st)) ++ [((flowAt s (flowKey u true i)).next, w.m.data, w.st)]))) ∧
    ((∀ w ∈ cget [] s.trans.noSlot (unitNo u), findSlot s u (destKey s w.st w.m, w.m.plane) = none) →
      Next (.implicitSlotFree u) s (fun t => (∀ n, cget [] t.trans.noSlot n = cget [] s.trans.noSlot n) ∧ t.trans.flows = s.trans.flows ∧ t.out = s.out)))

/-- While a tenant command runs, DONE reads 0 and another sets OVERRUN alone (the moment from which DONE reads 1, `cmdEnd`, lies at most 1 µs off: log 18). With none running: ADMIT of tag 0 answers BAD_DESC; of an ACTIVE tag OK with EXISTED and its entry; with a FREE entry the lowest-numbered one becomes ACTIVE with the tag, a closed shaper, every other field at reset and empty buckets; with none TENANT_FULL. RETIRE and PEEK of a FREE entry answer ADDR_RANGE; RETIRE of one in use NOT_READY, else the entry becomes FREE; PEEK reports the host agent bucket at the time of the command. Each refusal and PEEK changes the result alone, an ADMIT or RETIRE no other entry. -/
def Obligations.TenantCommandsAnswerByTheirTable : Prop :=
  ∀ (s : State), MgServed s 0x4100 →
    (cmdDone s s.tnt.result = false → ∀ (tag : BitVec 16) (n : Fin 4096),
      let overrun (t : State) : Prop := t.tnt = { s.tnt with result := { s.tnt.result with overrun := true } } ∧ body { t with tnt := s.tnt } = body s
      Next (.tenantAdmit tag) s overrun ∧ Next (.tenantRetire n) s overrun ∧ Next (.tenantPeek n) s overrun) ∧
    (cmdDone s s.tnt.result = true →
    (Next (.tenantAdmit 0) s (fun t => t.tnt = { s.tnt with result := ⟨cmdEnd s, false, false, 0, .badDesc, 0⟩ } ∧ body { t with tnt := s.tnt } = body s)) ∧
    (∀ (tag : BitVec 16) (n : Nat) (x : Tenant), tag ≠ 0 → tenantOf s tag = some (n, x) →
      Next (.tenantAdmit tag) s (fun t => t.tnt = { s.tnt with result := ⟨cmdEnd s, false, true, n, .ok, 0⟩ } ∧ body { t with tnt := s.tnt } = body s)) ∧
    (∀ (tag : BitVec 16) (n : Fin 4096), tag ≠ 0 → tenantOf s tag = none → tenantAt s n.val = none → (∀ m, m < n.val → (tenantAt s m).isSome = true) →
      Next (.tenantAdmit tag) s (fun t => t.tnt.result = ⟨cmdEnd s, false, false, n.val, .ok, 0⟩ ∧
        (∃ x : Tenant, tenantAt t n.val = some x ∧ x.tag = tag ∧ x.rate = 0 ∧ x.burst = 0 ∧ x.expOk = false ∧ x.police = 0 ∧
          x.bucket.t = 0 ∧ x.ipol.tc = 0 ∧ x.ipol.tp = 0 ∧ x.hpol = []) ∧
        (∀ m, m ≠ n.val → tenantAt t m = tenantAt s m) ∧ body { t with tnt := s.tnt } = body s)) ∧
    (∀ tag : BitVec 16, tag ≠ 0 → tenantOf s tag = none → (∀ m, m < 4096 → (tenantAt s m).isSome = true) →
      Next (.tenantAdmit tag) s (fun t => t.tnt = { s.tnt with result := ⟨cmdEnd s, false, false, 0, .tenantFull, 0⟩ } ∧ body { t with tnt := s.tnt } = body s)) ∧
    (∀ n : Fin 4096, tenantAt s n.val = none →
      Next (.tenantRetire n) s (fun t => t.tnt = { s.tnt with result := ⟨cmdEnd s, false, false, n.val, .addrRange, 0⟩ } ∧ body { t with tnt := s.tnt } = body s) ∧
      Next (.tenantPeek n) s (fun t => t.tnt = { s.tnt with result := ⟨cmdEnd s, false, false, n.val, .addrRange, 0⟩ } ∧ body { t with tnt := s.tnt } = body s)) ∧
    (∀ (n : Fin 4096) (x : Tenant), tenantAt s n.val = some x →
      ((portBound s n.val = true ∨ bankOwned s x.tag = true ∨ unfetched s n.val = true ∨ incomplete s n.val = true ∨ incompleteTag s x.tag = true) →
        Next (.tenantRetire n) s (fun t => t.tnt = { s.tnt with result := ⟨cmdEnd s, false, false, n.val, .notReady, 0⟩ } ∧ body { t with tnt := s.tnt } = body s)) ∧
      (portBound s n.val = false → bankOwned s x.tag = false → unfetched s n.val = false → incomplete s n.val = false → incompleteTag s x.tag = false →
        Next (.tenantRetire n) s (fun t => t.tnt.result = ⟨cmdEnd s, false, false, n.val, .ok, 0⟩ ∧ tenantAt t n.val = none ∧
          (∀ m, m ≠ n.val → tenantAt t m = tenantAt s m) ∧ t.regs = s.regs ∧ t.host.descs = s.host.descs ∧ t.host.ringRes = s.host.ringRes)) ∧
      Next (.tenantPeek n) s (fun t => t.tnt = { s.tnt with result := ⟨cmdEnd s, false, false, n.val, .ok,
          BitVec.ofNat 32 (tokens (refill x.bucket x.rate x.burst s.time))⟩ } ∧ body { t with tnt := s.tnt } = body s)))

/-- TNT_SHAPE takes EXP_OK, BURST and RATE, and the entry's host agent bucket and those of every port bound to it are refilled to now at the old values; TNT_POLICE takes its RW bits, and a meter that IPOL_EN newly enables is filled, else it keeps its counts up to now under the old parameters. No other entry, no other port's bucket and no register changes; on a FREE entry nothing changes. A write of GLB_SHARE_MAP is the new map of every stand. A message that the shaper of a ring's tenant holds, with a RATE above 0 and not bypassed, becomes ready no earlier than the bucket reaches 0 tokens, and the bucket then holds what it had at that moment less the charge. Where nothing is held, nothing changes. -/
def Obligations.TenantRatesSharesAndDispatch : Prop :=
  (∀ (s : State) (n : Fin 4096) (v : Word),
    (MgServed s (0xA0000 + n.val * 16) →
      (tenantAt s n.val = none → Next (.tenantShapeWrite n v) s (fun t => body t = body s)) ∧
      (∀ x : Tenant, tenantAt s n.val = some x → Next (.tenantShapeWrite n v) s (fun t =>
        tenantAt t n.val = some { x with bucket := refill x.bucket x.rate x.burst s.time, expOk := bitAt v 62, burst := fld v 20 16, rate := fld v 0 20 } ∧
        (∀ m, m ≠ n.val → tenantAt t m = tenantAt s m) ∧
        (∀ k : StandId, cget {} t.tnt.portBkt k.val = if boundEntry s k = some n.val then refill (cget {} s.tnt.portBkt k.val) x.rate x.burst s.time
          else cget {} s.tnt.portBkt k.val) ∧ body { t with tnt := s.tnt } = body s))) ∧
    (MgServed s (0xA0000 + n.val * 16 + 8) →
      (tenantAt s n.val = none → Next (.tenantPoliceWrite n v) s (fun t => body t = body s)) ∧
      (∀ x : Tenant, tenantAt s n.val = some x → Next (.tenantPoliceWrite n v) s (fun t =>
        (∃ y : Tenant, tenantAt t n.val = some y ∧ y.police = merge (mask 61 3 ||| mask 0 60) x.police v ∧
          y.rate = x.rate ∧ y.burst = x.burst ∧ y.bucket = x.bucket ∧ y.tag = x.tag ∧
          y.ipol = (if bitAt v 63 = true ∧ bitAt x.police 63 = false then fullMeter y.police s.time else refillMeter x.ipol x.police s.time)) ∧
        (∀ m, m ≠ n.val → tenantAt t m = tenantAt s m) ∧ t.tnt.portBkt = s.tnt.portBkt ∧ body { t with tnt := s.tnt } = body s)))) ∧
  (∀ (s : State),
    (∀ v : Word, MgServed s 0x100 → Next (.shareMapWrite v) s (fun t => regGet t 0x100 = v ∧
      (∀ st : StandId, cget 0xFEDCBA9876543210 t.mesh.shareMap st.val = v) ∧ (∀ off, off ≠ 0x100 → regGet t off = regGet s off) ∧
      t.out = .rhz (.shareMap v) :: s.out ∧ t.tnt = s.tnt)) ∧
    (∀ (n : Fin 4096) (id : Nat) (d : DescSt) (x : Tenant) (c : BitVec 2) (k : Nat), Up s → workHeld s = false →
      nextDesc s (.ring n) = some (id, d) → d.phase = .held → d.items = [] → d.colour = some c → c ≠ red → descCharge s d.raw = some k → 0 < k →
      tenantAt s n.val = some x → 0 < x.rate → x.rate < 0xFFFFF →
      Next (.shaperDispatch (.ring n)) s (fun t => (descAt t id).map DescSt.phase = some .ready ∧ refillDue x.bucket x.rate s.time ≤ t.time ∧
        (tenantAt t n.val).map (fun y => y.bucket.t) = some ((refill x.bucket x.rate x.burst t.time).t - (k * 1000 : Nat)) ∧
        queueOf t (.ring n) = queueOf s (.ring n) ∧ t.out = s.out ∧ t.regs = s.regs)) ∧
    (∀ a : Acceptor, Up s → (∀ id d, nextDesc s a = some (id, d) → d.phase ≠ .held) → (∀ k, a = .port k → cget none s.port.rqCol k.val = none) →
      Next (.shaperDispatch a) s (fun t => body t = body s)))

/-- A write of STD_CP_TENANT with VALID that names an ACTIVE entry binds the port to it: INDEX and TAG are that entry's, and where the binding changes the bucket is 0, the injection meter full and, under a new tag, the zeroing begins. One that names a FREE entry changes no register and raises one TABLE event. The end of a zeroing leaves 0 in every byte of mailbox and general memory, but for a ring context area at a centre tap, and every other byte of memory as it was. -/
def Obligations.CorePortBindingAndZeroing : Prop :=
  ∀ (s : State) (st : StandId),
    (∀ (v : Word), MgServed s (stdOff st 0x1C0) → bitAt v 63 = true →
      (tenantAt s (fld v 0 12) = none → Next (.corePortBindWrite st v) s (fun t => t.regs = s.regs ∧ t.tnt = s.tnt ∧ t.slice = s.slice ∧
        t.flt.inbox.map (fun e => (e.family, e.cause, e.loc)) =
          s.flt.inbox.map (fun e => (e.family, e.cause, e.loc)) ++ [(cWriteRefused.family, cWriteRefused.cause, BitVec.ofNat 7 st.val)])) ∧
      (∀ x : Tenant, tenantAt s (fld v 0 12) = some x → Next (.corePortBindWrite st v) s (fun t =>
        boundEntry t st = some (fld v 0 12) ∧ boundTag t st = some x.tag ∧ t.tnt.entries = s.tnt.entries ∧ t.flt = s.flt ∧
        (∀ off, off ≠ stdOff st 0x1C0 → regGet t off = regGet s off) ∧
        (boundEntry s st ≠ some (fld v 0 12) → cget {} t.tnt.portBkt st.val = { t := 0, last := s.time } ∧
          cget {} t.tnt.portMtr st.val = fullMeter x.police s.time) ∧
        (boundTag s st ≠ some x.tag → cget false t.slice.zeroing st.val = true) ∧
        (boundEntry s st = some (fld v 0 12) → boundTag s st = some x.tag → t.tnt = s.tnt ∧ t.slice = s.slice)))) ∧
    (Up s → cget false s.slice.zeroing st.val = true → Next (.dpZeroComplete st) s (fun t =>
      cget false t.slice.zeroing st.val = false ∧
      (∀ b, b < 0x80000 → memByte t st.val dpBank b =
        if (b < 0xFC00 ∨ 0x10800 ≤ b) ∧ inCtxArea s st.val b 1 = false then 0 else memByte s st.val dpBank b) ∧
      (∀ (st' : StandId) (bank b : Nat), bank < 35 → b < 2 ^ 21 → st' ≠ st ∨ bank ≠ dpBank → memByte t st'.val bank b = memByte s st'.val bank b) ∧
      t.regs = s.regs ∧ t.tnt = s.tnt)) ∧
    (Up s → cget false s.slice.zeroing st.val = false → Next (.dpZeroComplete st) s (fun t => body t = body s))

/-- While a ring command runs another sets OVERRUN alone (log 18). With none running, stage S4 reported and no completion notices asked for: on a FREE entry each command answers ADDR_RANGE; OPEN of open rings NOT_READY, with K outside 4 to 16 or SIZE above 2^40 LEN_RANGE, else OK and the context holds the four parameter registers and indices of 0; CLOSE and PEEK of closed rings ADDR_RANGE; CLOSE with unfetched or incomplete descriptors NOT_READY, else OK and the rings are closed; PEEK answers OPEN and the fetch index. A doorbell write to a page of closed rings has no effect. A permitted RETIRE closes the rings. A refusal changes the result alone. -/
def Obligations.RingCommandsAnswerByTheirTable : Prop :=
  ∀ (s : State) (n : Fin 4096), MgServed s 0x4040 →
    (cmdDone s s.host.ringRes = false →
      let overrun (t : State) : Prop :=
        t.host = { s.host with ringRes := { s.host.ringRes with overrun := true } } ∧ body { t with host := s.host } = body s
      Next (.ringOpen n) s overrun ∧ Next (.ringClose n) s overrun ∧ Next (.ringPeek n) s overrun) ∧
    (cmdDone s s.host.ringRes = true → afterS4 s = true → regBit s 0x2100 63 = false →
    girdled s (ctxPlace s n.val 0).1 = false →
    let answers (t : State) (r : Status) (flag : Bool) (v : Nat) : Prop :=
      t.host = { s.host with ringRes := ⟨cmdEnd s, false, flag, n.val, r, BitVec.ofNat 32 v⟩ }
    (tenantAt s n.val = none →
      Next (.ringOpen n) s (fun t => answers t .addrRange false 0 ∧ body { t with host := s.host } = body s) ∧
      Next (.ringClose n) s (fun t => answers t .addrRange false 0 ∧ body { t with host := s.host } = body s) ∧
      Next (.ringPeek n) s (fun t => answers t .addrRange false 0 ∧ body { t with host := s.host } = body s)) ∧
    ((tenantAt s n.val).isSome = true → ringsOpen s n.val = true →
      Next (.ringOpen n) s (fun t => answers t .notReady false 0 ∧ body { t with host := s.host } = body s)) ∧
    ((tenantAt s n.val).isSome = true → ringsOpen s n.val = false →
      (kOk (regGet s 0x4020) = false ∨ kOk (regGet s 0x4028) = false ∨ 2 ^ 28 < regFld s 0x4038 12 29) →
      Next (.ringOpen n) s (fun t => answers t .lenRange false 0 ∧ body { t with host := s.host } = body s)) ∧
    ((tenantAt s n.val).isSome = true → ringsOpen s n.val = false → kOk (regGet s 0x4020) = true → kOk (regGet s 0x4028) = true →
      regFld s 0x4038 12 29 ≤ 2 ^ 28 →
      Next (.ringOpen n) s (fun t => answers t .ok false 0 ∧ ctxGet t n.val = 
        some ⟨regGet s 0x4020, regGet s 0x4028, regGet s 0x4030, regGet s 0x4038, 0, 0, 0, 0, 0, true⟩ ∧
        t.regs = s.regs ∧ t.tnt = s.tnt)) ∧
    ((tenantAt s n.val).isSome = true → ringsOpen s n.val = false →
      Next (.ringClose n) s (fun t => answers t .addrRange false 0 ∧ body { t with host := s.host } = body s) ∧
      Next (.ringPeek n) s (fun t => answers t .addrRange false 0 ∧ body { t with host := s.host } = body s)) ∧
    (∀ c : RingCtx, (tenantAt s n.val).isSome = true → ctxGet s n.val = some c → c.isOpen = true →
      ((unfetched s n.val = true ∨ incomplete s n.val = true) →
        Next (.ringClose n) s (fun t => answers t .notReady false 0 ∧ body { t with host := s.host } = body s)) ∧
      (unfetched s n.val = false → incomplete s n.val = false →
        Next (.ringClose n) s (fun t => t.host.ringRes = ⟨cmdEnd s, false, false, n.val, .ok, 0⟩ ∧ t.host.descs = s.host.descs ∧ ctxGet t n.val = some { c with isOpen := false } ∧
          t.regs = s.regs ∧ t.tnt = s.tnt)) ∧
      Next (.ringPeek n) s (fun t => answers t .ok true c.sqHead ∧ body { t with host := s.host } = body s)) ∧
    (∀ (c : RingCtx) (x : Tenant), tenantAt s n.val = some x → ctxGet s n.val = some c → c.isOpen = true → cmdDone s s.tnt.result = true →
      portBound s n.val = false → bankOwned s x.tag = false → unfetched s n.val = false → incomplete s n.val = false →
      incompleteTag s x.tag = false → Next (.tenantRetire n) s (fun t => ctxGet t n.val = some { c with isOpen := false })) ∧
    (∀ (d : DbAccess) (byte size : Nat) (v : Word), doorbellOf s d = some (n.val, byte, size, v) → ringsOpen s n.val = false → s.dorm.phase = .service →
      Next (.sqTailDoorbell d) s (fun t => body t = body s) ∧ Next (.cqHeadDoorbell d) s (fun t => body t = body s)))

/-- In SERVICE, with the primary copy of the context in reach: a 4- or 8-byte write at 0x000 of the page of an entry with open rings sets SQ_TAIL where the new tail is valid, one at 0x008 CQ_HEAD; an invalid value moves neither and, where the ring has room and nothing waits in the holding, appends one record; any other size or place, a page of closed rings, an address outside the window and a fabric write under another tag than the owner's change nothing; a read through HA_* is answered with 0 and changes nothing. A write of HST_DB_BASE takes ADDR and EN. With an open ring, a new tail, no fetch outstanding and room in the completion ring, the host agent sends one host-memory read of the next descriptors at the head's address, 64 bytes each, up to 8 and up to the ring's end, and moves no index. Its data, with room for two records each, puts the descriptors at the end of the ring's queue with their bytes and moves the head past them. With head = tail, closed rings or a fetch outstanding nothing is read; data for a tag that is not outstanding changes nothing. Where the oldest record in the holding belongs to a ring with room, it leaves the holding, is written at the tail of its completion ring with PHASE by the pass, and the tail moves on by one while every other index stays; where no ring of a held record has room, nothing changes. -/
def Obligations.RingsMoveFetchAndHold : Prop :=
  (∀ (s : State), Up s → s.dorm.phase = .service →
    (∀ (d : DbAccess) (n : Nat) (byte size : Nat) (v : Word) (c : RingCtx), doorbellOf s d = some (n, byte, size, v) → ctxGet s n = some c →
      c.isOpen = true → girdled s (ctxPlace s n 0).1 = false → (size = 4 ∨ size = 8) →
      (byte = 0 → idxDiff (fld v 0 32) c.sqTail ≤ 2 ^ sqK c → idxDiff (fld v 0 32) c.sqHead ≤ 2 ^ sqK c →
        Next (.sqTailDoorbell d) s (fun t => ctxGet t n = some { c with sqTail := fld v 0 32 } ∧ t.host = s.host ∧ t.out = s.out ∧ t.regs = s.regs)) ∧
      (byte = 8 → idxDiff (fld v 0 32) c.cqHead ≤ idxDiff c.cqTail c.cqHead →
        Next (.cqHeadDoorbell d) s (fun t => ctxGet t n = some { c with cqHead := fld v 0 32 } ∧ t.host = s.host ∧ t.out = s.out ∧ t.regs = s.regs)) ∧
      (byte = 0 → (2 ^ sqK c < idxDiff (fld v 0 32) c.sqTail ∨ 2 ^ sqK c < idxDiff (fld v 0 32) c.sqHead) → ringRoom c = true → s.host.holding = [] →
        lostOf s n = 0 →
        Next (.sqTailDoorbell d) s (fun t => ctxGet t n = some { c with cqTail := (c.cqTail + 1) % 2 ^ 32 } ∧
          t.out = .hostWrite (ringAddr c.cq (cqK c) 32 c.cqTail)
            (ringRecord (record recNormal 0 .badDesc 0xFFFFFFFF (BitVec.ofNat 64 (fld v 0 32)) 0 c.sqHead) c.cqTail (cqK c) 0) :: s.out)) ∧
      (byte ≠ 0 → Next (.sqTailDoorbell d) s (fun t => body t = body s)) ∧
      (byte ≠ 8 → Next (.cqHeadDoorbell d) s (fun t => body t = body s))) ∧
    (∀ (a : Word) (n : Nat), let read (t : State) : Prop := t.out = .ha 0 :: s.out ∧ body { t with out := s.out } = body s
      Next (.sqTailDoorbell (.haRead a n)) s read ∧ Next (.cqHeadDoorbell (.haRead a n)) s read) ∧
    (∀ d : DbAccess, (∀ a n, d ≠ .haRead a n) → (doorbellOf s d = none ∨ (∃ n b size v, doorbellOf s d = some (n, b, size, v) ∧ (size ≠ 4 ∧ size ≠ 8 ∨ ringsOpen s n = false))) →
      Next (.sqTailDoorbell d) s (fun t => body t = body s) ∧ Next (.cqHeadDoorbell d) s (fun t => body t = body s)) ∧
    (∀ v : Word, s.mg.rstN = true → Next (.doorbellBaseWrite v) s (fun t =>
      regGet t 0x4008 = merge (mask 24 40 ||| mask 0 1) (regGet s 0x4008) v ∧ (∀ off, off ≠ 0x4008 → regGet t off = regGet s off) ∧
      body { t with regs := s.regs } = body s))) ∧
  (∀ (s : State) (n : Fin 4096) (c : RingCtx), Up s → ctxGet s n.val = some c → girdled s (ctxPlace s n.val 0).1 = false →
    (c.isOpen = true → c.sqTail ≠ c.sqHead → workHeld s = false → fatalLatched s = false → fetching s n.val = false →
      idxDiff c.cqTail c.cqHead + c.resv + 1 + heldBack c ≤ 2 ^ cqK c →
      Next (.descriptorFetch n) s (fun t =>
        let k := min (min 8 (idxDiff c.sqTail c.sqHead)) (2 ^ sqK c - c.sqHead % 2 ^ sqK c)
        t.out = .hostRead s.host.nextTag (ringAddr c.sq (sqK c) 64 c.sqHead) (64 * k) :: s.out ∧
        oget t.host.reads s.host.nextTag = some (.fetch n.val c.sqHead k) ∧ t.slice = s.slice ∧ t.host.queues = s.host.queues)) ∧
    ((c.isOpen = false ∨ c.sqTail = c.sqHead ∨ fetching s n.val = true) → Next (.descriptorFetch n) s (fun t => body t = body s)) ∧
    (∀ (tag k : Nat) (data : List Byte) (x : Tenant), c.isOpen = true → tenantAt s n.val = some x → oget s.host.reads tag = some (.fetch n.val c.sqHead k) →
      idxDiff c.cqTail c.cqHead + c.resv + 2 * k + heldBack c ≤ 2 ^ cqK c → descAt s s.host.nextId = none →
      Next (.hostMemoryReadCompletion tag data) s (fun t => oget t.host.reads tag = none ∧
        (ctxGet t n.val).map (fun e => (e.sqHead, e.sqTail, e.cqTail)) = some ((c.sqHead + k) % 2 ^ 32, c.sqTail, c.cqTail) ∧
        queueOf t (.ring n) = queueOf s (.ring n) ++ List.range' s.host.nextId k ∧
        (∀ i, i < k → (descAt t (s.host.nextId + i)).map (fun e => (e.raw, e.tag16, e.idx)) =
          some (sub (data.drop (64 * i)) 0 64, x.tag, (c.sqHead + i) % 2 ^ 32)) ∧ t.out = s.out)) ∧
    (∀ (tag : Nat) (data : List Byte), oget s.host.reads tag = none → Next (.hostMemoryReadCompletion tag data) s (fun t => body t = body s))) ∧
  (∀ (s : State), Up s →
    (∀ (n : Nat) (p : Option Nat) (r : List Byte) (l : List (Nat × Option Nat × List Byte)) (c : RingCtx), s.host.holding = (n, p, r) :: l →
      ctxGet s n = some c → ringRoom c = true → girdled s (ctxPlace s n 0).1 = false → lostOf s n = 0 →
      Next .holdingRecordWrite s (fun t => t.host.holding = l ∧ ctxGet t n = some { c with cqTail := (c.cqTail + 1) % 2 ^ 32 } ∧
        t.out = .hostWrite (ringAddr c.cq (cqK c) 32 c.cqTail) (ringRecord r c.cqTail (cqK c) 0) :: s.out)) ∧
    ((∀ h ∈ s.host.holding, ∀ c, ctxGet s h.1 = some c → ringRoom c = false) → Next .holdingRecordWrite s (fun t => body t = body s)))

/-- A write of a channel slot whose result R179 and R180 allow takes the bits that the slot's role uses (a slot with ROLE 0 and VALID 0 has the send role; log 40), and no other register; one they refuse changes no register, counter or directory entry and raises one TABLE event. An integer add of v to the release word of a VALID land slot with nothing spilled, under its tag, moves min(v, occ) from occ to the released count, with one TABLE event where v is above occ; a read, another access or another tag changes nothing. -/
def Obligations.ChannelSlotsAndReleaseWords : Prop :=
  ∀ (s : State) (st : StandId) (j : Fin 128),
    (∀ (word : Fin 4) (v old0 new w0 x y : Word), MgServed s (stdOff st (0x1000 + j.val * 32 + word.val * 8)) →
      old0 = chanWord s st.val j.val 0 →
      new = merge (chanRw old0 word.val) (chanWord s st.val j.val word.val) v →
      w0 = (if word.val = 0 then new else old0) → x = (if word.val = 2 then new else chanWord s st.val j.val 2) →
      y = (if word.val = 3 then new else chanWord s st.val j.val 3) →
      let bad := chanBad word.val w0 new x y || chanClash s st j.val w0 x ||
        (chLand old0 && (decide ((chanCnt s st.val j.val).occ ≠ 0) || !(chanCnt s st.val j.val).spill.isEmpty) && decide (new ≠ chanWord s st.val j.val word.val))
      (bad = true → Next (.channelSlotWrite st j word v) s (fun t => t.regs = s.regs ∧ t.chan = s.chan ∧ t.host = s.host ∧
        t.flt.inbox.length = s.flt.inbox.length + 1)) ∧
      (bad = false → Next (.channelSlotWrite st j word v) s (fun t => chanWord t st.val j.val word.val = new ∧
        (∀ off, off ≠ stdOff st (0x1000 + j.val * 32 + word.val * 8) → regGet t off = regGet s off) ∧ t.flt = s.flt ∧
        (word.val = 0 → chValid old0 = false → chValid new = true → chanCnt t st.val j.val = {}) ∧
        (word.val = 0 → chValid new = true → chLand new = false → oget t.host.dir (chNo new) = some st)))) ∧
    (∀ (tenant : BitVec 16) (v : Word), Up s → girdled s st.val = false → inService s st.val = true →
      chValid (chanWord s st.val j.val 0) = true → chLand (chanWord s st.val j.val 0) = true → tenant = chTag (chanWord s st.val j.val 0) →
      (chanCnt s st.val j.val).spill = [] →
      Next (.releaseWordAccess st j tenant (.add v)) s (fun t =>
        (chanCnt t st.val j.val).occ = (chanCnt s st.val j.val).occ - min v.toNat (chanCnt s st.val j.val).occ ∧
        (chanCnt t st.val j.val).released = (chanCnt s st.val j.val).released + BitVec.ofNat 32 (min v.toNat (chanCnt s st.val j.val).occ) ∧
        t.flt.inbox.length = s.flt.inbox.length + (if (chanCnt s st.val j.val).occ < v.toNat then 1 else 0) ∧ t.slice = s.slice ∧ t.regs = s.regs)) ∧
    (∀ (tenant : BitVec 16) (acc : RelAccess), Up s → (acc = .read ∨ acc = .other ∨ tenant ≠ chTag (chanWord s st.val j.val 0)) →
      Next (.releaseWordAccess st j tenant acc) s (fun t => body t = body s))

/-- For the next descriptor of a core port, alone in its chain, without TALLY or CSYNC, trace off: a fatal die answers FABRIC_DOWN, one before stage S4 NOT_READY, else the first failing check of R154 its status, each by one NORMAL record that frees its command-queue slot, and the descriptor leaves its queue; one that passes every check and injects no charge stands ready in its place. While new work is held, in a die that is not fatal, nothing changes. -/
def Obligations.DescriptorsAreCheckedInOrder : Prop :=
  ∀ (s : State) (k : StandId) (id : Nat) (d : DescSt), Up s → nextDesc s (.port k) = some (id, d) → d.phase = .queued → FreshDesc d → d.acc = .port k →
    regBit s 0xC0000 63 = false → portLossy s k = false →
    (∀ r, (workHeld s = false ∨ fatalLatched s = true) → dTally d.raw = false → csSv d.raw = false →
      r = (if fatalLatched s then some .fabricDown else if !afterS4 s then some .notReady else descCheck s d) → ∀ status, r = some status →
      Next (.descriptorAccept (.port k)) s (fun t => RecordSent s t k d status 0 0 ∧ descAt t id = none ∧
        queueOf t (.port k) = (queueOf s (.port k)).filter (· ≠ id) ∧ t.regs = s.regs ∧ t.slice = s.slice)) ∧
    (workHeld s = false → fatalLatched s = false → afterS4 s = true → descCheck s d = none → descCharge s d.raw = none →
      Next (.descriptorAccept (.port k)) s (fun t => descAt t id = some { d with phase := .ready } ∧
        queueOf t (.port k) = queueOf s (.port k) ∧ t.port = s.port ∧ t.out = s.out ∧ t.regs = s.regs)) ∧
    (workHeld s = true → fatalLatched s = false → Next (.descriptorAccept (.port k)) s (fun t => body t = body s))

/-- For a ready descriptor of a ring, alone in its chain, trace off: with a bypassed shaper and no policing, a range of one work item whose executor is a mover of this die makes that item, not started, sends it in a CTRL frond that carries its fields and runs with one item outstanding; with RATE 0 the whole list of items is held and nothing is sent; with LENGTH 0 the record OK_ZERO_LEN is written to the completion ring and the descriptor leaves. A work item of a FILL with at most 4,096 bytes that waits for its mover is started when the mover receives it, and one WRITE goes out in an implicit slot whose data is the pattern repeated by address; an item that no executor waits for changes nothing. -/
def Obligations.CopyFillAndTheirWorkItems : Prop :=
  (∀ (s : State) (n : Fin 4096) (id : Nat) (d : DescSt) (x : Tenant) (isFill : Bool) (w : WorkItem), Up s →
    readyDesc s (.ring n) (if isFill then opFill else opCopy) = some (id, d) → FreshDesc d → d.acc = .ring n → d.colour = none →
    regBit s 0xC0000 63 = false → tenantAt s n.val = some x → bitAt x.police 63 = false → workHeld s = false →
    w = { desc := id, off := 0, len := 0, total := dLen d.raw, src := dSrc s d.raw, dst := dDst s d.raw,
          fill := if isFill then some (dPattern d.raw) else none, tenant := d.tag16, express := dExpress d.raw && x.expOk,
          deliv := dDelivered d.raw, yellow := false } →
    let c : Instr := if isFill then .fill (.ring n) else .copy (.ring n)
    (∀ (y : WorkItem) (st : StandId) (i : Nat) (p : BitVec 6) (e : BitVec 2), dLen d.raw ≠ 0 → x.rate = 0xFFFFF →
      cutItems w (dLen d.raw) (itemBound (dLen d.raw)) = [y] → executorOf s y = .ok (some (.mover st)) →
      SendsAt s .hostAgent (newMsg s .hostAgent (planeOf 0) opCtrl vcReq d.tag16 (if isFill then y.dst else y.src) (itemBytes y) 0 0 y.express false) i p e →
      Next c s (fun t => (itemAt t s.host.nextItem).map (fun z => (z.w, z.ex, z.started)) = some (y, .mover st, false) ∧
        (descAt t id).map (fun z => (z.phase, z.todo, z.unack, z.items)) = some (.running, 1, 1, []) ∧
        (flowAt t (flowKey .hostAgent true i)).win.map (fun z => (z.m.op, z.m.data, z.m.pstand)) = [(opCtrl, itemBytes y, p)])) ∧
    (dLen d.raw ≠ 0 → x.rate = 0 → (∀ y ∈ cutItems w (dLen d.raw) (itemBound (dLen d.raw)), y.len ≠ 0) →
      cutItems w (dLen d.raw) (itemBound (dLen d.raw)) ≠ [] →
      Next c s (fun t => (descAt t id).map (fun z => (z.phase, z.items)) = some (.held, cutItems w (dLen d.raw) (itemBound (dLen d.raw))) ∧
        t.out = s.out ∧ t.trans = s.trans ∧ t.host.items = s.host.items)) ∧
    (∀ k : RingCtx, dLen d.raw = 0 → dTally d.raw = false → csSv d.raw = false → d.dead = false → ctxGet s n.val = some k → k.isOpen = true → lostOf s n.val = 0 →
      Next c s (fun t => descAt t id = none ∧ t.out = .hostWrite (ringAddr k.cq (cqK k) 32 k.cqTail)
        (ringRecord (record recNormal 0 .okZeroLen (dTag d.raw) 0 0 d.idx) k.cqTail (cqK k) 0) :: s.out))) ∧
  (∀ (s : State) (st : StandId) (w : WorkItem), Up s →
    (∀ (i j : Nat) (x : ItemSt) (pat : Word) (p : BitVec 6) (e : BitVec 2), w.fill = some pat → 0 < w.len → w.len ≤ 4096 → w.yellow = false → frozenAt s st.val = false →
      s.host.items.find? (fun (_, x) => match x with | some x => !x.started && decide (x.ex = SrcUnit.mover st) && decide (x.w = w) | none => false) = some (i, some x) →
      itemAt s i = some x → x.ctrl = none → x.todo = 1 → x.unack = 1 → x.status = .ok → x.ended = false → (∀ j y, (j, some y) ∈ s.host.items → y.kept = []) →
      SendsAt s (.mover st) (newMsg s (.mover st) (planeOf 0) opWrite vcReq w.tenant (addrPlus w.dst 0) (fillBytes pat (addrPlus w.dst 0) w.len) 0 0 w.express w.deliv) j p e →
      Next (.workItemReceive (.mover st) w) s (fun t => (itemAt t i).map ItemSt.started = some true ∧
        (flowAt t (flowKey (.mover st) true j)).win.map (fun z => (z.m.op, z.m.data, z.m.tenant, z.m.pstand)) =
          [(opWrite, fillBytes pat (addrPlus w.dst 0) w.len, w.tenant, p)])) ∧
    ((∀ i x, (i, some x) ∈ s.host.items → x.started = true ∨ x.ex ≠ .mover st ∨ x.w ≠ w) →
      Next (.workItemReceive (.mover st) w) s (fun t => body t = body s)))

/-- For a ready descriptor of a core port, alone in its chain, posted, without TALLY or CSYNC, trace off: a SIGNAL sends its 32-bit increment to the object and completes OK; an ATOMIC sends its operand of LENGTH bytes and runs until it is answered; a SEND of LENGTH 0 sends a token on its channel, to the base of the channel's window, and completes OK. For a ready descriptor of a core port, alone in its chain, without TALLY or CSYNC: with trace off a MARK completes OK; traced, with room in the port's hold, its blaze record enters the hold and it goes on running. A FENCE completes OK where every earlier descriptor is complete with every message acknowledged, else it waits, and it is released by the same condition. A WAIT starts its watch, on this die over the rhizome and on another by a CTRL frond (whose form is the model's, log 41), and waits, holding its queue. An MCAST waits in its queue for its chain. -/
def Obligations.SimpleDescriptors : Prop :=
  (∀ (s : State) (k : StandId) (id : Nat) (d : DescSt), Up s → FreshDesc d → d.acc = .port k → d.colour.getD 0 = 0 → regBit s 0xC0000 63 = false →
    portLossy s k = false → dTally d.raw = false → csSv d.raw = false → dDelivered d.raw = false → dExpress d.raw = false →
    (∀ (i : Nat) (p : BitVec 6) (e : BitVec 2), readyDesc s (.port k) opSignalD = some (id, d) →
      SendsAt s (.port k) (newMsg s (.port k) (planeOf 0) opSignal vcReq d.tag16 (dDst s d.raw) (leBytes 4 (dIncrement d.raw).toNat) 0 0 false false) i p e →
      Next (.signal (.port k)) s (fun t => RecordSent s t k d .ok 0 0 ∧ (descAt t id).map (fun z => (z.phase, z.unack)) = some (.complete, 1) ∧
        (flowAt t (flowKey (.port k) true i)).win.map (fun z => (z.m.op, z.m.dest, z.m.data)) =
          [(opSignal, dDst s d.raw, leBytes 4 (dIncrement d.raw).toNat)])) ∧
    (∀ (i : Nat) (p : BitVec 6) (e : BitVec 2), readyDesc s (.port k) opAtomicD = some (id, d) →
      SendsAt s (.port k) (newMsg s (.port k) (planeOf 0) opAtomic vcReq d.tag16 (dDst s d.raw) (leBytes (dLen d.raw) (dPattern d.raw).toNat)
        (dOpx d.raw) 0 false false) i p e →
      Next (.atomic (.port k)) s (fun t => (descAt t id).map (fun z => (z.phase, z.todo, z.unack)) = some (.running, 1, 1) ∧ t.port.dl = s.port.dl ∧
        (flowAt t (flowKey (.port k) true i)).win.map (fun z => (z.m.op, z.m.dest, z.m.data, msgOpx z.m)) =
          [(opAtomic, dDst s d.raw, leBytes (dLen d.raw) (dPattern d.raw).toNat, dOpx d.raw)])) ∧
    (∀ (q : StandId × Nat) (p : BitVec 6) (e : BitVec 2), readyDesc s (.port k) opSend = some (id, d) → dLen d.raw = 0 → sendSlotOf s (dHandle d.raw) = some q →
      unsent s (.port k) (dHandle d.raw) = none →
      let ch := chNo (chanWord s q.1.val q.2 0)
      let m := newMsg s (.port k) (planeOf (chPlane (chanWord s q.1.val q.2 0))) opWrite (if chSkiden (chanWord s q.1.val q.2 0) then vcSkid else vcReq) d.tag16
        (chanWord s q.1.val q.2 1) [] 0 0 false false
      (flowAt s (flowKey (.port k) false ch)).win = [] → (flowAt s (flowKey (.port k) false ch)).wait = [] →
      targetOf s k { m with impl := false, chan := BitVec.ofNat 12 ch } = .ok (p, e) →
      Next (.send (.port k)) s (fun t => RecordSent s t k d .ok 0 0 ∧
        (flowAt t (flowKey (.port k) false ch)).win.map (fun z => (z.m.op, z.m.impl, z.m.chan, z.m.dest, z.m.data)) =
          [(opWrite, false, BitVec.ofNat 12 ch, chanWord s q.1.val q.2 1, [])]))) ∧
  (∀ (s : State) (k : StandId) (id : Nat) (d : DescSt), Up s → FreshDesc d → d.acc = .port k → portLossy s k = false → dTally d.raw = false → csSv d.raw = false →
    (readyDesc s (.port k) opMark = some (id, d) → regBit s 0xC0000 63 = false →
      Next (.mark (.port k)) s (fun t => RecordSent s t k d .ok 0 0 ∧ descAt t id = none ∧ t.obs = s.obs)) ∧
    (readyDesc s (.port k) opMark = some (id, d) → traced s (accEntry s (.port k)) 1 = true → traced s (accEntry s (.port k)) 0 = false →
      regFld s 0xC0000 56 2 ≠ 0 → (cget [] s.obs.hold k.val).length < 16 → (cget {} s.obs.srcDrop k.val).n = 0 →
      Next (.mark (.port k)) s (fun t => (descAt t id).map DescSt.phase = some .running ∧ t.port.dl = s.port.dl ∧
        cget [] t.obs.hold k.val = cget [] s.obs.hold k.val ++
          [traceRecord s.time tkBlaze k.val (dBlazeKind d.raw) d.raw d.tag16 (dPattern d.raw).toNat])) ∧
    (readyDesc s (.port k) opFence = some (id, d) → regBit s 0xC0000 63 = false →
      (fenceClear s (.port k) id d = true → Next (.fence (.port k)) s (fun t => RecordSent s t k d .ok 0 0 ∧ descAt t id = none)) ∧
      (fenceClear s (.port k) id d = false → Next (.fence (.port k)) s (fun t => (descAt t id).map DescSt.phase = some .waiting ∧ t.port = s.port ∧ t.out = s.out))) ∧
    (nextDesc s (.port k) = some (id, d) → d.phase = .waiting → dOp d.raw = opFence → regBit s 0xC0000 63 = false →
      (fenceClear s (.port k) id d = true → Next (.fenceRelease (.port k)) s (fun t => RecordSent s t k d .ok 0 0 ∧ descAt t id = none)) ∧
      (fenceClear s (.port k) id d = false → Next (.fenceRelease (.port k)) s (fun t => descAt t id = some d ∧ t.port = s.port ∧ t.out = s.out))) ∧
    (readyDesc s (.port k) opWait = some (id, d) → regBit s 0xC0000 63 = false →
      let waiting (t : State) : Prop := (descAt t id).map DescSt.phase = some .waiting ∧ t.port = s.port ∧
        oget t.sync.waits (4096 + k.val) = some { desc := id, addr := dSrc s d.raw, target := dTarget d.raw, tmo := dTimeout d.raw, start := s.time }
      (namesThisDie s (dSrc s d.raw) = true → Next (.wait (.port k)) s (fun t => waiting t ∧
        t.out = .rhz (.watch (aObject (dSrc s d.raw)) (dTarget d.raw).toNat (.port k)) :: s.out)) ∧
      (∀ (m : Msg) (i : Nat) (p : BitVec 6) (e : BitVec 2), namesThisDie s (dSrc s d.raw) = false →
        m = farMsg s (.port k) d.tag16 (dSrc s d.raw) 1 (4096 + k.val) id (dTarget d.raw).toNat → SendsAt s (.port k) m i p e →
        Next (.wait (.port k)) s (fun t => waiting t ∧
          (flowAt t (flowKey (.port k) true i)).win.map (fun z => (z.m.op, z.m.dest, z.m.data)) = [(opCtrl, dSrc s d.raw, m.data)]))) ∧
    (readyDesc s (.port k) opMcastD = some (id, d) →
      Next (.mcast (.port k)) s (fun t => (descAt t id).map DescSt.phase = some .waiting ∧ t.port = s.port ∧ t.out = s.out ∧ t.mc = s.mc)))

/-- For a GROUP of a ring, trace off: with LENGTH 256 and SRC in the tenant's host window, 256 bytes are read and the descriptor waits; when they arrive, a valid record of a new GEPOCH on a group neither ARMED nor in RUN becomes the group, with the tenant's tag and OPSEQ 0; with LENGTH 0 a VALID group is dissolved. One that waited for RUN does the same once RUN is 0, and nothing before. -/
def Obligations.GroupsAreWrittenAndDissolved : Prop :=
  ∀ (s : State) (n : Fin 4096) (id : Nat) (d : DescSt), Up s → d.acc = .ring n → d.chain = none → regBit s 0xC0000 63 = false → dOp d.raw = opGroup →
    (∀ b : Word, readyDesc s (.ring n) opGroup = some (id, d) → dLen d.raw = 256 → aSpace (dSrc s d.raw) = 4 →
      hostAddr s (some n.val) (aHostOff (dSrc s d.raw)) 256 = .ok b →
      Next (.group (.ring n)) s (fun t => (descAt t id).map DescSt.phase = some .waiting ∧ t.out = .hostRead s.host.nextTag b 256 :: s.out ∧
        oget t.host.reads s.host.nextTag = some (.source id) ∧ t.all = s.all)) ∧
    (∀ (tag : Nat) (data : List Byte), descAt s id = some d → d.phase = .waiting → dLen d.raw = 256 → oget s.host.reads tag = some (.source id) →
      groupRecordOk s (sub data 0 256) = true →
      ((groupAt s (aGroup d.raw)).valid = true → grEpoch (groupAt s (aGroup d.raw)).record ≠ grEpoch (sub data 0 256)) →
      (groupAt s (aGroup d.raw)).armed = false → (groupAt s (aGroup d.raw)).run = false →
      Next (.hostMemoryReadCompletion tag data) s (fun t =>
        groupAt t (aGroup d.raw) = { valid := true, tag := d.tag16, record := sub data 0 256 } ∧
        (∀ g, g ≠ aGroup d.raw → groupAt t g = groupAt s g) ∧ oget t.host.reads tag = none)) ∧
    (readyDesc s (.ring n) opGroup = some (id, d) → dLen d.raw = 0 → (groupAt s (aGroup d.raw)).valid = true →
      (groupAt s (aGroup d.raw)).armed = false →
      ((groupAt s (aGroup d.raw)).run = false → Next (.group (.ring n)) s (fun t =>
        groupAt t (aGroup d.raw) = { groupAt s (aGroup d.raw) with valid := false } ∧ (∀ g, g ≠ aGroup d.raw → groupAt t g = groupAt s g))) ∧
      ((groupAt s (aGroup d.raw)).run = true → Next (.group (.ring n)) s (fun t =>
        (descAt t id).map (fun z => (z.phase, z.since)) = some (.waiting, 1) ∧ t.all = s.all ∧ t.out = s.out))) ∧
    (∀ g : Fin 64, runWaiter s g.val = some (id, d) → descAt s id = some d → aGroup d.raw = g.val → dLen d.raw = 0 →
      (groupAt s g.val).valid = true → (groupAt s g.val).armed = false →
      ((groupAt s g.val).run = false → Next (.groupRunResume g) s (fun t => groupAt t g.val = { groupAt s g.val with valid := false })) ∧
      ((groupAt s g.val).run = true → Next (.groupRunResume g) s (fun t => body t = body s)))

/-- For a ready descriptor of a ring, trace off, whose checks all pass on a group not in RUN: an ALLSUM with LENGTH other than 0 on a group without a girdled member stand, every member declaring PUSH, makes RUN 1 and OPSEQ one further, with every member started and waiting for its tiles; an ARM whose trigger does not hold yet makes ARMED 1 and records its trigger; with LENGTH 0 either only advances OPSEQ. A disarm of an armed group makes ARMED and RUN 0, keeps OPSEQ and removes the operation and its trigger. A fired trigger that reaches a member stand starts it. -/
def Obligations.CollectivesStartAndAreArmed : Prop :=
  ∀ (s : State) (n : Fin 4096) (id : Nat) (d : DescSt), Up s → FreshDesc d → d.acc = .ring n → regBit s 0xC0000 63 = false → workHeld s = false →
    let g := aGroup d.raw
    (readyDesc s (.ring n) opAllsum = some (id, d) → allsumCheck s d.tag16 d.raw = none → (groupAt s g).run = false →
      (dLen d.raw ≠ 0 → groupGirdled s g = false →
        (∀ st ∈ groupStands (groupAt s g), ∃ w : Word, (declWord s st g).1 = some w ∧ bitAt w 63 = true ∧ fld w 59 4 = 15 ∧ fld w 40 19 = 0) →
        shareCount (groupAt s g).record ≠ 0 →
        Next (.allsum (.ring n)) s (fun t => (groupAt t g).run = true ∧ (groupAt t g).opseq = (groupAt s g).opseq + 1 ∧
          (opAt t g).map (fun o => (o.desc, o.raw, o.fired)) = some (id, d.raw, true) ∧
          (∀ st ∈ groupStands (groupAt s g), (memAt t st.val g).map (fun m => (m.push, m.started, m.cannot)) = some (true, true, false)) ∧
          t.out = s.out)) ∧
      (dLen d.raw = 0 → Next (.allsum (.ring n)) s (fun t => groupAt t g = { groupAt s g with opseq := (groupAt s g).opseq + 1 } ∧
        t.all.ops = s.all.ops ∧ descAt t id = none))) ∧
    (readyDesc s (.ring n) opArm = some (id, d) → aDisarm d.raw = false → allsumCheck s d.tag16 d.raw = none → (groupAt s g).run = false →
      objLost s (aTobj d.raw) = false → (syncObj s (aTobj d.raw)).alloc = true → dLen d.raw ≠ 0 → waitHolds (syncObj s (aTobj d.raw)) (aTarget d.raw) = false →
      Next (.arm (.ring n)) s (fun t => groupAt t g = { groupAt s g with armed := true, opseq := (groupAt s g).opseq + 1 } ∧
        (opAt t g).map (fun o => (o.desc, o.raw, o.fired)) = some (id, d.raw, false) ∧ oget t.sync.trigs g = some (aTobj d.raw, aTarget d.raw) ∧
        (descAt t id).map DescSt.phase = some .running ∧ t.out = .rhz (.triggerRecord (aTobj d.raw) g) :: s.out)) ∧
    (readyDesc s (.ring n) opArm = some (id, d) → aDisarm d.raw = true → (groupAt s g).armed = true → (∃ o, opAt s g = some o ∧ o.desc ≠ id) →
      Next (.armDisarm (.ring n)) s (fun t => groupAt t g = { groupAt s g with armed := false, run := false } ∧ opAt t g = none ∧
        oget t.sync.trigs g = none ∧ (∀ st : StandId, memAt t st.val g = none) ∧ (∀ h, h ≠ g → groupAt t h = groupAt s h))) ∧
    (∀ (st : StandId) (h : Fin 64) (o : OpSt) (m : MemSt), opAt s h.val = some o → memAt s st.val h.val = some m → o.fired = true → m.started = false →
      st ∈ groupStands (groupAt s h.val) → dormHeld s = false → frozenAt s st.val = false → shareCount (groupAt s h.val).record ≠ 0 →
      m.push = true → m.final = false → m.cannot = false → m.lost = [] → groupGirdled s h.val = false → segAt m m.open0 = {} → segAt m m.open1 = {} →
      Next (.triggerReceive st h) s (fun t => memAt t st.val h.val = some { m with started := true } ∧ t.out = s.out ∧
        (∀ (st' : StandId) (h' : Fin 64), st' ≠ st ∨ h' ≠ h → memAt t st'.val h'.val = memAt s st'.val h'.val)))

/-- A write of GLB_CHAIN takes its RW bits while BUSY is 0 and is refused while it is 1; one of a member slot is refused where R193 says so, else takes its RW bits; one of a combining queue's words 0 to 2 likewise under R209, and word 3 takes none; a queue that becomes VALID has no landing slot open and its accumulators are zero. A refused write changes no register and raises one TABLE event. A write of STD_RED_TEST with ARM arms the limb and accumulator it names. -/
def Obligations.CollectiveRegistersAreWrittenOrRefused : Prop :=
  ∀ (s : State) (st : StandId) (v : Word), Up s → s.mg.rstN = true → girdled s st.val = false →
    (∀ c : Fin 64,
      (ccBusy (chainReg s c.val) = true → Next (.chainWrite c v) s (fun t => t.regs = s.regs ∧ t.flt.inbox.length = s.flt.inbox.length + 1)) ∧
      (ccBusy (chainReg s c.val) = false → Next (.chainWrite c v) s (fun t =>
        chainReg t c.val = merge (mask 63 1 ||| mask 37 25 ||| mask 16 16) (chainReg s c.val) v ∧
        (∀ off, off ≠ chainOff c.val → regGet t off = regGet s off) ∧ t.flt = s.flt))) ∧
    (∀ (j : Fin 16) (word : Fin 2) (new w : Word), new = regNext s allBits (mcOff st j.val word.val) v → w = (if word.val = 0 then new else mcWord s st j.val 0) →
      let bad : Prop := (msValid w = true ∧ ∃ i : Fin 16, i ≠ j ∧ msValid (mcWord s st i.val 0) = true ∧ msChain (mcWord s st i.val 0) = msChain w) ∨
        (word.val = 0 ∧ (otherPackage s (msUpper new) = true ∨ 48 ≤ msStand new)) ∨ (word.val = 1 ∧ (otherPackage s (msAupper new) = true ∨ 48 ≤ msAstand new)) ∨
        (msValid (mcWord s st j.val 0) = true ∧ (memberAt s st.val (msChain (mcWord s st j.val 0))).isSome = true) ∨
        (msValid w = true ∧ (memberAt s st.val (msChain w)).isSome = true)
      (bad → Next (.memberSlotWrite st j word v) s (fun t => t.regs = s.regs ∧ t.flt.inbox.length = s.flt.inbox.length + 1)) ∧
      (¬ bad → Next (.memberSlotWrite st j word v) s (fun t => mcWord t st j.val word.val = new ∧
        (∀ off, off ≠ mcOff st j.val word.val → regGet t off = regGet s off) ∧ t.flt = s.flt ∧ t.mc = s.mc))) ∧
    (∀ j : Fin 8, Next (.combiningQueueWrite st j 3 v) s (fun t => body t = body s) ∧
      (∀ word : Fin 4, word.val ≠ 3 → openCnt (cmbAt s st.val j.val) ≠ 0 →
        Next (.combiningQueueWrite st j word v) s (fun t => t.regs = s.regs ∧ t.red = s.red ∧ t.flt.inbox.length = s.flt.inbox.length + 1)) ∧
      (openCnt (cmbAt s st.val j.val) = 0 → Next (.combiningQueueWrite st j 1 v) s (fun t =>
        cmbWord t st j.val 1 = regNext s allBits (cmbOff st j.val 1) v ∧ (∀ off, off ≠ cmbOff st j.val 1 → regGet t off = regGet s off) ∧ t.red = s.red)) ∧
      (∀ w x : Word, openCnt (cmbAt s st.val j.val) = 0 → w = regNext s allBits (cmbOff st j.val 0) v → x = cmbWord s st j.val 2 →
        cbIfmt w ≤ 10 → cbOfmt w ≤ 10 → cbElems w ≠ 0 → cbNcontrib w ≠ 0 → (isMx (cbIfmt w) = false ∧ isMx (cbOfmt w) = false ∨ cbElems w % 32 = 0) →
        (cmbRange w x).1 + (cmbRange w x).2 ≤ 16384 → 64 + resultSize (cbOfmt w) (cbElems w) ≤ cbStride x * 64 →
        (∀ i : Fin 8, i ≠ j → cbValid (cmbWord s st i.val 0) = true →
          rangesMeet (cmbRange w x) (cmbRange (cmbWord s st i.val 0) (cmbWord s st i.val 2)) = false) →
        cbValid (cmbWord s st j.val 0) = false → cbValid w = true →
        Next (.combiningQueueWrite st j 0 v) s (fun t => cmbWord t st j.val 0 = w ∧ cmbAt t st.val j.val = {} ∧
          (∀ i, (cmbRange w x).1 ≤ i → i < (cmbRange w x).1 + (cmbRange w x).2 → accAt t st.val i = {}) ∧ t.flt = s.flt))) ∧
    (bitAt v 63 = true → Next (.reducerTestArm st v) s (fun t => oget t.red.test st.val = some (fld v 16 2, fld v 0 14) ∧
      t.regs = s.regs ∧ t.red.accs = s.red.accs)) ∧
    (bitAt v 63 = false → Next (.reducerTestArm st v) s (fun t => body t = body s))

/-- A waiting MCAST with a host source on a VALID chain that is not BUSY, its root stand in service, makes the chain BUSY and reads its first data; on a BUSY chain nothing happens. A data message that opens the operation at the last member of a chain is written to the member's landing range where its home is there, and its bytes are counted; without a slot for the chain it is refused with one event. The report at the executor clears BUSY and completes the MCAST with the members' bits: OK where all are set, else PARTIAL_MCAST; when the wait expires, with none. A member whose report is due sends it and forgets the operation. -/
def Obligations.McastRunsOnItsChain : Prop :=
  ∀ (s : State) (c : Fin 64), Up s → regBit s 0xC0000 63 = false →
    (ccBusy (chainReg s c.val) = true → Next (.mcastDispatch c) s (fun t => body t = body s)) ∧
    (∀ (id : Nat) (d : DescSt) (a : Word), workHeld s = false → fatalLatched s = false → ccBusy (chainReg s c.val) = false → ccValid (chainReg s c.val) = true →
      girdled s (ccRstand (chainReg s c.val)) = false → mcastWaiting s c.val = some (id, d) → descAt s id = some d → dLen d.raw ≠ 0 →
      aSpace (dSrc s d.raw) = 4 → hostAddr s (accEntry s d.acc) (aHostOff (dSrc s d.raw)) (min 4096 (dLen d.raw)) = .ok a →
      Next (.mcastDispatch c) s (fun t => ccBusy (chainReg t c.val) = true ∧ (descAt t id).map DescSt.phase = some .running ∧
        (execAt t c.val).map (fun x => (x.desc, x.opid, x.next, x.closed)) = some (id, cget 0 s.mc.ops c.val, 0, none) ∧
        oget t.host.reads s.host.nextTag = some (.mcast c) ∧ t.out = .hostRead s.host.nextTag a (min 4096 (dLen d.raw)) :: s.out)) ∧
    (∀ (st : StandId) (m : Msg) (j : Nat) (s1 : State), Arrives s st m → m.op = opMcast → m.chan.toNat % 64 = c.val → aAlias m.dest ≠ 3 →
      memberSlot s st c.val = some j → m.tenant = msTag (mcWord s st j 1) → msLast (mcWord s st j 0) = true → memberAt s st.val c.val = none →
      (msgPieces m.dest m.data.length).all (fun p => match hubResolve st.val true s p.addr with | .bank b _ => b == st.val | _ => false) = true →
      memWrite s m.tenant true (hubResolve st.val true) m.dest m.data = (.ok [], s1) →
      Next (.mcastReceive st m) s (fun t => t.slice = s1.slice ∧
        (memberAt t st.val c.val).map (fun x => (x.opid, x.rx, x.closes, x.failed, x.dead)) =
          some (msgLow m, ([0, 0, 0, 0] : List Nat).set m.plane.val m.data.length, 0, false, true))) ∧
    (∀ (st : StandId) (m : Msg), Arrives s st m → m.op = opMcast → m.chan.toNat % 64 = c.val → memberSlot s st c.val = none →
      Next (.mcastReceive st m) s (fun t => t.slice = s.slice ∧ t.mc = s.mc ∧ t.flt.inbox.length = s.flt.inbox.length + 1)) ∧
    (∀ (k : StandId) (x : McExec) (d : DescSt) (t0 : Nat), execAt s c.val = some x → x.closed = some t0 → x.poison = false → descAt s x.desc = some d →
      d.acc = .port k → d.phase ≠ .complete → d.chain = none → d.unknown = false → d.dead = false → dTally d.raw = false → csSv d.raw = false → portLossy s k = false →
      ccMembers (chainReg s c.val) ≠ 0 →
      (∀ (bits : BitVec 128) (b : Nat), b = bits.toNat % 2 ^ ccMembers (chainReg s c.val) →
        Next (.mcastReportReceive none c bits) s (fun t => ccBusy (chainReg t c.val) = false ∧ execAt t c.val = none ∧
          RecordSent s t k d (if b = 2 ^ ccMembers (chainReg s c.val) - 1 then .ok else .partialMcast) (BitVec.ofNat 64 (b / 2 ^ 64)) (BitVec.ofNat 64 (b % 2 ^ 64)))) ∧
      Next (.mcastReportTimeout none c) s (fun t => t0 + ccMembers (chainReg s c.val) * 50000 ≤ t.time ∧ ccBusy (chainReg t c.val) = false ∧
        execAt t c.val = none ∧ RecordSent s t k d .partialMcast 0 0)) ∧
    (∀ (st : StandId) (x : McMember) (bits : BitVec 128), memberAt s st.val c.val = some x →
      (x.await = true → x.closes ≠ 0 → x.planes &&& ~~~x.closes = 0 → Next (.mcastReportReceive (some st) c bits) s (fun t => memberAt t st.val c.val = none)) ∧
      (x.await = true → x.dead = false → x.planes &&& ~~~x.closes ≠ 0 →
        Next (.mcastReportReceive (some st) c bits) s (fun t => memberAt t st.val c.val = some { x with report := some bits } ∧ t.out = s.out)) ∧
      (x.await = false → Next (.mcastReportReceive (some st) c bits) s (fun t => body t = body s)) ∧
      (x.closes ≠ 0 → x.planes &&& ~~~x.closes = 0 → Next (.mcastReportTimeout (some st) c) s (fun t => memberAt t st.val c.val = none)))

/-- A contribution for NEXT's landing slot that R211 accepts is added element by element to the accumulators of its position, which then holds it with its finals, and NEXT stays while finals are missing; one that R211 refuses changes no accumulator. When the status of a delivery has landed, AOBJ is signalled where AEN is set, and its accumulators are zero. When the timer of NEXT's position reaches TMO_US, NEXT and SHORT move on by one, no earlier than TMO_US after the timer began. -/
def Obligations.CombiningQueuesAddAndDeliver : Prop :=
  ∀ (s : State) (st : StandId) (j : Fin 8), Up s →
    (∀ (m : Msg) (p : CmbPos), Arrives s st m → m.op = opReduce → msgLow m < 2 → ceQueue m.dest = j.val → cmbJudge s st m = .take →
      ceLseq m.dest = (cmbAt s st.val j.val).next → p = cget {} (cmbAt s st.val j.val).pos (cmbPosOf (cmbWord s st j.val 0) (ceLseq m.dest)) →
      p.finals + (if msgLow m = 1 then 1 else 0) < cbNcontrib (cmbWord s st j.val 0) →
      Next (.contributionReceive st m) s (fun t =>
        (∀ i, accAt t st.val i = accAt (accAddAll s st (cmbAcc (cmbWord s st j.val 0) (cmbWord s st j.val 2)
            (cmbPosOf (cmbWord s st j.val 0) (ceLseq m.dest)) + ceElement m.dest)
            (((fmtOf (cbIfmt (cmbWord s st j.val 0))).bind (fun f => decodeData f m.data)).getD [])).2 st.val i) ∧
        (cmbAt t st.val j.val).next = (cmbAt s st.val j.val).next ∧
        cget {} (cmbAt t st.val j.val).pos (cmbPosOf (cmbWord s st j.val 0) (ceLseq m.dest)) = { held := true, finals := p.finals + (if msgLow m = 1 then 1 else 0) })) ∧
    (∀ (m : Msg) (r : Status), Arrives s st m → m.op = opReduce → msgLow m < 2 → ceQueue m.dest = j.val → cmbJudge s st m = .refuse r →
      Next (.contributionReceive st m) s (fun t => t.red.accs = s.red.accs ∧ (cmbAt t st.val j.val).next = (cmbAt s st.val j.val).next ∧
        (cmbAt t st.val j.val).pos = (cmbAt s st.val j.val).pos)) ∧
    (∀ (d : CmbDel) (q : CmbQ) (w x : Word), q = cmbAt s st.val j.val → w = cmbWord s st j.val 0 → x = cmbWord s st j.val 2 →
      q.del = some d → d.todo = 0 → d.tail = true → (cget {} q.pos (cmbPosOf w q.next)).held = false →
      Next (.landingWriteComplete st j) s (fun t => cmbAt t st.val j.val = { q with del := none } ∧
        (∀ i, i < cbElems w → accAt t st.val (cmbAcc w x (cmbPosOf w (q.next - 1)) + i) = {}) ∧
        t.out = (if cbAen x = true ∧ d.failed = false then [.rhz (.signal (cbAobj x) 1)] else []) ++ s.out)) ∧
    ((cmbAt s st.val j.val).del = none → Next (.landingWriteComplete st j) s (fun t => body t = body s)) ∧
    (∀ (q : CmbQ) (t0 : Nat), q = cmbAt s st.val j.val → q.timer = some t0 → q.del = none → cbTmo (cmbWord s st j.val 2) ≠ 0 → s.dorm.phase = .service →
      Next (.combiningTimeout st j) s (fun t => t0 + cbTmo (cmbWord s st j.val 2) * 1000 ≤ t.time ∧ (cmbAt t st.val j.val).next = q.next + 1 ∧
        (cmbAt t st.val j.val).short = satAdd 16 q.short 1)) ∧
    ((cmbAt s st.val j.val).timer = none → Next (.combiningTimeout st j) s (fun t => body t = body s))

/-- At a member that waits for tiles, to which no unit is lost and at which no share of its open segments has landed: a tile of one open segment, not FINAL, that R259 accepts is added to the accumulators of its elements, with the elements past the count dropped and counted; a refused one adds nothing. A stage-1 UP message that is accepted is added, and its elements, LAST, MCOUNT and flags are noted for its share; a unit whose LAST comes before all its elements is lost to the share (DEDUCED from the TIMEOUT of R278: log 121). The end of the loss wait of a share at its stage-1 node marks every unit whose LAST has not come as lost, its own where its own data are not in, no earlier than the wait after the first arrival, for as long as the member's part goes on. The abandonment of the summary at the holder of share 0 makes the operation lose it, no earlier than twice the waits after the summary was sent. -/
def Obligations.AllsumMembersTakeTilesAndStages : Prop :=
  ∀ (s : State) (st : StandId) (g : Fin 64) (o : OpSt) (y : MemSt), Up s → opAt s g.val = some o → memAt s st.val g.val = some y →
    (y.push = true → y.final = false → y.cannot = false → y.lost = [] → (segAt y y.open0).own = false → (segAt y y.open1).own = false →
    (segAt y y.open0).landed = [] → (segAt y y.open1).landed = [] → shareCount (groupAt s g.val).record ≠ 0 →
    (∀ (m : Msg) (f : Fmt) (cs : List Contrib) (seg : Nat), Arrives s st m → m.op = opReduce → msgLow m = 2 → tiGroup m.dest = g.val → tileJudge s st m = .take →
      tiFinal m.dest = false → fmtOf (memFmt o.raw y) = some f → seg = tiElement m.dest / segLen o.raw → segOpen o.raw y seg = true →
      tileParts o.raw f (tiElement m.dest) m.data 4096 = [(tiElement m.dest, m.data)] → decodeData f m.data = some cs →
      Next (.tileReceive st m) s (fun t =>
        (∀ i, accAt t st.val i = accAt (accAddAll s st (segAcc o.raw seg + (tiElement m.dest - seg * segLen o.raw)) (cs.take (dLen o.raw - tiElement m.dest))).2 st.val i) ∧
        memAt t st.val g.val = some { y with dropped := y.dropped + (m.data.length / unitBytes f * unitElems f - (dLen o.raw - tiElement m.dest)) })) ∧
    (∀ (m : Msg) (r : Status), Arrives s st m → m.op = opReduce → msgLow m = 2 → tileJudge s st m = .refuse r →
      Next (.tileReceive st m) s (fun t => t.red = s.red ∧ t.all = s.all)) ∧
    (∀ (m : Msg) (h : StageHdr) (k : Nat) (z : ShSt), Arrives s st m → m.op = opReduce → msgLow m = 3 → tiGroup m.dest = g.val → stageJudge s st m = .take →
      h = hdrOf m.data → h.phase = 0 → h.stage = 1 → senderRank s g.val h m = some k → (h.seg = y.open0 ∨ h.seg = y.open1) → z = shAt (segAt y h.seg) h.share 1 → k ∉ z.skip →
      (h.last = false ∨ cget 0 z.got k + h.count = shareHi (groupAt s g.val).record o.raw h.seg h.share - shareLo (groupAt s g.val).record o.raw h.seg h.share) →
      Next (.stageMessageReceive st m) s (fun t =>
        (∀ i, accAt t st.val i = accAt (addUp s st (segAcc o.raw h.seg + h.first) h.ordered
          (escRecords ((m.data.drop 24).drop (8 * h.count)) h.escn) (m.data.drop 24) h.count) st.val i) ∧
        (memAt t st.val g.val).map (fun y => shAt (segAt y h.seg) h.share 1) =
          some { z with got := cset 0 z.got k (cget 0 z.got k + h.count), last := if h.last then k :: z.last else z.last, mcount := if h.last then z.mcount + h.mcount else z.mcount,
                        lost := z.lost || h.lost, poison := z.poison || h.poison, reserr := z.reserr || h.reserr, since := some (z.since.getD s.time) })) ∧
    (∀ (m : Msg) (h : StageHdr) (k : Nat) (z : ShSt), Arrives s st m → m.op = opReduce → msgLow m = 3 → tiGroup m.dest = g.val → stageJudge s st m = .take →
      h = hdrOf m.data → h.phase = 0 → h.stage = 1 → senderRank s g.val h m = some k → (h.seg = y.open0 ∨ h.seg = y.open1) → z = shAt (segAt y h.seg) h.share 1 → k ∉ z.skip →
      h.last = true → cget 0 z.got k + h.count ≠ shareHi (groupAt s g.val).record o.raw h.seg h.share - shareLo (groupAt s g.val).record o.raw h.seg h.share →
      Next (.stageMessageReceive st m) s (fun t => ∀ w, memAt t st.val g.val = some w → w.lost = [⟨h.seg, h.share, 1, k⟩]))) ∧
    (∀ (seg q t0 : Nat), seg ≠ segCount o.raw → segOpen o.raw y seg = true → isNode s (groupAt s g.val).record g.val st.val q 1 = true → frozenAt s st.val = false →
      (shAt (segAt y seg) q 1).done = false → (shAt (segAt y seg) q 1).since = some t0 →
      Next (.allsumLossWaitExpiry st g seg q 1) s (fun t => t0 + stageWait s 1 ≤ t.time ∧
        (∀ z, memAt t st.val g.val = some z → z.lost = ((expected s (groupAt s g.val).record g.val st.val 1).filter
          (fun k => !decide (k ∈ (shAt (segAt y seg) q 1).last)) ++
          (if (segAt y seg).own then [] else [ownRank s (groupAt s g.val).record g.val st.val 1])).map (fun k => ⟨seg, q, 1, k⟩) ++ y.lost))) ∧
    (y.sum.sent = true → holderOf (groupAt s g.val).record 0 = st.val → o.totals = none →
      frozenAt s st.val = false → (∃ u ∈ stageUnits s (groupAt s g.val).record g.val 1, u ∉ o.landed) →
      Next (.allsumResultAbandon st g (segCount o.raw)) s (fun t => opAt t g.val = some { o with sumGone := true, lost := true } ∧
        y.sum.sentAt + abandonWait s g.val ≤ t.time ∧ t.red = s.red))

/-- With the near port open and port A idle: a write of all 32 bytes outside the release block and the read-only areas stores exactly its word; a read of a clean word returns it behind the returns that the crossing still holds (of its 8 entries the last 7: log 52), one in the release block outside a ring's context area returns zeros, one of a poisoned word returns free bytes with CPk_NP_ERR; none changes memory. A read while port A applies a write of the same word returns free bytes with CPk_DP_BUSY. While the port is shut nothing happens. -/
def Obligations.TheNearPortReadsAndWritesWords : Prop :=
  ∀ (s : State) (st : StandId) (r : NpReq), Up s →
    (nearShut s st = true → Next (.nearPortAccess st r .none) s (fun t => body t = body s)) ∧
    (nearShut s st = false → r.we = true → popcount r.be = 32 → nearRelease (r.addr.toNat * 32) = false → nearReadOnly s st.val (r.addr.toNat * 32) = false →
      Next (.nearPortAccess st r .none) s (fun t => memBytes t st.val dpBank (r.addr.toNat * 32) 32 = leBytes 32 r.wdata.toNat ∧
        wordSt t st.val dpBank r.addr.toNat = .clean ∧
        (∀ (st' : StandId) (bank b : Nat), bank < 35 → b < 2 ^ 21 → st' ≠ st ∨ bank ≠ dpBank ∨ b < r.addr.toNat * 32 ∨ r.addr.toNat * 32 + 32 ≤ b →
          memByte t st'.val bank b = memByte s st'.val bank b) ∧ t.out = s.out ∧ t.flt = s.flt)) ∧
    (nearShut s st = false → r.we = false → (nearRelease (r.addr.toNat * 32) = false ∨ inCtxArea s st.val (r.addr.toNat * 32) 32 = true) →
      (wordSt s st.val dpBank r.addr.toNat = .clean → Next (.nearPortAccess st r .none) s (fun t =>
        cget [] t.port.np st.val = npHeld s st ++ [⟨wordData s st.val dpBank r.addr.toNat, false, false⟩] ∧ t.slice = s.slice ∧ t.free = s.free)) ∧
      (wordSt s st.val dpBank r.addr.toNat = .poison → Next (.nearPortAccess st r .none) s (fun t =>
        cget [] t.port.np st.val = npHeld s st ++ [⟨(List.range 32).map (fun i => Config.freeByte (s.free + i)), true, false⟩] ∧ t.slice = s.slice))) ∧
    (nearShut s st = false → r.we = false → nearRelease (r.addr.toNat * 32) = true → inCtxArea s st.val (r.addr.toNat * 32) 32 = false → Next (.nearPortAccess st r .none) s (fun t =>
      cget [] t.port.np st.val = npHeld s st ++ [⟨List.replicate 32 0, false, false⟩] ∧ t.slice = s.slice)) ∧
    (∀ m : Msg, nearShut s st = false → r.we = false → m.op = opWrite → meetsWord s st m r.addr.toNat = true → Next (.nearPortAccess st r (.msg m)) s (fun t =>
      (cget [] t.port.np st.val).map (fun x => (x.data.length, x.err, x.busy)) =
        (npHeld s st).map (fun x => (x.data.length, x.err, x.busy)) ++ [(32, false, true)]))

/-- At a bank without a twin: a write that R304 refuses changes no register and raises one event; a handover of an ACTIVE bank to an owner other than FREE without KEEP sets KIND, TAG and BUSY and leaves memory; one to FREE leaves it ACTIVE and not BUSY; setting RET at an owned idle bank begins ENTERING, clearing it aborts ENTERING or wakes a RETAINED bank. The end of a wipe leaves every byte of the bank 0 and no other byte changed; the end of an entry makes the bank RETAINED, the end of a wake ACTIVE, with memory as it was; without that state nothing changes. -/
def Obligations.BanksAreHandedOverAndRetained : Prop :=
  ∀ (s : State) (st : StandId) (b : Fin 34),
    (∀ (v new o : Word), MgServed s (stdOff st (0x680 + b.val * 8)) → o = ownReg s st.val b.val →
      new = merge (mask 57 1 ||| mask 52 4 ||| mask 0 16) o v → entryOfPrimary s st.val b.val = none →
      (ownRefuse s st.val b.val new = true → Next (.bankHandover st b v) s (fun t => t.regs = s.regs ∧ t.slice = s.slice ∧ t.flt.inbox.length = s.flt.inbox.length + 1)) ∧
      (ownRefuse s st.val b.val new = false → (ownKind new ≠ ownKind o ∨ ownTag new ≠ ownTag o) → ownKind new ≠ 0 → bitAt v 56 = false → ownRstate o = 0 →
        Next (.bankHandover st b v) s (fun t => ownKind (ownReg t st.val b.val) = ownKind new ∧ ownTag (ownReg t st.val b.val) = ownTag new ∧
          ownBusy (ownReg t st.val b.val) = true ∧ t.slice = s.slice ∧ (∀ off, off ≠ ownOff st.val b.val → regGet t off = regGet s off))) ∧
      (ownRefuse s st.val b.val new = false → ownKind o ≠ 0 → ownKind new = 0 →
        Next (.bankHandover st b v) s (fun t => ownKind (ownReg t st.val b.val) = 0 ∧ ownRstate (ownReg t st.val b.val) = 0 ∧
          ownBusy (ownReg t st.val b.val) = false ∧ t.slice = s.slice)) ∧
      (ownRefuse s st.val b.val new = false → ownKind new = ownKind o → ownTag new = ownTag o → ownKind o ≠ 0 →
        (ownRet o = false → ownRet new = true → ownRstate o = 0 → Next (.bankRetWrite st b v) s (fun t =>
          ownRstate (ownReg t st.val b.val) = 1 ∧ ownRet (ownReg t st.val b.val) = true ∧ t.slice = s.slice)) ∧
        (ownRet o = true → ownRet new = false → ownRstate o = 1 → Next (.bankRetWrite st b v) s (fun t =>
          ownRstate (ownReg t st.val b.val) = 0 ∧ ownRet (ownReg t st.val b.val) = false ∧ t.slice = s.slice)) ∧
        (ownRet o = true → ownRet new = false → ownRstate o = 2 → Next (.bankRetWrite st b v) s (fun t =>
          ownRstate (ownReg t st.val b.val) = 3 ∧ ownRet (ownReg t st.val b.val) = false ∧ t.slice = s.slice)))) ∧
    (Up s → ownBusy (ownReg s st.val b.val) = true → ownRstate (ownReg s st.val b.val) = 0 → Next (.bankWipeComplete st b) s (fun t =>
      ownBusy (ownReg t st.val b.val) = false ∧ ownKind (ownReg t st.val b.val) = ownKind (ownReg s st.val b.val) ∧
      (∀ i, i < 2 ^ 21 → memByte t st.val b.val i = 0) ∧
      (∀ (st' : StandId) (bank i : Nat), bank < 35 → i < 2 ^ 21 → st' ≠ st ∨ bank ≠ b.val → memByte t st'.val bank i = memByte s st'.val bank i))) ∧
    (Up s → ownBusy (ownReg s st.val b.val) = false → Next (.bankWipeComplete st b) s (fun t => body t = body s)) ∧
    (Up s → (ownRstate (ownReg s st.val b.val) = 1 → Next (.bankRetentionEntered st b) s (fun t => ownRstate (ownReg t st.val b.val) = 2 ∧ t.slice = s.slice)) ∧
      (ownRstate (ownReg s st.val b.val) ≠ 1 → Next (.bankRetentionEntered st b) s (fun t => body t = body s)) ∧
      (ownRstate (ownReg s st.val b.val) = 3 → ownRet (ownReg s st.val b.val) = false →
        Next (.bankWakeComplete st b) s (fun t => ownRstate (ownReg t st.val b.val) = 0 ∧ t.slice = s.slice)) ∧
      (ownRstate (ownReg s st.val b.val) ≠ 3 → Next (.bankWakeComplete st b) s (fun t => body t = body s)))

/-- The end of a twin's fill, with every word of both banks clean, leaves every byte of the twin equal to the primary's and clears TSYNC. A scrub of a clean word moves its position on by one and changes no byte; at the last word PASSES counts on and the next pass begins at word 0, one period after this one began (log 109). MODE other than 0 is taken only at a girdled stand, and 3 never. In service, while a raw command runs (log 18), or under the test of a released stand, a raw command is refused; out of service an aligned raw read of a clean word puts it into the data registers and changes no memory, and an aligned raw write stores the data registers into exactly its word. -/
def Obligations.TwinsScrubsAndTheRawWindow : Prop :=
  ∀ (s : State) (st : StandId),
    (∀ (n : Fin 1536) (c : Word), Up s → c = coppice s n.val → copState c = 1 → copTwin c = true → copPStand c < 48 → copPBank c < 34 → copTStand c < 48 → copTBank c < 34 →
      (copPStand c ≠ copTStand c ∨ copPBank c ≠ copTBank c) → ownTsync (ownReg s (copTStand c) (copTBank c)) = true → girdled s (copPStand c) = false →
      girdled s (copTStand c) = false → frozenAt s (copPStand c) = false → frozenAt s (copTStand c) = false → (∀ w, w < 65536 → wordSt s (copPStand c) (copPBank c) w = .clean) → oget s.map.rehomes n.val = none →
      Next (.twinFillComplete n) s (fun t => ownTsync (ownReg t (copTStand c) (copTBank c)) = false ∧
        (∀ i, i < 2 ^ 21 → memByte t (copTStand c) (copTBank c) i = memByte s (copPStand c) (copPBank c) i ∧
          memByte t (copPStand c) (copPBank c) i = memByte s (copPStand c) (copPBank c) i) ∧ t.out = .rhz (.fillDone n.val) :: s.out)) ∧
    (∀ p : Nat, Up s → regBit s (stdOff st 0x7B8) 63 = true → girdled s st.val = false → frozenAt s st.val = false → standDormant s st = false →
      p = cget 0 s.slice.scrub st.val → p < scrubTotal → (34 ≤ p / 65536 ∨ scrubBank s st.val (p / 65536) = true) → wordSt s st.val (p / 65536) (p % 65536) = .clean →
      (p + 1 < scrubTotal → Next (.scrubRead st) s (fun t => cget 0 t.slice.scrub st.val = p + 1 ∧ t.slice.mem = s.slice.mem ∧ t.regs = s.regs ∧
        t.time = (match oget s.slice.scrubAt st.val with | some a => if p = 0 then max s.time (a + scrubPeriod s st) else s.time | none => s.time) ∧
        (p = 0 → oget t.slice.scrubAt st.val = some t.time))) ∧
      (p + 1 = scrubTotal → Next (.scrubRead st) s (fun t => cget 0 t.slice.scrub st.val = 0 ∧ t.slice.mem = s.slice.mem ∧
        regFld t (stdOff st 0x7B8) 0 32 = satAdd 32 (regFld s (stdOff st 0x7B8) 0 32) 1))) ∧
    (Up s → regBit s (stdOff st 0x7B8) 63 = false → Next (.scrubRead st) s (fun t => body t = body s)) ∧
    (∀ v : Word, Up s → s.mg.rstN = true →
      ((fld v 0 2 = 3 ∨ (fld v 0 2 ≠ 0 ∧ girdled s st.val = false)) → Next (.sliceModeWrite st v) s (fun t => body t = body s)) ∧
      (fld v 0 2 ≠ 3 → (fld v 0 2 = 0 ∨ girdled s st.val = true) → Next (.sliceModeWrite st v) s (fun t => regFld t (stdOff st 0x7A0) 0 2 = fld v 0 2 ∧
        (∀ off, off ≠ stdOff st 0x7A0 → regGet t off = regGet s off) ∧ t.slice = s.slice)) ∧
      (bitAt v 57 = true → (inService s st.val = true ∨ rawDone s st = false ∨ s.bup.retest.any (fun p => decide (p.1 = st)) = true) →
        Next (.rawRead st v) s (fun t => regBit t (stdOff st 0x7C0) 60 = true ∧ t.slice = s.slice) ∧
        Next (.rawWrite st v) s (fun t => regBit t (stdOff st 0x7C0) 60 = true ∧ t.slice = s.slice)) ∧
      (bitAt v 57 = true → rawDone s st = true → inService s st.val = false → s.bup.reported ≠ 5 → s.bup.retest.any (fun p => decide (p.1 = st)) = false → fld v 51 6 < 34 → fld v 0 21 % 32 = 0 → bitAt v 59 = false →
        ownKind (ownReg s st.val (fld v 51 6)) ≠ 0 →
        (bitAt v 58 = false → wordSt s st.val (fld v 51 6) (fld v 0 21 / 32) = .clean → Next (.rawRead st v) s (fun t =>
          (∀ i, i < 4 → regGet t (stdOff st (0x7D0 + i * 8)) = BitVec.ofNat 64 (leAt (wordData s st.val (fld v 51 6) (fld v 0 21 / 32)) (i * 8) 8)) ∧
          regFld t (stdOff st 0x7C0) 60 3 = 0 ∧ t.slice = { s.slice with raw := t.slice.raw })) ∧
        (bitAt v 58 = true → Next (.rawWrite st v) s (fun t =>
          memBytes t st.val (fld v 51 6) (fld v 0 21) 32 = (List.range 4).flatMap (fun i => leBytes 8 (regGet s (stdOff st (0x7D0 + i * 8))).toNat) ∧
          (∀ (st' : StandId) (bank i : Nat), bank < 35 → i < 2 ^ 21 → st' ≠ st ∨ bank ≠ fld v 51 6 ∨ i < fld v 0 21 ∨ fld v 0 21 + 32 ≤ i →
            memByte t st'.val bank i = memByte s st'.val bank i)))))

/-- At an allocated object that is not LOST a SIGNAL adds its signed increment: within range the count is the sum, above 2^32 − 1 it is 2^32 − 1 with OVF, below 0 it is 0 with UNF. One at an object not allocated only sets MISUSE. A write of SYN_OBJ sets count and target; SYN_CTL's ALLOC set at a free object clears the flags, cleared it sets MISUSE and removes every watch on the object. The shadow slot of a changed object holds its count and target, and no other object changes. At a LOST object nothing happens. The registration of a WAIT at an allocated object of this die places a watch where its condition does not hold and the home has fewer than 128, is reported at once where it holds, and makes the WAIT poll where the home is full. The report ends the WAIT of a core port with its status in one record and sets the wake flag; the TIMEOUT does the same with TIMEOUT, no earlier than it lasts, and releases the watch. A release removes every watch of that acceptor but one it still waits on. A poll with a TARGET of its own, of a port without a meter whose bucket lets 64 bytes go, sends one READ_REQ of 4 bytes for the count and charges the bucket. -/
def Obligations.SyncObjectsAndTheirWaits : Prop :=
  (∀ (s : State) (n : Fin 4096), Up s →
    let o := syncObj s n.val
    let only (t : State) (p : SyncObj) : Prop := syncObj t n.val = p ∧ (∀ m : Fin 4096, m ≠ n → syncObj t m.val = syncObj s m.val) ∧
      (shadowShut s (n.val % 48) = false → memBytes t (n.val % 48) dpBank (0x10000 + n.val / 48 * 16) 8 = leBytes 4 p.count.toNat ++ leBytes 4 p.target.toNat)
    (objLost s n.val = true → (∀ inc : BitVec 32, Next (.signalApply n inc) s (fun t => body t = body s)) ∧
      (∀ v : Word, s.mg.rstN = true → Next (.syncObjectWrite n v) s (fun t => body t = body s) ∧ Next (.syncControlWrite n v) s (fun t => body t = body s))) ∧
    (objLost s n.val = false → ∀ inc : BitVec 32,
      (o.alloc = false → Next (.signalApply n inc) s (fun t => only t { o with misuse := true })) ∧
      (o.alloc = true → inc ≠ 0 →
        (0 ≤ (o.count.toNat : Int) + inc.toInt → (o.count.toNat : Int) + inc.toInt < 2 ^ 32 →
          Next (.signalApply n inc) s (fun t => only t { o with count := o.count + inc })) ∧
        (2 ^ 32 ≤ (o.count.toNat : Int) + inc.toInt → Next (.signalApply n inc) s (fun t => only t { o with count := 0xFFFFFFFF, ovf := true })) ∧
        ((o.count.toNat : Int) + inc.toInt < 0 → Next (.signalApply n inc) s (fun t => only t { o with count := 0, unf := true })))) ∧
    (∀ v : Word, objLost s n.val = false → s.mg.rstN = true →
      Next (.syncObjectWrite n v) s (fun t => only t { o with count := BitVec.ofNat 32 (fld v 0 32), target := BitVec.ofNat 32 (fld v 32 32) }) ∧
      (o.alloc = false → bitAt v 63 = true → Next (.syncControlWrite n v) s (fun t => only t { o with alloc := true, ovf := false, unf := false, misuse := false })) ∧
      (o.alloc = true → bitAt v 63 = false → Next (.syncControlWrite n v) s (fun t =>
        only t { o with alloc := false, ovf := o.ovf && !bitAt v 61, unf := o.unf && !bitAt v 60, misuse := true } ∧
        ∀ w ∈ watchesOf t n.val, w.obj ≠ n.val)) ∧
      (bitAt v 63 = o.alloc → Next (.syncControlWrite n v) s (fun t =>
        only t { o with ovf := o.ovf && !bitAt v 61, unf := o.unf && !bitAt v 60, misuse := o.misuse && !bitAt v 59 })))) ∧
  (∀ (s : State) (k : StandId) (w : WaitSt), Up s → oget s.sync.waits (4096 + k.val) = some w →
    (w.mode = .asking → namesThisDie s w.addr = true → objLost s (aObject w.addr) = false → (syncObj s (aObject w.addr)).alloc = true →
      (waitHolds (syncObj s (aObject w.addr)) w.target = true → Next (.watchRegister (.port k)) s (fun t =>
        (oget t.sync.waits (4096 + k.val)).map WaitSt.mode = some (.reported .ok) ∧ t.sync.watches = s.sync.watches)) ∧
      (waitHolds (syncObj s (aObject w.addr)) w.target = false →
        ((watchesOf s (aObject w.addr)).length < 128 → Next (.watchRegister (.port k)) s (fun t =>
          watchesOf t (aObject w.addr) = watchesOf s (aObject w.addr) ++ [{ obj := aObject w.addr, target := w.target, acc := .port k, desc := w.desc }] ∧
          oget t.sync.waits (4096 + k.val) = some { w with mode := .watched } ∧ t.out = s.out)) ∧
        (128 ≤ (watchesOf s (aObject w.addr)).length → Next (.watchRegister (.port k)) s (fun t =>
          oget t.sync.waits (4096 + k.val) = some { w with mode := .polling } ∧ t.sync.watches = s.sync.watches)))) ∧
    (∀ d : DescSt, descAt s w.desc = some d → d.phase = .waiting → FreshDesc d → d.acc = .port k → portLossy s k = false → fenced s k.val = false →
      dTally d.raw = false → csSv d.raw = false → regBit s 0xC0000 63 = false →
      (∀ r : Status, w.mode = .reported r → workHeld s = false → Next (.watchReport (.port k)) s (fun t =>
        RecordSent s t k d r 0 0 ∧ oget t.sync.waits (4096 + k.val) = none ∧ cget false t.port.wake k.val = true ∧ descAt t w.desc = none)) ∧
      (w.tmo ≠ 0 → s.dorm.phase = .service → Next (.waitTimeout (.port k)) s (fun t => w.start + w.tmo * 1000 ≤ t.time ∧
        RecordSent s t k d .timeout 0 0 ∧ oget t.sync.waits (4096 + k.val) = none ∧ cget false t.port.wake k.val = true ∧
        (namesThisDie s w.addr = true → t.out.head? = some (.rhz (.watchRelease (aObject w.addr) (.port k))))))) ∧
    (w.tmo = 0 → Next (.waitTimeout (.port k)) s (fun t => body t = body s)) ∧
    Next (.watchRelease (.port k)) s (fun t => ∀ (st : StandId) (x : Watch), x ∈ cget [] t.sync.watches st.val ↔
      x ∈ cget [] s.sync.watches st.val ∧ (x.far.isSome = true ∨ x.acc ≠ .port k ∨ (w.mode = .watched ∧ w.desc = x.desc ∧ aObject w.addr = x.obj))) ∧
    (∀ (d : DescSt) (te : Tenant) (i : Nat) (p : BitVec 6) (e : BitVec 2), w.mode = .polling → workHeld s = false → w.target ≠ 0 → w.colour = none → w.second = false →
      descAt s w.desc = some d → bitAt (portPolice s k) 63 = false → (boundEntry s k).bind (tenantAt s) = some te →
      (mayDispatch (cget {} s.tnt.portBkt k.val) te.rate te.burst (chargeOf 2) s.time).1 = true →
      SendsAt s (.port k) (readMsg s (.port k) (planeOf 0) d.tag16 (w.addr + BitVec.ofNat 64 0) 4 false) i p e →
      Next (.waitPoll (.port k)) s (fun t => oget t.sync.waits (4096 + k.val) = some w ∧
        cget {} t.tnt.portBkt k.val = (mayDispatch (cget {} s.tnt.portBkt k.val) te.rate te.burst (chargeOf 2) s.time).2 ∧
        (flowAt t (flowKey (.port k) true i)).win.map (fun z => (z.m.op, z.m.dest, z.m.data)) =
          [(opReadReq, w.addr + BitVec.ofNat 64 0, readReqData 4)])))

/-- A write of BAR_MASK, or of BAR_CTL with EN 1, while the barrier gathers with an arrival, or one that sets PKG with a DMASK that omits this die, or that leaves EN 1 with PMASK 0 and PKG 0, changes no barrier and raises one event. A write of BAR_CTL with EN 0 sets the fields written, clears BROKEN, PHASE and ARRIVED and releases each arrived port with ADDR_RANGE; one with EN 1 of a die-scope barrier that may be rewritten, none of whose participants is lost, and a write of BAR_MASK of a barrier that is off set their fields and clear the same; no other barrier changes. At a port that takes a request at once: an arrival at a barrier that is off or does not name the port is answered ADDR_RANGE, of another tag OWNER, a second one of the phase NOT_READY, each with no barrier changed; one at a broken barrier is answered MEMBER_LOST and wakes the core. Otherwise its leaf is driven and the timer's start kept; the arrival that completes a die-scope phase releases every arrived port with OK, clears the arrivals and toggles PHASE. TMO_US after the first arrival the barrier breaks, no earlier: BROKEN is set, every arrived port is released with TIMEOUT and one event is raised. From COMMIT until the exit from dormancy is complete the barrier breaks or is switched off all the same, and its releases wait. -/
def Obligations.BarriersRewriteGatherAndBreak : Prop :=
  (∀ (s : State) (n : Fin 64) (word : Fin 2) (v : Word), MgServed s (0x90000 + n.val * 32 + word.val * 8) →
    let b := barAt s n.val
    let busy : Bool := b.en && !b.broken && b.arrived != 0
    let others (t : State) : Prop := ∀ m : Fin 64, m ≠ n → barAt t m.val = barAt s m.val
    ((busy = true ∧ (word = 0 ∨ bitAt v 63 = true)) ∨ (word = 1 ∧ bitAt v 62 = true ∧ bitAt v (58 + pdie s) = false) ∨
        (word = 1 ∧ b.mask = 0 ∧ bitAt v 63 = true ∧ bitAt v 62 = false) ∨ (word = 0 ∧ fld v 0 48 = 0 ∧ b.en = true ∧ b.pkg = false) →
      Next (.barrierRewrite n word v) s (fun t => t.sync = s.sync ∧ t.regs = s.regs ∧ t.port = s.port ∧ t.out = s.out ∧
        t.flt.inbox.length = s.flt.inbox.length + 1)) ∧
    (word = 1 → bitAt v 63 = false → (bitAt v 62 = false ∨ bitAt v (58 + pdie s) = true) →
      Next (.barrierRewrite n word v) s (fun t => others t ∧
        barAt t n.val = ⟨b.mask, false, bitAt v 62, BitVec.ofNat 4 (fld v 58 4), false, false, BitVec.ofNat 16 (fld v 32 16), BitVec.ofNat 16 (fld v 0 16), 0, none, 0⟩ ∧
        (dormHeld s = false → ∀ k : StandId, portLossy s k = false → (bitAt b.arrived k.val = true → Delivered s t k 2 .addrRange (BitVec.ofNat 8 n.val)) ∧
          (bitAt b.arrived k.val = false → cget [] t.port.dl k.val = cget [] s.port.dl k.val)) ∧
        (dormHeld s = true → t.port = s.port ∧
          t.sync.rels = s.sync.rels ++ (stands.filter (fun k => bitAt b.arrived k.val)).map (fun k => (k, n.val, .addrRange))))) ∧
    (word = 1 → bitAt v 63 = true → bitAt v 62 = false → busy = false → b.mask ≠ 0 → MembersPresent s b.mask →
      Next (.barrierRewrite n word v) s (fun t => others t ∧
        barAt t n.val = ⟨b.mask, true, false, BitVec.ofNat 4 (fld v 58 4), false, false, BitVec.ofNat 16 (fld v 32 16), BitVec.ofNat 16 (fld v 0 16), 0, none, 0⟩ ∧
        t.port = s.port ∧ t.out = s.out ∧ t.flt = s.flt)) ∧
    (word = 0 → b.en = false → Next (.barrierRewrite n word v) s (fun t => others t ∧
      barAt t n.val = { b with mask := BitVec.ofNat 48 (fld v 0 48), broken := false, phase := false, arrived := 0, first := none, vec := 0 } ∧
      t.port = s.port ∧ t.out = s.out ∧ t.flt = s.flt))) ∧
  ((∀ (s : State) (k : StandId) (r : RqMsg) (n : Nat) (b : Bar), PortOpen s k → r.kind = 6 → rqFormOk r = true → n = r.bar.toNat → b = barAt s n →
    let rid : BitVec 8 := BitVec.ofNat 8 n
    let same (t : State) : Prop := t.sync = s.sync ∧ rqOf t k = []
    ((b.en = false ∨ bitAt b.mask k.val = false) → Next (.barrierArrival k r) s (fun t => same t ∧ Delivered s t k 2 .addrRange rid ∧ t.port.wake = s.port.wake)) ∧
    (b.en = true → bitAt b.mask k.val = true →
      (boundTag s k ≠ some b.tag → Next (.barrierArrival k r) s (fun t => same t ∧ Delivered s t k 2 .owner rid ∧ t.port.wake = s.port.wake)) ∧
      (boundTag s k = some b.tag →
        (bitAt b.arrived k.val = true → Next (.barrierArrival k r) s (fun t => same t ∧ Delivered s t k 2 .notReady rid ∧ t.port.wake = s.port.wake)) ∧
        (bitAt b.arrived k.val = false → b.broken = true →
          Next (.barrierArrival k r) s (fun t => same t ∧ Delivered s t k 2 .memberLost rid ∧ cget false t.port.wake k.val = true)) ∧
        (bitAt b.arrived k.val = false → b.broken = false → b.pkg = false → MembersPresent s b.mask →
          (b.mask &&& ~~~(setBit b.arrived k.val true) ≠ 0 → Next (.barrierArrival k r) s (fun t => rqOf t k = [] ∧
            barAt t n = { b with arrived := setBit b.arrived k.val true, first := some (b.first.getD s.time) } ∧
            (∀ m : Nat, m ≠ n → barAt t m = barAt s m) ∧ t.port.dl = s.port.dl ∧ t.out = s.out)) ∧
          (b.mask &&& ~~~(setBit b.arrived k.val true) = 0 → Next (.barrierArrival k r) s (fun t => rqOf t k = [] ∧
            barAt t n = { b with arrived := 0, first := none, phase := !b.phase, vec := 0 } ∧ (∀ m : Nat, m ≠ n → barAt t m = barAt s m) ∧
            (∀ j : StandId, portLossy s j = false → (bitAt b.arrived j.val = true ∨ j = k) →
              Delivered s t j 2 .ok rid ∧ (fenced s j.val = false → cget false t.port.wake j.val = true)))))))) ∧
  (∀ (s : State) (n : Fin 64) (b : Bar), Up s → b = barAt s n.val →
    (∀ t0 : Nat, s.dorm.phase = .service → b.first = some t0 → b.en = true → b.broken = false → b.tmo ≠ 0 → Next (.barrierTimeout n) s (fun t =>
      t0 + b.tmo.toNat * 1000 ≤ t.time ∧ barAt t n.val = { b with broken := true, arrived := 0, first := none, vec := 0 } ∧
      (∀ m : Nat, m ≠ n.val → barAt t m = barAt s m) ∧ t.flt.inbox.length = s.flt.inbox.length + 1 ∧
      (∀ j : StandId, portLossy s j = false → bitAt b.arrived j.val = true →
        Delivered s t j 2 .timeout (BitVec.ofNat 8 n.val) ∧ (fenced s j.val = false → cget false t.port.wake j.val = true)))) ∧
    (∀ t0 : Nat, dormHeld s = true → b.first = some t0 → b.en = true → b.broken = false → b.tmo ≠ 0 → Next (.barrierTimeout n) s (fun t =>
      t0 + b.tmo.toNat * 1000 ≤ t.time ∧ barAt t n.val = { b with broken := true, arrived := 0, first := none, vec := 0 } ∧ t.port = s.port ∧
      t.sync.rels = s.sync.rels ++ (stands.filter (fun k => bitAt b.arrived k.val)).map (fun k => (k, n.val, .timeout)))) ∧
    ((b.first = none ∨ b.en = false ∨ b.broken = true ∨ b.tmo = 0) → Next (.barrierTimeout n) s (fun t => body t = body s))))

/-- An update without byte A, with wrong marker bits or a wrong CRC-3 changes no barrier, counts in its edge's SBERR and raises one event. A valid one brings the edge's sideband up; a package-scope barrier that is broken or of the other phase stays; of a barrier that is not enabled here in package scope the vector is joined to what has been heard of that phase, and passed on on every trained edge where that changes (what a die without the barrier passes on is the model's reading: log 22); the vector of a package-scope barrier of the same phase takes the bits received, and where this die has arrived and every die of DMASK is known arrived, the barrier is released and toggles PHASE. The resending puts out exactly the state of every enabled package-scope barrier, or of barrier 0, on every edge with a module up. 10 microseconds without an update, no earlier, take the sideband down, and an enabled barrier that has no path left breaks. -/
def Obligations.SidebandsCarryDieArrivals : Prop :=
  ∀ s : State, Up s →
    let live : List (Fin 4) := (List.finRange 4).filter (fun e => edgeLive s e.val)
    (∀ (e : Fin 4) (x : Option Byte) (y : Byte),
      (∀ a : Byte, x = some a → bitAt a 7 = false ∨ bitAt y 7 = true ∨ fld y 0 3 ≠ crc3 (fld a 0 7) y.toNat) →
      Next (.sidebandUpdateReceive e x y) s (fun t => t.sync = s.sync ∧ t.brg = s.brg ∧ t.flt.inbox.length = s.flt.inbox.length + 1 ∧
        regFld t (0xB0010 + e.val * 8) 32 16 = satAdd 16 (regFld s (0xB0010 + e.val * 8) 32 16) 1)) ∧
    (∀ (e : Fin 4) (a y : Byte), bitAt a 7 = true → bitAt y 7 = false → fld y 0 3 = crc3 (fld a 0 7) y.toNat →
      let b := barAt s (fld a 0 6)
      let v := b.vec ||| BitVec.ofNat 4 (fld y 3 4)
      let heard (t : State) : Prop := sbAt t e.val = ⟨true, s.time⟩ ∧ (∀ m : Nat, m ≠ fld a 0 6 → barAt t m = barAt s m)
      (b.en = true → b.pkg = true → (b.broken = true ∨ b.phase ≠ bitAt a 6) →
        Next (.sidebandUpdateReceive e (some a) y) s (fun t => heard t ∧ t.sync = s.sync ∧ t.out = s.out)) ∧
      (∀ x z : Bool × BitVec 4, (b.en = false ∨ b.pkg = false) → x = cget (false, 0) s.sync.relay (fld a 0 6) →
        z = (bitAt a 6, if x.1 = bitAt a 6 then x.2 ||| BitVec.ofNat 4 (fld y 3 4) else BitVec.ofNat 4 (fld y 3 4)) →
        Next (.sidebandUpdateReceive e (some a) y) s (fun t => heard t ∧ { t.sync with relay := s.sync.relay } = s.sync ∧
          cget (false, 0) t.sync.relay (fld a 0 6) = z ∧
          t.out = (if z = x then [] else live.map (fun e => Out.sideband e (sbBytes (fld a 0 6) z).1 (sbBytes (fld a 0 6) z).2)).reverse ++ s.out)) ∧
      (b.en = true → b.broken = false → b.pkg = true → b.phase = bitAt a 6 → dormHeld s = false → barLoss (setSb s e.val ⟨true, s.time⟩) b = none →
        (barOwn b = false → Next (.sidebandUpdateReceive e (some a) y) s (fun t => heard t ∧ barAt t (fld a 0 6) = { b with vec := v } ∧ t.port = s.port)) ∧
        (barOwn b = true → b.mask ≠ 0 → b.dmask &&& ~~~(setBit v (pdie s) true) = 0 →
          Next (.sidebandUpdateReceive e (some a) y) s (fun t => heard t ∧
            barAt t (fld a 0 6) = { b with arrived := 0, first := none, phase := !b.phase, vec := 0 } ∧
            (∀ k : StandId, portLossy s k = false → bitAt b.arrived k.val = true → Delivered s t k 2 .ok (BitVec.ofNat 8 (fld a 0 6))))))) ∧
    Next .sidebandResend s (fun t => t.sync = s.sync ∧ t.brg = s.brg ∧
      t.out = ((if (List.range 64).any (fun n => (barAt s n).en && (barAt s n).pkg) then (List.range 64).filter (fun n => (barAt s n).en && (barAt s n).pkg)
        else [0]).flatMap (fun n => live.map (fun e => Out.sideband e (sbBytes n (sbState s n)).1 (sbBytes n (sbState s n)).2))).reverse ++ s.out) ∧
    (∀ e : Fin 4, ((sbAt s e.val).up = true → Next (.sidebandLoss e) s (fun t => (sbAt t e.val).up = false ∧ (sbAt s e.val).last + 10000 ≤ t.time ∧
        (∀ (n : Fin 64) (loc : Nat), (barAt s n.val).en = true → (barAt s n.val).broken = false →
          barLoss (setSb s e.val { sbAt s e.val with up := false }) (barAt s n.val) = some loc → (barAt t n.val).broken = true ∧ (barAt t n.val).arrived = 0))) ∧
      ((sbAt s e.val).up = false → Next (.sidebandLoss e) s (fun t => body t = body s)))

/-- In SERVICE, stage S7, outside a dump and the fatal state, a write with NOW and EN 1, or a die found idle with EN 1 for IDLE_US, at least 1 microsecond, starts a round with the next number (since when it is idle is the model's reading, log 107); a write with WAKE has the collector send NO once in a round, latches the request in ENTERING, starts the exit in DORMANT and does nothing in SERVICE. A voter that has not voted sends YES where it is idle and NO where not. A vote of another round changes nothing; a YES is counted once; the last one commits: ENTERING, the request saved, VDORM requested. A NO aborts before COMMIT, with ABORTS + 1 and WHY 1 where its voter saw a wake request before it voted, else WHY 2, and latches after it, which in DORMANT starts the exit; 2 microseconds without every vote, no earlier, abort with WHY 3. A stand in service that has not yet taken COMMIT sets RET on exactly the banks of its own that are released, owned, not RETAINED and not asked to be, records them, and changes no memory. When every stand has taken it and no recorded bank is on its way, ENTRIES counts on and the die is DORMANT, or starts the exit where a request is latched. The exit restores the request held before COMMIT and clears RET on every recorded bank, which wakes the RETAINED ones; in the safe state of the supply it leaves both as they are. With no request waiting at a port and no report to another die withheld, the exit is complete once those banks are ACTIVE and p is at least 160: SERVICE, nothing latched, the withheld releases offered, EXIT_NS recorded; below the floor nothing changes. -/
def Obligations.DormancyRunsItsRound : Prop :=
  (∀ s : State, Up s →
    let proposed (t : State) (now : Nat) : Prop :=
      t.dorm = { s.dorm with phase := .proposed, round := s.dorm.round + 1, cast := [], yes := [], nos := [], taken := [], at_ := now } ∧
      t.out = .rhz (.propose (s.dorm.round + 1)) :: s.out ∧ t.pwr = s.pwr
    let aborted (t : State) (why : Nat) : Prop := t.dorm.phase = .service ∧ t.dorm.why = why ∧ t.dorm.round = s.dorm.round ∧ t.dorm.yes = [] ∧
      t.out = .rhz (.abort s.dorm.round) :: s.out ∧ regFld t 0xA28 16 16 = satAdd 16 (regFld s 0xA28 16 16) 1 ∧ t.pwr = s.pwr
    (∀ (v : Word) (c : Instr), MgServed s 0xA20 → c = .dormancyNow v ∨ c = .dormancyWakeWrite v →
      (bitAt v 61 = false → bitAt v 62 = true → bitAt v 63 = true → s.dorm.phase = .service → 7 ≤ s.bup.reported → s.obs.dump = .idle → fatalLatched s = false →
        Next c s (fun t => proposed t s.time ∧ regBit t 0xA20 63 = true ∧ regFld t 0xA20 0 16 = fld v 0 16)) ∧
      (bitAt v 61 = false → (bitAt v 62 = false ∨ bitAt v 63 = false ∨ s.dorm.phase ≠ .service) → Next c s (fun t => t.dorm = s.dorm ∧ t.out = s.out ∧
        regBit t 0xA20 63 = bitAt v 63 ∧ regFld t 0xA20 0 16 = fld v 0 16)) ∧
      (bitAt v 61 = true → bitAt v 62 = false →
        (s.dorm.phase = .proposed → Voter.collector ∉ s.dorm.nos.map Prod.fst → Next c s (fun t =>
          t.dorm = { s.dorm with nos := (.collector, !decide (Voter.collector ∈ s.dorm.cast)) :: s.dorm.nos } ∧
          t.out = .rhz (.vote .collector s.dorm.round false) :: s.out)) ∧
        (s.dorm.phase = .proposed → Voter.collector ∈ s.dorm.nos.map Prod.fst → Next c s (fun t => t.dorm = s.dorm ∧ t.out = s.out)) ∧
        (s.dorm.phase = .entering → Next c s (fun t => t.dorm = { s.dorm with latched := true } ∧ t.out = s.out)) ∧
        (s.dorm.phase = .dormant → Next c s (fun t => t.dorm.phase = .exiting ∧ t.dorm.latched = true ∧ (s.pwr.safe = false → t.pwr.vfab = s.pwr.saved))) ∧
        (s.dorm.phase = .service ∨ s.dorm.phase = .exiting → Next c s (fun t => t.dorm = s.dorm ∧ t.out = s.out)))) ∧
    (mayPropose s = true → dieIdle s = true → Next .dormancyIdleExpiry s (fun t => proposed t t.time ∧ t.time = max s.time (idleSince s + idleNs s))) ∧
    ((mayPropose s = false ∨ dieIdle s = false) → Next .dormancyIdleExpiry s (fun t => body t = body s)) ∧
    (∀ w : Voter, w ∈ s.dorm.cast ∨ w ∈ s.dorm.nos.map Prod.fst → Next (.dormancyProposeReceive w) s (fun t => body t = body s)) ∧
    (∀ w : Voter, s.dorm.phase = .proposed → w ∈ voters s → w ∉ s.dorm.cast → w ∉ s.dorm.nos.map Prod.fst →
      (voterIdle s w = true → Next (.dormancyProposeReceive w) s (fun t => t.dorm = { s.dorm with cast := w :: s.dorm.cast } ∧
        t.out = .rhz (.vote w s.dorm.round true) :: s.out)) ∧
      (voterIdle s w = false → Next (.dormancyProposeReceive w) s (fun t => t.dorm = s.dorm ∧ t.out = .rhz (.vote w s.dorm.round false) :: s.out))) ∧
    (∀ (w : Voter) (round : Nat) (yes : Bool), (round ≠ s.dorm.round ∨ w ∉ voters s) → Next (.dormancyVote w round yes) s (fun t => body t = body s)) ∧
    (∀ w : Voter, w ∈ voters s →
      (s.dorm.phase = .proposed → w ∈ s.dorm.cast → w ∉ s.dorm.yes →
        ((∃ x ∈ voters s, x ≠ w ∧ x ∉ s.dorm.yes) → Next (.dormancyVote w s.dorm.round true) s (fun t => t.dorm = { s.dorm with yes := w :: s.dorm.yes } ∧ t.out = s.out ∧ t.pwr = s.pwr)) ∧
        ((∀ x ∈ voters s, x = w ∨ x ∈ s.dorm.yes) → Next (.dormancyVote w s.dorm.round true) s (fun t => t.dorm.phase = .entering ∧ t.dorm.latched = false ∧
          t.dorm.taken = [] ∧ t.dorm.banks = [] ∧ t.pwr = { s.pwr with saved := s.pwr.vfab, vfab := regFld s 0x2010 40 8 } ∧
          t.out = .rhz (.commit s.dorm.round) :: s.out))) ∧
      (s.dorm.phase = .proposed → Next (.dormancyVote w s.dorm.round false) s (fun t => aborted t (if (w, true) ∈ s.dorm.nos then 1 else 2))) ∧
      (s.dorm.phase = .entering → Next (.dormancyVote w s.dorm.round false) s (fun t => t.dorm = { s.dorm with latched := true } ∧ t.out = s.out)) ∧
      (s.dorm.phase = .dormant → Next (.dormancyVote w s.dorm.round false) s (fun t => t.dorm.phase = .exiting ∧ t.dorm.latched = true ∧
        t.out = .rhz .exitDorm :: s.out))) ∧
    (s.dorm.phase = .proposed → Next .dormancyVoteTimeout s (fun t => aborted t 3 ∧ s.dorm.at_ + 2000 ≤ t.time)) ∧
    (s.dorm.phase ≠ .proposed → Next .dormancyVoteTimeout s (fun t => body t = body s))) ∧
  (∀ s : State, Up s →
    let exits (t : State) : Prop := t.dorm.phase = .exiting ∧ t.slice = s.slice ∧ (s.pwr.safe = true → t.pwr = s.pwr) ∧
      (s.pwr.safe = false → t.pwr.vfab = s.pwr.saved ∧ ∀ p ∈ s.dorm.banks,
        ownRet (ownReg t p.1.val p.2) = false ∧ (ownRstate (ownReg s p.1.val p.2) = 2 → ownRstate (ownReg t p.1.val p.2) = 3))
    (∀ st : StandId, s.dorm.phase = .entering → st ∉ s.dorm.taken → girdled s st.val = false → noPath s st.val = false → Next (.dormancyCommit st) s (fun t =>
      t.dorm = { s.dorm with taken := st :: s.dorm.taken,
                             banks := s.dorm.banks ++ ((List.range 34).filter (dormTakes s st.val)).map (fun b => (st, b)) } ∧ t.slice = s.slice ∧
      (∀ b, b < 34 → dormTakes s st.val b = true → ownRet (ownReg t st.val b) = true ∧ ownKind (ownReg t st.val b) = ownKind (ownReg s st.val b)) ∧
      (∀ (st' : StandId) (b : Nat), b < 34 → (st' ≠ st ∨ dormTakes s st.val b = false) → ownReg t st'.val b = ownReg s st'.val b))) ∧
    (∀ st : StandId, s.dorm.phase ≠ .entering ∨ st ∈ s.dorm.taken → Next (.dormancyCommit st) s (fun t => body t = body s)) ∧
    (s.dorm.phase = .entering → (∀ st : StandId, girdled s st.val = true ∨ st ∈ s.dorm.taken) → (∀ p ∈ s.dorm.banks, dormEntering s p = false) →
      (s.dorm.latched = false → Next .dormancyEntryComplete s (fun t => t.dorm = { s.dorm with phase := .dormant, at_ := s.time } ∧
        regFld t 0xA28 32 16 = satAdd 16 (regFld s 0xA28 32 16) 1 ∧ t.pwr = s.pwr)) ∧
      (s.dorm.latched = true → Next .dormancyEntryComplete s (fun t => exits t ∧ regFld t 0xA28 32 16 = satAdd 16 (regFld s 0xA28 32 16) 1))) ∧
    (∀ p ∈ s.dorm.banks, dormEntering s p = true → Next .dormancyEntryComplete s (fun t => body t = body s)) ∧
    (s.dorm.phase = .dormant → Next .dormancyExitStart s (fun t => exits t ∧ t.dorm.latched = true)) ∧
    (s.dorm.phase ≠ .dormant → Next .dormancyExitStart s (fun t => body t = body s)) ∧
    (s.dorm.phase = .exiting → (∀ p ∈ s.dorm.banks, girdled s p.1.val = true ∨ ownRstate (ownReg s p.1.val p.2) = 0) →
      (160 ≤ s.pwr.p → s.sync.held = [] → (∀ k, rqOf s k = []) → Next .dormancyExitComplete s (fun t => t.dorm.phase = .service ∧ t.dorm.latched = false ∧ t.sync.rels = [] ∧
        t.dorm.exitNs = min 65535 (s.time - s.dorm.at_) ∧ t.dorm.banks = [] ∧ t.slice = s.slice ∧ t.pwr = s.pwr)) ∧
      (s.pwr.p < 160 → Next .dormancyExitComplete s (fun t => body t = body s))))

/-- At a port that takes a request at once: a request whose RID is outstanding is discarded with one event and no answer; else the first failing check answers it with one RESPONSE: NOT_READY before S4, BAD_DESC, OWNER, LENGTH, address. One that passes, with a bypassed shaper, no policing and room in the response buffer, goes out in an implicit slot; a posted WRITE or SIGNAL is answered OK at once, any other keeps its RID and the bytes it reserves. A DESC takes the lowest free slot and stands last in the queue, or waits where all 16 are taken. The message that the core takes leaves the crossing and frees its slots or bytes; a WAKE_ACK clears the flag, in the order of the bundle. A port in reset or in RESYNC offers no message. -/
def Obligations.CorePortRequestsAreTakenInOrder : Prop :=
  ∀ (s : State) (k : StandId),
    (∀ (r : RqMsg) (c : Instr), PortOpen s k → (r.kind = 1 ∧ c = .corePortWrite k r) ∨ (r.kind = 2 ∧ c = .corePortRead k r) ∨ (r.kind = 3 ∧ c = .corePortAtomic k r) ∨
        (r.kind = 4 ∧ c = .corePortSignal k r) ∨ (r.kind = 5 ∧ c = .corePortReduce k r) →
      (oget s.port.rids (k.val * 256 + r.rid.toNat) ≠ none →
        Next c s (fun t => rqOf t k = [] ∧ t.port.rids = s.port.rids ∧ t.port.dl = s.port.dl ∧ t.out = s.out ∧ t.flt.inbox.length = s.flt.inbox.length + 1)) ∧
      (oget s.port.rids (k.val * 256 + r.rid.toNat) = none →
        (∀ e : Status, (afterS4 s = false ∧ e = .notReady) ∨ (afterS4 s = true ∧ rqFormOk r = false ∧ e = .badDesc) ∨
            (afterS4 s = true ∧ rqFormOk r = true ∧ boundTag s k = none ∧ e = .owner) ∨
            (afterS4 s = true ∧ rqFormOk r = true ∧ boundTag s k ≠ none ∧ rqLenOk r = false ∧ e = .lenRange) ∨
            (afterS4 s = true ∧ rqFormOk r = true ∧ boundTag s k ≠ none ∧ rqLenOk r = true ∧ rqAddrOk s k r = false ∧ e = .addrRange) →
          Next c s (fun t => rqOf t k = [] ∧ Delivered s t k 0 e r.rid ∧ t.port.rids = s.port.rids ∧ t.trans = s.trans ∧ t.slice = s.slice)) ∧
        (∀ (n i : Nat) (x : Tenant) (p : BitVec 6) (e : BitVec 2), afterS4 s = true → rqFormOk r = true → boundTag s k ≠ none → rqLenOk r = true → rqAddrOk s k r = true →
          boundEntry s k = some n → tenantAt s n = some x → x.rate = 0xFFFFF → bitAt x.police 63 = false → portHeld s k = false →
          cget 0 s.port.buf k.val + rqReserve r ≤ 65536 → SendsAt s (.port k) (rqMsgOf s k r 0 ((boundTag s k).getD 0)) i p e →
          Next c s (fun t => rqOf t k = [] ∧ (flowAt t (flowKey (.port k) true i)).win.map (fun z => (z.m.op, z.m.dest, z.m.tenant, z.m.data, z.m.len, z.m.pstand)) =
              [(rqOp r, resolveLocal s r.addr, (boundTag s k).getD 0, if r.kind = 2 then readReqData r.rlen.toNat else sub r.data 0 r.len.toNat,
                if r.kind = 2 then 2 else BitVec.ofNat 13 (sub r.data 0 r.len.toNat).length, p)] ∧
            ((r.kind = 1 ∨ r.kind = 4) ∧ r.deliv = false → Delivered s t k 0 .ok r.rid ∧ oget t.port.rids (k.val * 256 + r.rid.toNat) = none) ∧
            (r.kind = 2 ∨ r.kind = 3 ∨ r.kind = 5 ∨ r.deliv = true → t.port.dl = s.port.dl ∧
              oget t.port.rids (k.val * 256 + r.rid.toNat) = some (rqReserve r, false) ∧ cget 0 t.port.buf k.val = cget 0 s.port.buf k.val + rqReserve r))))) ∧
    (∀ r : RqMsg, PortOpen s k → r.kind = 0 →
      (∀ j : Nat, (List.range 16).find? (fun j => (oget s.port.slots (k.val * 16 + j)).isNone) = some j → Next (.corePortDesc k r) s (fun t => rqOf t k = [] ∧
        oget t.port.slots (k.val * 16 + j) = some s.host.nextId ∧ queueOf t (.port k) = queueOf s (.port k) ++ [s.host.nextId] ∧
        (descAt t s.host.nextId).map (fun d => (d.acc, d.idx, d.slot, d.raw, d.phase)) =
          some (.port k, j, j, if rqFormOk r then sub r.data 0 64 else (sub r.data 0 64).take 63, .queued) ∧ t.port.dl = s.port.dl ∧ t.out = s.out)) ∧
      ((∀ j, j < 16 → oget s.port.slots (k.val * 16 + j) ≠ none) → Next (.corePortDesc k r) s (fun t => rqOf t k = [r] ∧ t.host = s.host ∧ t.out = s.out))) ∧
    (Up s → rqOf s k = [] → frozenAt s k.val = false → (cget .reset s.port.xst k.val = .up ∨ cget .reset s.port.xst k.val = .down) →
      (∀ (d : DlMsg) (l : List DlMsg), cget [] s.port.dl k.val = d :: l → Next (.dlMessageTaken k) s (fun t => cget [] t.port.dl k.val = l ∧
        (∀ js : List Nat, d.frees = .slots js → ∀ j ∈ js, oget t.port.slots (k.val * 16 + j) = none) ∧
        (∀ n : Nat, d.frees = .buf n → cget 0 t.port.buf k.val = cget 0 s.port.buf k.val - n))) ∧
      (cget [] s.port.dl k.val = [] → Next (.dlMessageTaken k) s (fun t => body t = body s))) ∧
    (Up s → frozenAt s k.val = true ∨ cget .reset s.port.xst k.val = .reset ∨ cget .reset s.port.xst k.val = .syncing →
      Next (.dlMessageTaken k) s (fun t => body t = body s)) ∧
    (Up s → portClosed s k = false →
      (rqOf s k = [] → Next (.wakeAck k) s (fun t => rqOf t k = [] ∧ cget false t.port.wake k.val = false ∧ t.port.dl = s.port.dl ∧ t.out = s.out)) ∧
      (∀ r : RqMsg, rqOf s k = [r] → r.kind ≠ 6 → r.kind ≠ 7 → workHeld s = true → fatalLatched s = false → r.beats < 16 →
        Next (.wakeAck k) s (fun t => rqOf t k = [r, wakeAckMsg] ∧ t.port.wake = s.port.wake))) ∧
    (Up s → portClosed s k = true → Next (.wakeAck k) s (fun t => body t = body s))

/-- A fresh request to a core port's space that opens its flow at the port's own stand takes the lowest free TID, and is offered at once where the port is up; with 32 outstanding the table stays as it is. At a port that is up and not fenced, girdled or frozen the answer to a TID that is outstanding, with a listed status, frees it, and any other is discarded with one event; another port takes none. A core-side reset of an idle queue empties the delivery crossing, the requests waiting but a first one that the shaper holds, which runs on, the wake flag and the target table, withdraws the port's arrivals and counts; its release starts RESYNC once S1 has reported; PRST starts RESYNC and leaves every request, slot, target and delivery in place; a target request is to be offered again where the watchdog has found one untaken. RESYNC done brings the port up and offers, but at a frozen port, every delivery again and each target request that does not count as confirmed (which do is the model's choice, log 80), in the order in which the hub took them. A watched condition that has lasted 1 ms is reported by one event, no earlier, and once. -/
def Obligations.CorePortsTargetsResetsAndHangs : Prop :=
  ∀ (s : State) (k : StandId), Up s →
    let free : Option Nat := (List.range 32).find? (fun i => (oget s.port.tgts (targetKey k i)).isNone)
    (∀ m : Msg, Arrives s k m → aSpace m.dest = 1 → (m.op = opWrite ∨ m.op = opReadReq) → m.impl = true → addrFormOk m.dest = true →
      directRangeOk m.dest (msgBytes m) = true → portGirdled s k.val = false →
      cget false s.port.lossy k.val = false →
      (∀ i : Nat, free = some i → cget .reset s.port.xst k.val ≠ .up → Next (.targetRequestReceive k m) s (fun t =>
        oget t.port.tgts (targetKey k i) = some { m := m, offered := false, no := nextTargetNo s k, since := s.time } ∧ t.out = s.out)) ∧
      (∀ i : Nat, free = some i → cget .reset s.port.xst k.val = .up → Next (.targetRequestReceive k m) s (fun t =>
        oget t.port.tgts (targetKey k i) = some { m := m, offered := true, no := nextTargetNo s k, since := s.time } ∧ t.out = .tq k (tqBytes i m) :: s.out ∧
        (∀ j, j < 32 → j ≠ i → oget t.port.tgts (targetKey k j) = oget s.port.tgts (targetKey k j)))) ∧
      (free = none → Next (.targetRequestReceive k m) s (fun t => t.port = s.port ∧ recvTable t k = recvTable s k))) ∧
    (∀ (tid : BitVec 8) (code : BitVec 16) (data : List Byte), (portClosed s k = true → Next (.trAnswer k tid code data) s (fun t => body t = body s)) ∧
      (portClosed s k = false →
      (∀ x : Target, tid.toNat < 32 → oget s.port.tgts (targetKey k tid.toNat) = some x → (∃ r ∈ allStatus, statusCode r = code.toNat) →
        Next (.trAnswer k tid code data) s (fun t => oget t.port.tgts (targetKey k tid.toNat) = none ∧ t.flt = s.flt)) ∧
      ((32 ≤ tid.toNat ∨ oget s.port.tgts (targetKey k tid.toNat) = none ∨ ∀ r ∈ allStatus, statusCode r ≠ code.toNat) →
        Next (.trAnswer k tid code data) s (fun t => t.port.tgts = s.port.tgts ∧ t.out = s.out ∧ t.flt.inbox.length = s.flt.inbox.length + 1)))) ∧
    (∀ c : HangCond,
      (∀ t0 : Nat, girdled s k.val = false → fenced s k.val = false → regBit s (stdOff k 0x1D0) 0 = true → c ∉ cget [] s.port.hung k.val → hangSince s k c = some t0 →
        Next (.hangDetect k c) s (fun t => cget [] t.port.hung k.val = c :: cget [] s.port.hung k.val ∧ t0 + 1000000 ≤ t.time ∧ t.flt.inbox.length = s.flt.inbox.length + 1 ∧
          (regBit s (stdOff k 0x1E0) 63 = false → regBit t (stdOff k 0x1E0) 63 = true ∧ regFld t (stdOff k 0x1E0) 60 3 = hangNo c) ∧
          (regBit s (stdOff k 0x1E0) 63 = true → t.regs = s.regs))) ∧
      ((girdled s k.val = true ∨ fenced s k.val = true ∨ regBit s (stdOff k 0x1D0) 0 = false ∨ c ∈ cget [] s.port.hung k.val ∨ hangSince s k c = none) →
        Next (.hangDetect k c) s (fun t => body t = body s))) ∧
    (cget false s.port.inRst k.val = false → fenced s k.val = false → girdled s k.val = false → queueOf s (.port k) = [] → oget s.sync.waits (4096 + k.val) = none →
      ∀ part : Bool, Next (.coreResetAssert ⟨k, part⟩) s (fun t => cget false t.port.inRst k.val = true ∧ cget .reset t.port.xst k.val = .reset ∧ cget [] t.port.dl k.val = [] ∧
        (cget none s.port.rqCol k.val = none → rqOf t k = []) ∧
        (∀ (r : RqMsg) (l : List RqMsg), cget none s.port.rqCol k.val ≠ none → rqOf s k = r :: l → rqOf t k = [r] ∧ rqGone t k = true) ∧
        cget false t.port.wake k.val = false ∧ (∀ i, i < 32 → oget t.port.tgts (targetKey k i) = none) ∧
        (∀ n : Fin 64, bitAt (barAt t n.val).arrived k.val = false) ∧ regFld t (stdOff k 0x1D8) 32 16 = satAdd 16 (regFld s (stdOff k 0x1D8) 32 16) 1)) ∧
    (cget false s.port.inRst k.val = true →
      (∀ part : Bool, Next (.coreResetAssert ⟨k, part⟩) s (fun t => body t = body s)) ∧
      (2 ≤ s.bup.reported → fenced s k.val = false → girdled s k.val = false → portGirdled s k.val = false → Next (.coreResetRelease k) s (fun t =>
        cget false t.port.inRst k.val = false ∧ cget .reset t.port.xst k.val = .syncing ∧ t.out = .resync k :: s.out)) ∧
      (s.bup.reported < 2 → Next (.coreResetRelease k) s (fun t => cget false t.port.inRst k.val = false ∧ t.port.xst = s.port.xst ∧ t.out = s.out))) ∧
    (cget false s.port.inRst k.val = false → Next (.coreResetRelease k) s (fun t => body t = body s)) ∧
    (∀ v : Word, MgServed s (stdOff k 0x1D0) → fenced s k.val = false → girdled s k.val = false → portGirdled s k.val = false →
      (bitAt v 1 = true → cget false s.port.inRst k.val = false → 2 ≤ s.bup.reported → Next (.portFabricReset k v) s (fun t => cget .reset t.port.xst k.val = .syncing ∧
        t.port.dl = s.port.dl ∧ t.port.rids = s.port.rids ∧ t.port.slots = s.port.slots ∧ t.port.rq = s.port.rq ∧ t.host = s.host ∧
        (∀ i, i < 32 → oget t.port.tgts (targetKey k i) = (oget s.port.tgts (targetKey k i)).map (fun x =>
          if HangCond.tq ∈ cget [] s.port.hung k.val then { x with offered := x.taken } else x)) ∧
        t.out = .resync k :: s.out ∧ regFld t (stdOff k 0x1D8) 32 16 = satAdd 16 (regFld s (stdOff k 0x1D8) 32 16) 1)) ∧
      (bitAt v 1 = false → Next (.portFabricReset k v) s (fun t => t.port = s.port ∧ t.out = s.out ∧ regBit t (stdOff k 0x1D0) 0 = bitAt v 0))) ∧
    (cget .reset s.port.xst k.val = .syncing →
      (rqOf s k = [] → Next (.resyncAck k) s (fun t => cget .reset t.port.xst k.val = .up ∧ cget false t.port.lossy k.val = false ∧
        t.port.dl = s.port.dl ∧ (frozenAt s k.val = true → t.port.tgts = s.port.tgts ∧ t.out = s.out) ∧
        (frozenAt s k.val = false →
          (∀ i, i < 32 → oget t.port.tgts (targetKey k i) = (oget s.port.tgts (targetKey k i)).map (fun x =>
            if x.offered then x else { x with offered := true, since := s.time })) ∧
          t.out = ((openTargets s k).filterMap (fun p => if p.2.offered then none else some (Out.tq k (tqBytes p.1 p.2.m)))).reverse ++
            ((cget [] s.port.dl k.val).map (fun d => Out.dl k (dlBytes d))).reverse ++ s.out))) ∧
      (cget 0 s.port.since (k.val * 8 + 7) = 0 → Next (.resyncTimeout k) s (fun t => t.flt.inbox.length = s.flt.inbox.length + 1 ∧ t.port.xst = s.port.xst ∧
        cget 0 t.port.since (k.val * 8 + 7) = 1))) ∧
    (cget .reset s.port.xst k.val ≠ .syncing → ∀ c : Instr, c = .resyncAck k ∨ c = .resyncTimeout k → Next c s (fun t => body t = body s))

/-- RETRAIN starts every DOWN or FAILED module that may train and no other. The PHY up at x64 and 32 GT/s takes a module in its attempt to HELLO, up otherwise it fails it (with the event of a failed training, log 93); a failed attempt counts, waits for its retry, and the eighth fails the module; the retry comes no earlier than 1 ms. A module in every state but DOWN and FAILED sends its HELLO. In HELLO a matching HELLO brings the module UP with 32 credits on every VC of both planes, a valid one that does not match, or 10 ms without one, fails it; in UP it tells what the partner knows. A recalibration takes it to RETRAIN; the PHY back flushes both planes and brings it UP with full credits, 100 microseconds fail it. What is named for one state changes nothing in another. -/
def Obligations.BridgeModulesTrainAndFail : Prop :=
  ∀ (s : State) (e : Fin 4) (m : Fin 16), Up s →
    let x := modAt s e.val m.val
    let trains : Nat := 0xB0100 + e.val * 0x80 + m.val * 8
    let same (t : State) : Prop := body t = body s
    let full (t : State) : Prop := ∀ tpl vc, tpl < 2 → vc < 8 → (edgeVc t e.val (m.val / 2) (modPlane m.val tpl).val vc).credits = 32 ∧
      (edgeVc t e.val (m.val / 2) (modPlane m.val tpl).val vc).sent = 0
    let fails (t : State) (c : Cause) : Prop := (modAt t e.val m.val).state = .failed ∧
      t.flt.inbox.getLast? = some ⟨c.family, c.cause, BitVec.ofNat 7 (locEdge e.val), BitVec.ofNat 8 m.val, 0⟩
    (∀ v : Word, MgServed s (0xB0010 + e.val * 8) →
      (bitAt v 59 = true → Next (.edgeRetrain e v) s (fun t => ∀ n : Fin 16,
        (mayTrain s e.val n.val = true ∧ ((modAt s e.val n.val).state = .down ∨ (modAt s e.val n.val).state = .failed) →
          (modAt t e.val n.val).state = .training ∧ (modAt t e.val n.val).trains = 0 ∧ .retrain e n ∈ t.out) ∧
        (mayTrain s e.val n.val = false ∨ ((modAt s e.val n.val).state ≠ .down ∧ (modAt s e.val n.val).state ≠ .failed) →
          modAt t e.val n.val = modAt s e.val n.val))) ∧
      (bitAt v 59 = false → Next (.edgeRetrain e v) s (fun t => t.brg = s.brg ∧ t.regs = s.regs ∧ t.out = s.out))) ∧
    (x.state = .training → x.retry = false →
      Next (.modulePhyUp e m true) s (fun t => (modAt t e.val m.val).state = .hello) ∧ Next (.modulePhyUp e m false) s (fun t => fails t cTrainFail) ∧
      (x.trains + 1 < 8 → Next (.moduleTrainFail e m) s (fun t => modAt t e.val m.val = { x with trains := x.trains + 1, retry := true, since := s.time } ∧
        regFld t trains 48 8 = satAdd 8 (regFld s trains 48 8) 1 ∧ t.flt = s.flt)) ∧
      (8 ≤ x.trains + 1 → Next (.moduleTrainFail e m) s (fun t => fails t cTrainFail)) ∧ Next (.moduleTrainRetry e m) s same) ∧
    (x.state = .training → x.retry = true → Next (.moduleTrainRetry e m) s (fun t => (modAt t e.val m.val).retry = false ∧
        (modAt t e.val m.val).state = .training ∧ x.since + 1000000 ≤ t.time ∧ t.out = .retrain e m :: s.out) ∧
      (∀ g : Bool, Next (.modulePhyUp e m g) s same) ∧ Next (.moduleTrainFail e m) s same) ∧
    (x.state ≠ .training → (∀ g : Bool, Next (.modulePhyUp e m g) s same) ∧ Next (.moduleTrainFail e m) s same ∧ Next (.moduleTrainRetry e m) s same) ∧
    ((x.state = .down ∨ x.state = .failed) → Next (.helloSend e m) s same) ∧
    (x.state ≠ .down → x.state ≠ .failed → fatalLatched s = false → frozenAt s (edgeStand e.val (m.val / 2)) = false →
      Next (.helloSend e m) s (fun t => t.out = .slot e m (linkSlot (helloBytes s e.val m.val)) :: s.out ∧ t.brg = s.brg)) ∧
    (∀ l : List Byte,
      let good : Bool := byteAt l 1 == 1 && leAt l 5 1 % 4 == (e.val + 2) % 4 && leAt l 6 1 == m.val
      (byteAt l 0 ≠ 1 → Next (.helloReceive e m l) s same) ∧
      (byteAt l 0 = 1 → x.state = .hello → good = true → Next (.helloReceive e m l) s (fun t => (modAt t e.val m.val).state = .up ∧ full t)) ∧
      (byteAt l 0 = 1 → x.state = .hello → good = false → Next (.helloReceive e m l) s (fun t => fails t cTrainFail)) ∧
      (byteAt l 0 = 1 → x.state = .up → good = true → Next (.helloReceive e m l) s (fun t => t.out = s.out ∧
        modAt t e.val m.val = { x with heard := true, shape := leAt l 7 1 % 16, row := (leAt l 7 1).testBit 4, wcount := leAt l 8 1 })) ∧
      (x.state ≠ .hello → x.state ≠ .up → Next (.helloReceive e m l) s same)) ∧
    (x.state = .hello → Next (.helloTimeout e m) s (fun t => fails t cTrainFail ∧ x.since + 10000000 ≤ t.time)) ∧
    (x.state ≠ .hello → Next (.helloTimeout e m) s same) ∧
    (x.state = .up → Next (.moduleRecalStart e m) s (fun t => (modAt t e.val m.val).state = .retrain ∧ t.mesh = s.mesh)) ∧
    (x.state ≠ .up → Next (.moduleRecalStart e m) s same) ∧
    (x.state = .retrain →
      Next (.moduleRecalDone e m) s (fun t => (modAt t e.val m.val).state = .up ∧ full t ∧ ∀ tpl vc, tpl < 2 → vc < 8 →
        (inVc t (modStand e.val m.val).val (modPlane m.val tpl).val e.val vc).opened = none ∧
        (inVc t (modStand e.val m.val).val (modPlane m.val tpl).val e.val vc).q.length ≤ 1) ∧
      Next (.moduleRecalTimeout e m) s (fun t => fails t cRetrainTimeout ∧ x.since + 100000 ≤ t.time)) ∧
    (x.state ≠ .retrain → Next (.moduleRecalDone e m) s same ∧ Next (.moduleRecalTimeout e m) s same)

/-- At a module that is UP: a slot whose TCRC fails counts, raises one event, audits both planes and sends this die's own counts for both; a stem that fails CHECK counts and audits its plane; an IDLE slot with CRV gives one credit, at most 32, to the VC it names and moves no frond; a LINK slot whose payload CRC fails counts and raises one event. A whole frond that starts a message, with room in its VC, is counted as received, takes this die's parity, the target resolved here and its route; a one-frond message of R32 for this die (a SIGNAL, a doorbell write, a leg of a WAIT, a completion notice) goes on by the rhizome instead. The sender's counts in an AUDIT slot end a running audit as on a plane-link; where none runs, this die answers with its own (log 94). At a module that is not UP a slot does nothing. -/
def Obligations.BridgeSlotsAreCheckedAndTaken : Prop :=
  ∀ (s : State) (e : Fin 4) (m : Fin 16) (tpl : Fin 2), Up s →
    let st := modStand e.val m.val
    let pl := modPlane m.val tpl.val
    let cnt : Nat := 0xB0100 + e.val * 0x80 + m.val * 8
    (∀ x : Slot, (modAt s e.val m.val).state ≠ .up → Next (.bridgeSlotReceive e m x) s (fun t => body t = body s)) ∧
    ((modAt s e.val m.val).state = .up → girdled s st.val = false → frozenAt s st.val = false →
      (∀ x : Slot, sealTag (x.tag.toNat % 2 ^ 28) ≠ x.tag → auditing s st.val (modPlane m.val 0).val e.val = false → auditing s st.val (modPlane m.val 1).val e.val = false →
        Next (.bridgeSlotReceive e m x) s (fun t => auditing t st.val (modPlane m.val 0).val e.val = true ∧ auditing t st.val (modPlane m.val 1).val e.val = true ∧
          t.mesh.inv = s.mesh.inv ∧ t.brg = s.brg ∧ t.flt.inbox.length = s.flt.inbox.length + 1 ∧ regFld t cnt 32 16 = satAdd 16 (regFld s cnt 32 16) 1 ∧
          (fatalLatched s = false → frozenAt s (edgeStand e.val (m.val / 2)) = false → t.out =
            .slot e m (linkSlot (auditBytes s e.val m.val (modPlane m.val 1))) :: .slot e m (linkSlot (auditBytes s e.val m.val (modPlane m.val 0))) :: s.out))) ∧
      (∀ x : Slot, sealTag (x.tag.toNat % 2 ^ 28) = x.tag → x.tag.toNat % 8 = 6 → x.tag.toNat.testBit 7 = true → x.tag.toNat / 2 ^ 8 % 2 = tpl.val →
        Next (.bridgeSlotReceive e m x) s (fun t => t.mesh = s.mesh ∧ t.flt = s.flt ∧ t.out = s.out ∧
          edgeVc t e.val (m.val / 2) pl.val (x.tag.toNat / 2 ^ 9 % 8) =
            { edgeVc s e.val (m.val / 2) pl.val (x.tag.toNat / 2 ^ 9 % 8) with credits := min 32 ((edgeVc s e.val (m.val / 2) pl.val (x.tag.toNat / 2 ^ 9 % 8)).credits + 1) })) ∧
      (∀ x : Slot, sealTag (x.tag.toNat % 2 ^ 28) = x.tag → x.tag.toNat % 8 = 7 → x.tag.toNat.testBit 7 = false →
        x.tag.toNat / 2 ^ 12 % 2 ^ 16 ≠ crc16 (leBytes 64 x.payload.toNat) →
        Next (.bridgeSlotReceive e m x) s (fun t => t.mesh = s.mesh ∧ t.brg = s.brg ∧ t.out = s.out ∧
          t.flt.inbox.length = s.flt.inbox.length + 1 ∧ regFld t cnt 0 16 = satAdd 16 (regFld s cnt 0 16) 1)) ∧
      (∀ x : Slot, sealTag (x.tag.toNat % 2 ^ 28) = x.tag → (x.tag.toNat % 8 < 2 ∨ x.tag.toNat % 8 = 4) → x.tag.toNat / 8 % 2 = tpl.val →
        auditing s st.val pl.val e.val = false →
        (fld x.stem 0 8 ≠ crc8 x.stem → Next (.bridgeSlotReceive e m x) s (fun t => auditing t st.val pl.val e.val = true ∧ t.mesh.inv = s.mesh.inv ∧
          t.flt.inbox.length = s.flt.inbox.length + 1 ∧ regFld t cnt 16 16 = satAdd 16 (regFld s cnt 16 16) 1)) ∧
        (∀ (f : Frond) (p : BitVec 6) (q : BitVec 2) (o : Fin 6), fld x.stem 0 8 = crc8 x.stem →
          f = { stem := arriveStem s st x.stem, payload := x.payload, pcheck := BitVec.ofNat 16 (x.tag.toNat / 2 ^ 12 % 2 ^ 16) } →
          ((inVc s st.val pl.val e.val (stVc x.stem)).q.filter (fun h => !h.own)).length < 32 → s.dorm.phase = .service → pcheckOk f = true → reservedStem f = false → startsMsg f.stem = true →
          targetOf s st (headMsg pl f) = .ok (p, q) → joinsRhizome s (headMsg pl f) = false →
          routeOf s st pl.val e.val (retarget f p q) = .goes o →
          Next (.bridgeSlotReceive e m x) s (fun t =>
            (inVc t st.val pl.val e.val (stVc x.stem)).q = (inVc s st.val pl.val e.val (stVc x.stem)).q ++ [⟨retarget f p q, o, false⟩] ∧
            (inVc t st.val pl.val e.val (stVc x.stem)).recv = ((inVc s st.val pl.val e.val (stVc x.stem)).recv + 1) % 16 ∧
            (inVc t st.val pl.val e.val (stVc x.stem)).skip = false ∧ t.flt = s.flt ∧ t.out = s.out)) ∧
        (∀ (f : Frond) (p : BitVec 6) (q : BitVec 2), fld x.stem 0 8 = crc8 x.stem →
          f = { stem := arriveStem s st x.stem, payload := x.payload, pcheck := BitVec.ofNat 16 (x.tag.toNat / 2 ^ 12 % 2 ^ 16) } →
          ((inVc s st.val pl.val e.val (stVc x.stem)).q.filter (fun h => !h.own)).length < 32 → s.dorm.phase = .service → pcheckOk f = true → reservedStem f = false → startsMsg f.stem = true →
          targetOf s st (headMsg pl f) = .ok (p, q) → joinsRhizome s (headMsg pl f) = true → girdled s p.toNat = false →
          Next (.bridgeSlotReceive e m x) s (fun t => t.out.head? = some (.msg st unitHub (headMsg pl f)) ∧
            (inVc t st.val pl.val e.val (stVc x.stem)).q = (inVc s st.val pl.val e.val (stVc x.stem)).q ∧ t.flt = s.flt))) ∧
      (∀ l : List Byte, byteAt l 0 = 2 → leAt l 1 1 = tpl.val → auditing s st.val pl.val e.val = false →
        Next (.bridgeAuditReceive e m l) s (fun t => t.mesh = s.mesh ∧ t.brg = s.brg ∧ t.flt = s.flt ∧
          (fatalLatched s = false → frozenAt s (edgeStand e.val (m.val / 2)) = false → t.out = .slot e m (linkSlot (auditBytes s e.val m.val pl)) :: s.out))) ∧
      (∀ l : List Byte, byteAt l 0 = 2 → leAt l 1 1 = tpl.val → auditing s st.val pl.val e.val = true →
        (∀ vc : Nat, auditDiff s st.val pl.val e.val (BitVec.ofNat 32 (leAt l 2 4)) = [(vc, 1)] →
          Next (.bridgeAuditReceive e m l) s (fun t => auditing t st.val pl.val e.val = false ∧ (inVc t st.val pl.val e.val vc).skip = true ∧
            (inVc t st.val pl.val e.val vc).recv = ((inVc s st.val pl.val e.val vc).recv + 1) % 16)) ∧
        ((∀ vc : Nat, auditDiff s st.val pl.val e.val (BitVec.ofNat 32 (leAt l 2 4)) ≠ [(vc, 1)]) →
          Next (.bridgeAuditReceive e m l) s (fun t => auditing t st.val pl.val e.val = false ∧ t.out = .flushed st pl (portOf e.val) :: s.out ∧
            (∀ vc, vc < 8 → (inVc t st.val pl.val e.val vc).opened = none ∧ (inVc t st.val pl.val e.val vc).recv = 0)))) ∧
      (∀ l : List Byte, byteAt l 0 ≠ 2 → Next (.bridgeAuditReceive e m l) s (fun t => body t = body s)))

/-- The link coming up brings an enabled port UP; the link going down takes it out of UP, with one event where it was UP and not quiesced, and keeps its contexts; a write of EN decides UP with the link, raises no event, and EN 0 releases a quiesced port outside the fatal state. For every frame row, at a live port: 63 bytes or fewer count a runt with one event, 9,217 or more a giant, an FCS failure FCSERR; a frame that is no Quoren frame for the port counts BADFRM without an event; a frame of another type than the row's does nothing, nor does any frame at a port that is not live; none of these changes a context. -/
def Obligations.HallPortsFollowTheirLinkAndCheckFrames : Prop :=
  ∀ (s : State) (h : Fin 8), Up s →
    let x := hallAt s h.val
    Next (.hallLinkUp h) s (fun t => hallAt t h.val = { x with link := true, up := regBit s (hallOff h.val) 63 } ∧ t.flt = s.flt) ∧
    Next (.hallLinkDown h) s (fun t => hallAt t h.val = { x with link := false, up := false } ∧
      t.flt.inbox.length = s.flt.inbox.length + (if x.up && !x.quiet then 1 else 0)) ∧
    (∀ v : Word, MgServed s (hallOff h.val) → Next (.hallPortEnableWrite h v) s (fun t => t.flt = s.flt ∧
      hallAt t h.val = { x with up := bitAt v 63 && x.link, quiet := x.quiet && (bitAt v 63 || fatalLatched s) })) ∧
    (∀ (f : Frame) (typ : Nat) (c : Instr),
      (typ, c) ∈ [(0, Instr.hallData h f), (1, .hallAck h f), (2, .hallOpen h f), (3, .hallOpenAck h f), (4, .hallRefuse h f), (5, .hallSkip h f)] →
      let counted (t : State) (lo ev : Nat) : Prop := t.hall = s.hall ∧ t.mesh = s.mesh ∧ t.out = s.out ∧ t.flt.inbox.length = s.flt.inbox.length + ev ∧
        regFld t (hallOff h.val + 8) lo 16 = satAdd 16 (regFld s (hallOff h.val + 8) lo 16) 1
      (hallLive s h.val = false → Next c s (fun t => body t = body s)) ∧
      (hallLive s h.val = true →
        (f.trueLen ≤ 63 → Next c s (fun t => counted t 48 1)) ∧
        (9217 ≤ f.trueLen → Next c s (fun t => counted t 32 1)) ∧
        (63 < f.trueLen → f.trueLen < 9217 →
          (f.fcsOk = false → Next c s (fun t => counted t 16 1)) ∧
          (f.fcsOk = true → frameFormOk s h.val f.bytes = false → Next c s (fun t => counted t 0 0)) ∧
          (f.fcsOk = true → frameFormOk s h.val f.bytes = true → frType f.bytes ≠ typ → Next c s (fun t => body t = body s)))))

/-- At a live port outside the fatal state, for a frame that R396 takes: OPEN makes the peer's context and answers OPEN_ACK; a matching OPEN_ACK opens and sends what waits under the next sequence; DATA in sequence advances E, ahead of it is held and acknowledged at once with its place in SACK, outside the window is acknowledged only, and without a context is refused; an unsequenced frond of one frame enters the tap stand's input on its VC, where it has room, with the parity, target and route of this die, but a contribution to a combining queue is refused with ADDR_RANGE; an ACK drops what it covers; REFUSE in OPENING goes UNSEQ, in OPEN opens again; SKIP passes over its slot. Fronds that wait for a peer without a context send OPEN with a first sequence of TIME. The timers act no earlier than their times: no OPEN_ACK goes UNSEQ, idleness frees the context, UNSEQ tries again, RTO sends the frame again or gives it up with a SKIP and one event, a SKIP goes again, an ACK goes after 0.5 microseconds. -/
def Obligations.HallContextsOpenCarryAndClose : Prop :=
  ∀ (s : State) (h : Fin 8) (peer : BitVec 48), Up s → hallLive s h.val = true → fatalLatched s = false →
    let x := hallAt s h.val
    let ctl (typ lseq cum flags sack : Nat) : Out := .hall h peer (hallHead s h.val peer typ 0 32 lseq cum flags ++ leBytes 8 sack ++ List.replicate 22 0)
    let data (pl : PlaneId) (l : List HallFrond) (lseq : BitVec 32) : Out :=
      .hall h peer (hallHead s h.val peer 0 l.length (16 + 80 * l.length) lseq.toNat 0 (1 + pl.val * 4) ++ l.flatMap hallEntry)
    let same (t : State) : Prop := body t = body s
    let sctx (t : State) : Option SendCtx := sendCtx t h.val peer
    let rctx (t : State) : Option RecvCtx := recvCtx t h.val peer
    (∀ f : Frame, 63 < f.trueLen → f.trueLen < 9217 → f.fcsOk = true → frameFormOk s h.val f.bytes = true → frSrc f.bytes = peer →
      let b := f.bytes
      (frType b = 2 → (rctx s ≠ none ∨ (x.recv.filter (fun p => p.2.isSome)).length < 512) →
        Next (.hallOpen h f) s (fun t => rctx t = some ⟨frSeq b, [], s.time, none⟩ ∧ t.out = ctl 3 (frSeq b).toNat 0 0 0 :: s.out)) ∧
      (∀ c : SendCtx, frType b = 3 → sctx s = some c →
        (c.phase ≠ .opening ∨ frSeq b ≠ c.first → Next (.hallOpenAck h f) s same) ∧
        (c.phase = .opening → frSeq b = c.first → c.frames = [] →
          (hallWaits s h.val peer = false → Next (.hallOpenAck h f) s (fun t => sctx t = some { c with phase := .isOpen, since := s.time } ∧ t.out = s.out)) ∧
          (∀ w : PeerFrond, x.wait = [w] → w.peer = peer → endsMsg w.f.stem = true → replayBytes x + 96 ≤ 2 ^ 20 →
            Next (.hallOpenAck h f) s (fun t => (hallAt t h.val).wait = [] ∧ t.out = data w.plane [w.f] c.next :: s.out ∧
              sctx t = some ⟨.isOpen, c.first, c.next + 1, [⟨c.next, w.plane, [w.f], 1, s.time, false, false⟩], s.time⟩)))) ∧
      (frType b = 0 → (frFlags b).testBit 1 = false → (frFlags b).testBit 0 = true →
        (rctx s = none → Next (.hallData h f) s (fun t => t.out = ctl 4 0 0 0 0 :: s.out ∧ t.mesh = s.mesh)) ∧
        (∀ c : RecvCtx, rctx s = some c → c.held = [] →
          (frSeq b = c.e → 80 * x.later.length + 16 + 80 * (frFronds b).length ≤ 2 ^ 20 → Next (.hallData h f) s (fun t => rctx t = some ⟨c.e + 1, [], s.time, some (c.ackAt.getD s.time)⟩)) ∧
          (0 < (frSeq b - c.e).toNat → (frSeq b - c.e).toNat < 64 → reorderBytes x + 80 * x.later.length + 16 + 80 * (frFronds b).length ≤ 2 ^ 20 →
            Next (.hallData h f) s (fun t => rctx t = some ⟨c.e, [⟨frSeq b, some (frPlane b, frFronds b)⟩], s.time, none⟩ ∧ t.mesh = s.mesh ∧
              t.out = ctl 1 0 c.e.toNat 2 (2 ^ ((frSeq b - c.e).toNat - 1)) :: s.out)) ∧
          (64 ≤ (frSeq b - c.e).toNat → Next (.hallData h f) s (fun t => rctx t = some ⟨c.e, [], s.time, none⟩ ∧ t.mesh = s.mesh ∧ t.out = ctl 1 0 c.e.toNat 2 0 :: s.out)))) ∧
      (∀ y : HallFrond, frType b = 0 → (frFlags b).testBit 1 = false → (frFlags b).testBit 0 = false → frFronds b = [y] →
        (hallVc (stVc y.stem) = none → Next (.hallData h f) s (fun t => t.mesh = s.mesh ∧ t.flt.inbox.length = s.flt.inbox.length + 1)) ∧
        (∀ (vc : Nat) (st : StandId) (g : Frond) (p : BitVec 6) (q : BitVec 2) (o : Fin 6), hallVc (stVc y.stem) = some vc → startsMsg y.stem = true → x.later = [] →
          oget x.owner ((frPlane b).val * 8 + vc) = none → (vc ≠ 7 ∨ (tenantOf s (stTenant y.stem) = none ∧ bitAt (regGet s 0xB8F00) 62 = false ∧ BitVec.ofNat 2 (stColour y.stem) ≠ red)) →
          st = standOf (hallTap h.val) →
          g = { stem := arriveStem s st (hallStem y.stem vc (BitVec.ofNat 2 (stColour y.stem))), payload := y.payload, pcheck := BitVec.ofNat 16 (crc16 (leBytes 64 y.payload.toNat)) } →
          reservedStem g = false → startsMsg g.stem = true → stVc g.stem = vc → s.dorm.phase = .service → (inVc s st.val (frPlane b).val 5 vc).q.length < 8 →
          (isContribution g = false → targetOf s st (headMsg (frPlane b) g) = .ok (p, q) →
            joinsRhizome s (headMsg (frPlane b) g) = false →
            routeOf s st (frPlane b).val 5 (retarget g p q) = .goes o →
            Next (.hallData h f) s (fun t => (inVc t st.val (frPlane b).val 5 vc).q = (inVc s st.val (frPlane b).val 5 vc).q ++ [⟨retarget g p q, o, false⟩] ∧
              (inVc t st.val (frPlane b).val 5 vc).skip = false ∧ t.flt = s.flt ∧ t.out = s.out)) ∧
          (isContribution g = true → fld (stSrc y.stem) 6 20 = selfUpper s → (inVc s st.val (frPlane b).val 5 vc).opened = none →
            Next (.hallData h f) s (fun t => (inVc t st.val (frPlane b).val 5 vc).q = (inVc s st.val (frPlane b).val 5 vc).q ∧ t.flt = s.flt ∧
              ∃ z : Msg, t.out.head? = some (.msg st unitHub z) ∧ z.op = opReadRsp ∧ z.w = statusW .addrRange)))) ∧
      (frType b = 1 → ((frFlags b).testBit 1 = false → Next (.hallAck h f) s same) ∧
        (∀ c : SendCtx, (frFlags b).testBit 1 = true → sctx s = some c → c.phase = .isOpen → frCum b = c.next → hallWaits s h.val peer = false →
          (∀ z ∈ c.frames, 2 ^ 31 ≤ (z.lseq - frCum b).toNat) → Next (.hallAck h f) s (fun t => sctx t = some { c with frames := [], since := s.time } ∧ t.out = s.out))) ∧
      (∀ c : SendCtx, frType b = 4 → sctx s = some c →
        (c.phase = .opening → Next (.hallRefuse h f) s (fun t => (sctx t).map SendCtx.phase = some .unseq)) ∧
        (c.phase = .isOpen → c.frames = [] → Next (.hallRefuse h f) s (fun t => sctx t = some ⟨.opening, BitVec.ofNat 32 s.time, BitVec.ofNat 32 s.time, [], s.time⟩ ∧
          t.out = ctl 2 (BitVec.ofNat 32 s.time).toNat 0 0 0 :: s.out)) ∧
        (c.phase = .unseq → Next (.hallRefuse h f) s same)) ∧
      (frType b = 5 → (rctx s = none → Next (.hallSkip h f) s same) ∧
        (∀ c : RecvCtx, rctx s = some c → c.held = [] → frSeq b = c.e → 80 * x.later.length ≤ 2 ^ 20 → Next (.hallSkip h f) s (fun t =>
          rctx t = some ⟨c.e + 1, [], s.time, some (c.ackAt.getD s.time)⟩ ∧ (x.later = [] → (∀ i, oget x.owner i = none) → t.mesh = s.mesh))))) ∧
    (sctx s = none → hallWaits s h.val peer = true → x.send.length < 512 → Next (.hallContextOpen h peer) s (fun t =>
      sctx t = some ⟨.opening, BitVec.ofNat 32 s.time, BitVec.ofNat 32 s.time, [], s.time⟩ ∧ t.out = ctl 2 (BitVec.ofNat 32 s.time).toNat 0 0 0 :: s.out)) ∧
    (sctx s ≠ none ∨ hallWaits s h.val peer = false → Next (.hallContextOpen h peer) s same) ∧
    (∀ c : SendCtx, sctx s = some c →
      (c.phase = .opening → Next (.hallOpenTimeout h peer) s (fun t => (sctx t).map SendCtx.phase = some .unseq ∧ c.since + hallRto s * (hallRetries s + 1) ≤ t.time)) ∧
      (c.phase ≠ .opening → Next (.hallOpenTimeout h peer) s same) ∧
      (c.phase = .isOpen → c.frames = [] → hallWaits s h.val peer = false → Next (.hallContextIdle h peer) s (fun t => sctx t = none ∧ c.since + 1000000 ≤ t.time ∧ t.out = s.out)) ∧
      (c.phase ≠ .isOpen ∨ c.frames ≠ [] ∨ hallWaits s h.val peer = true → Next (.hallContextIdle h peer) s same) ∧
      (c.phase = .unseq → x.send.length < 512 → Next (.hallUnseqRetry h peer) s (fun t => c.since + 100000 ≤ t.time ∧
        (sctx t).map (fun z => (z.phase, z.first, z.frames)) = some (.opening, BitVec.ofNat 32 t.time, []))) ∧
      (c.phase ≠ .unseq → Next (.hallUnseqRetry h peer) s same) ∧
      (∀ z : TxFrame, c.phase = .isOpen → c.frames.find? (fun y => y.lseq == z.lseq && !y.gone && !y.sacked) = some z →
        (z.sends ≤ hallRetries s → Next (.hallRetransmitTimeout h peer z.lseq) s (fun t => z.last + hallRto s ≤ t.time ∧ t.out = data z.plane z.fronds z.lseq :: s.out ∧
          (sctx t).map SendCtx.frames = some (c.frames.map (fun y => if y.lseq = z.lseq then { y with sends := y.sends + 1, last := t.time } else y)) ∧
          regFld t (hallOff h.val + 16) 32 32 = satAdd 32 (regFld s (hallOff h.val + 16) 32 32) 1)) ∧
        (hallRetries s < z.sends → hallWaits s h.val peer = false → Next (.hallRetransmitTimeout h peer z.lseq) s (fun t => z.last + hallRto s ≤ t.time ∧
          t.out = ctl 5 z.lseq.toNat 0 0 0 :: s.out ∧ t.flt.inbox.length = s.flt.inbox.length + 1 ∧
          (sctx t).map SendCtx.frames = some (c.frames.map (fun y => if y.lseq = z.lseq then { y with fronds := [], gone := true, last := t.time } else y)) ∧
          regFld t (hallOff h.val + 16) 16 16 = satAdd 16 (regFld s (hallOff h.val + 16) 16 16) 1))) ∧
      (∀ z : TxFrame, c.frames.filter TxFrame.gone = [z] → Next (.hallSkipResend h peer) s (fun t => z.last + hallRto s ≤ t.time ∧ t.out = ctl 5 z.lseq.toNat 0 0 0 :: s.out)) ∧
      (c.frames.filter TxFrame.gone = [] → Next (.hallSkipResend h peer) s same)) ∧
    (∀ c : RecvCtx, rctx s = some c →
      (∀ t0 : Nat, c.ackAt = some t0 → c.held = [] → Next (.hallAckTimer h peer) s (fun t => t0 + 500 ≤ t.time ∧ rctx t = some { c with ackAt := none } ∧
        t.out = ctl 1 0 c.e.toNat 2 0 :: s.out)) ∧
      (c.ackAt = none → Next (.hallAckTimer h peer) s same))

/-- With nothing waiting at the collector: an occurrence of a listed cause in static mode, without an armed order, counts by its class; without an open window it is admitted with COUNT 1 behind the FIFO's records and opens its window, inside a window of its class it is only counted, with 960 records held it is dropped and counted. One that waited bears the time at which it was raised, and one that no path of the rhizome brought is discarded. An armed DERATE lowers the target by 0.1 GHs and its record says so. The first FATAL occurrence sets the latch and quiesces every hall port. A window that closes with a count admits one record and starts again, with none it goes. The oldest record goes to the host ring while it has room, with its PHASE, or by a read of EVPOP[3] while EN is 0. Setting EN zeroes both indices or, with K outside 4 to 16, is refused; HEAD takes no value that passes TAIL. A class write takes effect on a cause that is not FIXED alone, and clears its buckets and no other. -/
def Obligations.EventsAreClassedMergedAndRecorded : Prop :=
  ∀ s : State, Up s →
    (∀ (e : Ev) (cls : Nat), s.flt.inbox = [] → listed e = true → s.dorm.phase = .service →
      let r := regGet s (classOff e.family.val e.cause.val)
      let counted (t : State) : Prop := t.flt.nCorr = (if cls = 0 then satAdd 32 s.flt.nCorr 1 else s.flt.nCorr) ∧
        t.flt.nCont = (if cls = 1 then satAdd 16 s.flt.nCont 1 else s.flt.nCont) ∧ t.flt.nFatal = (if cls = 2 then satAdd 16 s.flt.nFatal 1 else s.flt.nFatal)
      let one (acts : BitVec 16) : EvRec := ⟨s.time, e.family, e.cause, cls, e.loc, e.sub, 1, acts, s.flt.pendDrop, s.flt.rseq, e.detail⟩
      cls = fld r 60 2 → (bitAt r 62 = true ∨ bitAt r 63 = false) →
      (cls < 2 → (∀ i, 1 ≤ i → i ≤ 5 → regBit s (0x1080 + e.family.val * 8) i = false) →
        (oget s.flt.windows (srcKey e) = none → s.flt.windows.length < 256 → s.flt.fifo.length < 960 → Next (.faultEvent (some e)) s (fun t => counted t ∧
          t.flt.fifo = s.flt.fifo ++ [one 1] ∧ t.flt.pendDrop = 0 ∧ t.flt.rseq = (s.flt.rseq + 1) % 2 ^ 32 ∧
          oget t.flt.windows (srcKey e) = some ⟨cls, false, s.time, 0, 0, 0, 0⟩ ∧ t.flt.inbox = [] ∧ t.regs = s.regs ∧ t.out = s.out)) ∧
        (oget s.flt.windows (srcKey e) = none → 960 ≤ s.flt.fifo.length → Next (.faultEvent (some e)) s (fun t => counted t ∧
          t.flt.fifo = s.flt.fifo ∧ t.flt.pendDrop = satAdd 16 s.flt.pendDrop 1 ∧ t.flt.drops = satAdd 16 s.flt.drops 1)) ∧
        (∀ w : Window, oget s.flt.windows (srcKey e) = some w → w.cls = cls → Next (.faultEvent (some e)) s (fun t => counted t ∧
          t.flt.fifo = s.flt.fifo ∧ t.flt.merges = satAdd 16 s.flt.merges 1 ∧
          (oget t.flt.windows (srcKey e)).map (fun x => (x.count, x.first, x.start)) = some (w.count + 1, if w.count = 0 then s.time else w.first, w.start)))) ∧
      (cls = 1 → e.family = 10 → e.cause = 0 → regBit s 0x10D0 5 = true → afterS4 s = true → fatalLatched s = false → 160 < paceTarget s →
        oget s.flt.windows (srcKey e) = none → s.flt.windows.length < 256 → s.flt.fifo.length < 960 →
        Next (.faultEvent (some e)) s (fun t => counted t ∧ t.flt.fifo = s.flt.fifo ++ [one 33] ∧ regFld t 0x2000 0 8 = max 160 (paceTarget s - 10))) ∧
      (cls = 2 → s.flt.fatal = none → oget s.flt.windows (srcKey e) = none → s.flt.fifo.length < 1024 →
        (∀ p ∈ s.host.descs, ∀ d, p.2 = some d → d.phase = .complete) → Next (.faultEvent (some e)) s (fun t => counted t ∧
          t.flt.fifo = s.flt.fifo ++ [one 1] ∧ t.flt.fatal = some ⟨e.family, e.cause, e.loc, s.time⟩ ∧ (∀ h : Fin 8, (hallAt t h.val).quiet = true) ∧
          oget t.flt.windows (srcKey e) = none))) ∧
    (∀ (e : Ev) (t0 : Nat), s.flt.inbox = [e] → listed e = true → s.dorm.phase = .service →
      let r := regGet s (classOff e.family.val e.cause.val)
      (s.flt.sent = [(t0, false)] → fld r 60 2 < 2 → (bitAt r 62 = true ∨ bitAt r 63 = false) →
        (∀ i, 1 ≤ i → i ≤ 5 → regBit s (0x1080 + e.family.val * 8) i = false) → oget s.flt.windows (srcKey e) = none → s.flt.fifo.length < 960 →
        Next (.faultEvent none) s (fun t => t.flt.inbox = [] ∧ t.flt.sent = [] ∧
          t.flt.fifo = s.flt.fifo ++ [⟨t0, e.family, e.cause, fld r 60 2, e.loc, e.sub, 1, 1, s.flt.pendDrop, s.flt.rseq, e.detail⟩])) ∧
      (s.flt.sent = [(t0, true)] → Next (.faultEvent none) s (fun t => t.flt.inbox = [] ∧ t.flt.fifo = s.flt.fifo ∧ t.flt.fatal = s.flt.fatal))) ∧
    (s.flt.inbox = [] → (∀ e : Ev, listed e = false → Next (.faultEvent (some e)) s (fun t => body t = body s)) ∧
      Next (.faultEvent none) s (fun t => body t = body s)) ∧
    (∀ (f c : Fin 16) (loc : BitVec 7) (sub : BitVec 8),
      (oget s.flt.windows (srcKey ⟨f, c, loc, sub, 0⟩) = none → Next (.mergeWindowClose f c loc sub) s (fun t => body t = body s)) ∧
      (∀ w : Window, oget s.flt.windows (srcKey ⟨f, c, loc, sub, 0⟩) = some w →
        (w.count = 0 → Next (.mergeWindowClose f c loc sub) s (fun t => w.start + 100000 ≤ t.time ∧ t.flt.fifo = s.flt.fifo ∧
          oget t.flt.windows (srcKey ⟨f, c, loc, sub, 0⟩) = none)) ∧
        (w.count ≠ 0 → s.flt.fifo.length < 960 → Next (.mergeWindowClose f c loc sub) s (fun t => w.start + 100000 ≤ t.time ∧
          t.flt.fifo = s.flt.fifo ++ [⟨w.first, f, c, w.cls, loc, sub, w.count, w.acts ||| (if w.esc then 256 else 0) ||| 1, s.flt.pendDrop, s.flt.rseq, w.detail⟩] ∧
          (oget t.flt.windows (srcKey ⟨f, c, loc, sub, 0⟩)).map (fun x => (x.count, x.start, x.cls)) = some (0, t.time, w.cls))))) ∧
    (∀ (x : EvRec) (q : List EvRec), s.flt.fifo = x :: q → s.flt.ringEn = true → (s.flt.ringTail - s.flt.ringHead).toNat < 2 ^ evK s →
      Next .eventRingWrite s (fun t => t.flt.fifo = q ∧ t.flt.ringTail = s.flt.ringTail + 1 ∧ t.out = .hostWrite (ringAddr (regGet s 0x1028) (evK s) 32 s.flt.ringTail.toNat)
        (evBytes x (decide (s.flt.ringTail.toNat / 2 ^ evK s % 2 = 0))) :: s.out)) ∧
    ((s.flt.fifo = [] ∨ s.flt.ringEn = false ∨ 2 ^ evK s ≤ (s.flt.ringTail - s.flt.ringHead).toNat) → Next .eventRingWrite s (fun t => body t = body s)) ∧
    (MgServed s 0x1078 →
      (∀ (x : EvRec) (q : List EvRec), s.flt.fifo = x :: q → s.flt.ringEn = false → Next .eventPop s (fun t => t.flt.fifo = q ∧ t.mg.err = false ∧
        t.mg.rdata = BitVec.ofNat 32 (leAt (evBytes x false) 24 4))) ∧
      ((s.flt.fifo = [] ∨ s.flt.ringEn = true) → Next .eventPop s (fun t => t.flt.fifo = s.flt.fifo ∧ t.mg.rdata = 0 ∧ t.mg.err = false))) ∧
    (∀ v : Word, MgServed s 0x1030 →
      (bitAt v 63 = true → s.flt.ringEn = false → 4 ≤ evK s → evK s ≤ 16 → Next (.eventRingEnable v) s (fun t =>
        t.flt = { s.flt with ringEn := true, ringTail := 0, ringHead := 0 })) ∧
      (bitAt v 63 = true → s.flt.ringEn = false → (evK s < 4 ∨ 16 < evK s) → Next (.eventRingEnable v) s (fun t =>
        t.flt.ringEn = false ∧ t.flt.ringTail = s.flt.ringTail ∧ t.flt.inbox.length = s.flt.inbox.length + 1)) ∧
      ((bitAt v 63 = false ∨ s.flt.ringEn = true) → Next (.eventRingEnable v) s (fun t => t.flt = { s.flt with ringEn := bitAt v 63 }))) ∧
    (∀ v : Word, MgServed s 0x1038 →
      ((BitVec.ofNat 32 (fld v 0 32) - s.flt.ringHead).toNat ≤ (s.flt.ringTail - s.flt.ringHead).toNat → Next (.eventRingHeadWrite v) s (fun t =>
        t.flt = { s.flt with ringHead := BitVec.ofNat 32 (fld v 0 32) })) ∧
      ((s.flt.ringTail - s.flt.ringHead).toNat < (BitVec.ofNat 32 (fld v 0 32) - s.flt.ringHead).toNat → Next (.eventRingHeadWrite v) s (fun t => t.flt = s.flt))) ∧
    (∀ (f : Fin 13) (c : Fin 16) (v : Word), MgServed s (classOff f.val c.val) →
      let off := classOff f.val c.val
      ((resetClass f.val c.val = none ∨ bitAt (regGet s off) 62 = true) → Next (.faultClassWrite f c v) s (fun t => t.regs = s.regs ∧ t.flt = s.flt)) ∧
      (resetClass f.val c.val ≠ none → bitAt (regGet s off) 62 = false → Next (.faultClassWrite f c v) s (fun t =>
        regBit t off 63 = bitAt v 63 ∧ regBit t off 62 = false ∧ regFld t off 60 2 = (if fld v 60 2 = 3 then regFld s off 60 2 else fld v 60 2) ∧
        regFld t off 58 2 = fld v 58 2 ∧ regFld t off 0 48 = fld v 0 48 ∧ (∀ o, o ≠ off → regGet t o = regGet s o) ∧
        (∀ e : Ev, (e.family.val = f.val ∧ e.cause = c → oget t.flt.buckets (srcKey e) = none) ∧
          (e.family.val ≠ f.val ∨ e.cause ≠ c → oget t.flt.buckets (srcKey e) = oget s.flt.buckets (srcKey e))))))

/-- A write of a girdle register sets the bits written at 1 and clears none; one plane-link newly girdled is told to the hubs. A hub that applies a link's girdle has nothing queued, open or held toward it on that plane; a stand that applies its own holds no frond; a girdle not set, applied before, or at a stand that no path of the rhizome reaches does nothing. A release clears a link's bit and gives both its ends 8 credits per VC, clears a port's bit and starts its RESYNC, and puts a stand under re-test, still girdled; the re-test passed ends the girdle and releases every bank that passed, failed it leaves the stand girdled, names the failing unit and raises SELFTEST_FAIL. A node in service sends its liveness message; one heard is noted; a neighbour's silence of 1 microsecond raises NODE_LINK once, and SILENT with the last neighbour's within 2 microseconds. -/
def Obligations.GirdlesAreSetAppliedAndReleased : Prop :=
  ∀ s : State, Up s →
    (∀ (reg : Fin 8) (v : Word), MgServed s (girdleOff reg.val) → Next (.girdle reg v) s (fun t =>
      (∀ st : StandId, girdled t st.val = (girdled s st.val || (decide (reg = 0) && bitAt v st.val)) ∧
        portGirdled t st.val = (portGirdled s st.val || (decide (reg = 1) && bitAt v st.val))) ∧
      (∀ n : Fin 328, linkGirdled t n.val = (linkGirdled s n.val || (decide (reg.val = 2 + n.val / 64) && bitAt v (n.val % 64)))) ∧
      (∀ n : Fin 328, girdleUnits reg.val v = [.link n] → linkGirdled s n.val = false → t.out = .rhz (.girdle (.link n)) :: s.out ∧ t.mesh = s.mesh))) ∧
    (∀ (reg : Fin 8) (v : Word), MgServed s (girdleRelOff reg.val) →
      (∀ n : Fin 328, girdleUnits reg.val v = [.link n] → linkGirdled s n.val = true → Next (.girdleRelease reg v) s (fun t =>
        linkGirdled t n.val = false ∧ (∀ m : Fin 328, m ≠ n → linkGirdled t m.val = linkGirdled s m.val) ∧ t.map.gstand = s.map.gstand ∧
        (∀ d : Nat, dirTo (linkEnds (n.val / 4)).1 (linkEnds (n.val / 4)).2 = some d → (outPort t (linkEnds (n.val / 4)).1 (n.val % 4) d).credits = List.replicate 8 8) ∧
        (∀ d : Nat, dirTo (linkEnds (n.val / 4)).2 (linkEnds (n.val / 4)).1 = some d → (outPort t (linkEnds (n.val / 4)).2 (n.val % 4) d).credits = List.replicate 8 8) ∧
        t.out = .rhz (.release (.link n)) :: s.out)) ∧
      (∀ k : StandId, girdleUnits reg.val v = [.port k] → portGirdled s k.val = true → fenced s k.val = false → girdled s k.val = false →
        cget false s.port.inRst k.val = false → 2 ≤ s.bup.reported → Next (.girdleRelease reg v) s (fun t =>
          portGirdled t k.val = false ∧ cget .reset t.port.xst k.val = .syncing ∧ t.map.gstand = s.map.gstand ∧ t.map.glink = s.map.glink)) ∧
      (∀ st : StandId, girdleUnits reg.val v = [.stand st] → girdled s st.val = true → (∀ p ∈ s.bup.retest, p.1 ≠ st) → Next (.girdleRelease reg v) s (fun t =>
        girdled t st.val = true ∧ t.bup.retest = s.bup.retest ++ [(st, s.time)] ∧ t.out = .rhz (.release (.stand st)) :: s.out)) ∧
      (∀ u : GUnit, girdleUnits reg.val v = [u] → unitGirdled s u = false → Next (.girdleRelease reg v) s (fun t => t.map = s.map ∧ t.out = s.out))) ∧
    (∀ (st : StandId) (u : GUnit), (unitGirdled s u = false ∨ cget false s.map.applied (st.val * 424 + gunitNo u) = true ∨ noPath s st.val = true) →
      Next (.girdleApply st u) s (fun t => body t = body s)) ∧
    (∀ (st b : StandId) (n : Fin 328) (d : Nat), linkGirdled s n.val = true → cget false s.map.applied (st.val * 424 + (48 + n.val)) = false → noPath s st.val = false →
      (linkEnds (n.val / 4) = (st.val, b.val) ∨ linkEnds (n.val / 4) = (b.val, st.val)) → dirTo st.val b.val = some d →
      Next (.girdleApply st (.link n)) s (fun t => cget false t.map.applied (st.val * 424 + (48 + n.val)) = true ∧
        (outPort t st.val (n.val % 4) d).holder = List.replicate 8 none ∧
        (∀ inp vc, inp < 6 → vc < 8 → (∀ f ∈ (inVc t st.val (n.val % 4) inp vc).q, f.outp.val ≠ d) ∧
          (∀ o, (inVc t st.val (n.val % 4) inp vc).opened = some o → o.outp.val ≠ d)) ∧
        (∀ vc, vc < 8 → (inVc t st.val (n.val % 4) d vc).opened = none))) ∧
    (∀ st : StandId, girdled s st.val = true → cget false s.map.applied (st.val * 424 + st.val) = false → Next (.girdleApply st (.stand st)) s (fun t =>
      ∀ (pl : PlaneId) (inp : Fin 6) (vc : Fin 8), inVc t st.val pl.val inp.val vc.val = {})) ∧
    (∀ (st : StandId) (bad : List (Fin 34)), (∀ p ∈ s.bup.retest, p.1 ≠ st) →
      ∀ f : Option (BitVec 4 × BitVec 2), Next (.standRetestComplete st f bad) s (fun t => body t = body s)) ∧
    (∀ (st : StandId) (t0 : Nat), (st, t0) ∈ s.bup.retest →
      Next (.standRetestComplete st none []) s (fun t => girdled t st.val = false ∧ t.bup.retest = s.bup.retest.filter (fun p => decide (p.1 ≠ st)) ∧
        (∀ b, b < 34 → ownReleased (ownReg t st.val b) = true ∧ ownKind (ownReg t st.val b) = 0)) ∧
      ∀ f : BitVec 4 × BitVec 2, Next (.standRetestComplete st (some f) []) s (fun t => girdled t st.val = girdled s st.val ∧
        regFld t (stdOff st 0x380) 57 7 = fld (selftestWord f) 57 7 ∧ t.bup.retest = s.bup.retest.filter (fun p => decide (p.1 ≠ st)) ∧
        (⟨1, 14, BitVec.ofNat 7 st.val, 0, 0⟩ : Ev) ∈ t.flt.inbox)) ∧
    (∀ st : StandId, (girdled s st.val = false → Next (.livenessSend st) s (fun t => t.out = .rhz (.liveness st) :: s.out ∧ t.flt = s.flt)) ∧
      (girdled s st.val = true → Next (.livenessSend st) s (fun t => body t = body s))) ∧
    (∀ st from_ : StandId, (∀ d : Nat, dirTo st.val from_.val = some d → Next (.livenessMessage st from_) s (fun t =>
        cget 0 t.flt.heard (st.val * 4 + d) = s.time ∧ oget t.flt.silent (st.val * 4 + d) = none)) ∧
      (dirTo st.val from_.val = none → Next (.livenessMessage st from_) s (fun t => body t = body s))) ∧
    (∀ (st : StandId) (d : Fin 4),
      let key := st.val * 4 + d.val
      let now := max s.time (cget 0 s.flt.heard key + 1000)
      let nodeLink : Ev := ⟨2, 1, BitVec.ofNat 7 st.val, BitVec.ofNat 8 d.val, 0⟩
      (∀ n : Nat, neighbour st.val d.val = some n → girdled s st.val = false → girdled s n = false → oget s.flt.silent key = none →
        ((∃ p ∈ watchers s n, p ≠ (st.val, d.val) ∧ oget s.flt.silent (nbrKey p.1 p.2) = none) → Next (.nodeLinkSilence st d) s (fun t =>
          t.flt.inbox = s.flt.inbox ++ [nodeLink] ∧ oget t.flt.silent key = some now ∧ t.time = now)) ∧
        ((∀ p ∈ watchers s n, p ≠ (st.val, d.val) → ∃ t0, oget s.flt.silent (nbrKey p.1 p.2) = some t0 ∧ t0 ≤ now ∧ now ≤ t0 + 2000) → Next (.nodeLinkSilence st d) s (fun t =>
          t.flt.inbox = s.flt.inbox ++ [nodeLink, ⟨2, 2, BitVec.ofNat 7 n, 0, 0⟩] ∧ oget t.flt.silent key = some now ∧ t.time = now))) ∧
      ((neighbour st.val d.val = none ∨ girdled s st.val = true ∨ oget s.flt.silent key ≠ none) → Next (.nodeLinkSilence st d) s (fun t => body t = body s)))

/-- A data write stores the half at ADDR and advances ADDR. A key write with VALID 0 is stored; one with VALID 1 is stored where no other valid key names its unit and every offset of its set may be written; else it changes no register and raises one event. A REROUTE does nothing outside IDLE or in the fatal state; in IDLE the oldest one stages its set, here of one write, in the staged bank alone, where the entry refuses the value with one event instead, and requests a switch, or with no set only goes. The confirmation of a stand that is not girdled, with one held swap onto it and no write of its entry waiting, gives the entry the old twin as its primary, no twin and STATE MAPPED, changes no other entry, ends the hold and frees the old primary bank where its stand is in service. -/
def Obligations.ReroutesAndSwapsTakeTheirPlace : Prop :=
  ∀ s : State, Up s →
    (∀ v : Word, MgServed s 0x1050 → Next (.contingencyDataWrite v) s (fun t => let a := regFld s 0x1048 0 16
      contHalf t a = v ∧ (∀ b : Nat, b ≠ a → contHalf t b = contHalf s b) ∧ regFld t 0x1048 0 16 = (a + 1) % 2 ^ 16 ∧
      (∀ o : Nat, o ≠ 0x1048 → regGet t o = regGet s o) ∧ t.flt = { s.flt with cont := t.flt.cont })) ∧
    (∀ (n : Fin 64) (v : Word), MgServed s (0x1800 + n.val * 8) →
      let off := 0x1800 + n.val * 8
      let new := regNext s allBits off v
      let taken := ∃ j, j < 64 ∧ j ≠ n.val ∧ regBit s (0x1800 + j * 8) 63 = true ∧ regFld s (0x1800 + j * 8) 60 3 = fld new 60 3 ∧
        regFld s (0x1800 + j * 8) 0 10 = fld new 0 10
      let offsOk := ∀ p ∈ contWrites s n.val (fld new 32 10), contOffOk p.1 = true
      let stored (t : State) : Prop := regGet t off = new ∧ (∀ o : Nat, o ≠ off → regGet t o = regGet s o) ∧ t.flt = s.flt
      (bitAt new 63 = false → Next (.contingencyKeyWrite n v) s stored) ∧
      (bitAt new 63 = true → ¬ taken → offsOk → Next (.contingencyKeyWrite n v) s stored) ∧
      (bitAt new 63 = true → (taken ∨ ¬ offsOk) → Next (.contingencyKeyWrite n v) s (fun t =>
        t.regs = s.regs ∧ t.flt.cont = s.flt.cont ∧ t.flt.inbox.length = s.flt.inbox.length + 1))) ∧
    ((s.epoch.phase ≠ .idle ∨ s.flt.reroutes = [] ∨ fatalLatched s = true) → Next .reroute s (fun t => body t = body s)) ∧
    (∀ (k : ContKey) (r : List ContKey), s.epoch.phase = .idle → fatalLatched s = false → s.flt.reroutes = k :: r →
      (setFor s k = none → Next .reroute s (fun t => t.flt = { s.flt with reroutes := r } ∧ t.banked = s.banked ∧ t.epoch = s.epoch ∧ t.out = s.out)) ∧
      (∀ (n off : Nat) (v : Word) (i : RegInfo), setFor s k = some n → contWrites s n (regFld s (0x1800 + n * 8) 32 10) = [(off, v)] →
        off < 2 ^ 24 → regInfo off = some i → contOffOk off = true →
        let new : Word := regWritten i allBits (bkGet s (!parity s) off) v
        let bad : Prop := match standWindow off with
          | some (_, o) => o < 0x800 ∧ ∃ p, p < 4 ∧ (fld new (p * 4) 3 = 5 ∨ fld new (p * 4) 3 = 6)
          | none => 2 ≤ fld new 10 2 ∨ (fld new 10 2 = 0 ∧ (fld new 8 2 = 1 ∨ fld new 8 2 = 3) ∧ fld new 6 2 ≠ 0)
        (bad → Next .reroute s (fun t => t.banked = s.banked ∧ t.epoch = { s.epoch with phase := .flipping, epoch := s.epoch.epoch + 1, reqAt := s.time, taken := [], acked := [] } ∧
          t.out = .rhz .flip :: s.out ∧ t.flt.reroutes = r ∧ t.flt.inbox.length = s.flt.inbox.length + 1)) ∧
        (¬ bad → Next .reroute s (fun t =>
          bkGet t (!parity s) off = new ∧
          (∀ (p : Bool) (o : Nat), o < 2 ^ 24 → (p = parity s ∨ o ≠ off) → bkGet t p o = bkGet s p o) ∧
          t.epoch = { s.epoch with phase := .flipping, epoch := s.epoch.epoch + 1, reqAt := s.time, taken := [], acked := [] } ∧
          t.out = .rhz .flip :: s.out ∧ t.flt = { s.flt with reroutes := r })))) ∧
    (∀ st : StandId,
      let held (n : Nat) : Prop := ∃ r, oget s.map.rehomes n = some r ∧ r.held = true ∧ r.kind = .swap ∧ copTStand (coppice s n) = st.val
      ((girdled s st.val = true ∨ ∀ n, n < 1536 → ¬ held n) → Next (.twinConfirm st) s (fun t => body t = body s)) ∧
      (∀ n : Nat, n < 1536 → girdled s st.val = false → held n → (∀ m, m < 1536 → m ≠ n → ¬ held m) → (∀ p ∈ s.map.waiting, p.1 ≠ n) →
        Next (.twinConfirm st) s (fun t => let c := coppice s n
          copPStand (coppice t n) = copTStand c ∧ copPBank (coppice t n) = copTBank c ∧ copTwin (coppice t n) = false ∧ copState (coppice t n) = 1 ∧
          (∀ m : Nat, m ≠ n → coppice t m = coppice s m) ∧ oget t.map.rehomes n = none ∧ t.map.waiting = s.map.waiting ∧
          t.out = (if girdled s (copPStand c) then [] else [.rhz (.bankCmd (standOf (copPStand c)) (copPBank c) 0)]) ++
            [.rhz (.unhold n), .rhz (.rehome n (coppice t n)), .rhz (.confirm st)] ++ s.out ∧
          (girdled s (copPStand c) = false → ownKind (ownReg t (copPStand c) (copPBank c)) = 0))))

/-- The tick comes at the next multiple of 500 ns: HEARTBEAT toggles exactly where S1 has reported, the fatal latch is clear and every stand in service is alive, else it holds. A plane-link direction in service sends one CTRL frond on VC 6 with the next 512 bits of its own sequence and spends a credit, where the output has room; with no room, with cruise off, a girdled or frozen sender, or in dormancy nothing is sent. A frond that matches raises nothing; one that does not raises LINK CRUISE with the bits in error, and the sequence goes on from it. A self-check with failing lanes raises RESIDUE SELFTEST, with none it raises nothing, and off, girdled, frozen or dormant it does nothing. A pattern and a self-check come an interval after the last of the same direction or stand (log 109). The lanes' places in DETAIL are the model's choice (log 26). -/
def Obligations.CruiseAndHeartbeatWatchTheDie : Prop :=
  ∀ s : State, Up s →
    Next .heartbeatTick s (fun t => let now := (s.time / 500 + 1) * 500
      t.time = now ∧ t.flt.inbox = s.flt.inbox ∧
      ((2 ≤ s.bup.reported ∧ fatalLatched s = false ∧ ∀ st : StandId, girdled s st.val = true ∨ alive { s with time := now } st.val = true) →
        t.flt.hb = !s.flt.hb) ∧
      ((s.bup.reported < 2 ∨ fatalLatched s = true ∨ ∃ st : StandId, girdled s st.val = false ∧ alive { s with time := now } st.val = false) →
        t.flt.hb = s.flt.hb)) ∧
    (∀ (n : Fin 328) (dir : Fin 2),
      let a := linkFrom n.val dir.val
      let b := linkTo n.val dir.val
      let key := n.val * 2 + dir.val
      (∀ d : Nat, cruiseOn s n.val = true → frozenAt s a = false → standDormant s (standOf a) = false → dirTo a b = some d →
        (cruiseRoom s a (planeOf n.val).val d = false → Next (.cruisePatternSend n dir) s (fun t => body t = body s)) ∧
        (cruiseRoom s a (planeOf n.val).val d = true → Next (.cruisePatternSend n dir) s (fun t => cget prbsSeed t.flt.prbsTx key = (prbs (cget prbsSeed s.flt.prbsTx key) 512).2 ∧
          t.out = .frond (standOf a) (planeOf n.val) (portOf d) 6 (cruiseFrond s a b (bitsBv (prbs (cget prbsSeed s.flt.prbsTx key) 512).1)) :: s.out ∧
          t.mesh.inv = s.mesh.inv ∧ t.flt.inbox = s.flt.inbox ∧ (outPort t a (planeOf n.val).val d).credits.getD 6 0 =
            (outPort s a (planeOf n.val).val d).credits.getD 6 0 - 1 ∧
          t.time = (match oget s.flt.cruiseAt key with | some m => max s.time (m + cruiseNs s) | none => s.time) ∧ oget t.flt.cruiseAt key = some t.time))) ∧
      ((cruiseOn s n.val = false ∨ frozenAt s a = true ∨ standDormant s (standOf a) = true) →
        Next (.cruisePatternSend n dir) s (fun t => body t = body s)) ∧
      (∀ p : BitVec 512, cruiseOn s n.val = true → frozenAt s b = false →
        let want := bitsBv (prbs (cget prbsSeed s.flt.prbsRx key) 512).1
        (p = want → Next (.cruisePatternReceive n dir p) s (fun t => t.flt.inbox = s.flt.inbox ∧
          cget prbsSeed t.flt.prbsRx key = (prbs (cget prbsSeed s.flt.prbsRx key) 512).2)) ∧
        (∀ d : Nat, p ≠ want → dirTo b a = some d → Next (.cruisePatternReceive n dir p) s (fun t =>
          t.flt.inbox = s.flt.inbox ++ [⟨0, 4, BitVec.ofNat 7 b, BitVec.ofNat 8 (meshSub (n.val % 4) d), BitVec.ofNat 64 (popcount (p ^^^ want))⟩] ∧
          cget prbsSeed t.flt.prbsRx key = prbsSync p))) ∧
      (∀ p : BitVec 512, (cruiseOn s n.val = false ∨ frozenAt s b = true) → Next (.cruisePatternReceive n dir p) s (fun t => body t = body s))) ∧
    (∀ (st : StandId) (bad : BitVec 128),
      (regBit s 0x1040 62 = true → girdled s st.val = false → frozenAt s st.val = false → standDormant s st = false →
        Next (.reducerSelfcheck st bad) s (fun t => t.red = s.red ∧ t.regs = s.regs ∧ t.out = s.out ∧ t.flt.inbox = s.flt.inbox ++ (if bad = 0 then [] else
          [⟨5, 2, BitVec.ofNat 7 st.val, 0, BitVec.ofNat 64 (fld bad 0 64) ||| BitVec.ofNat 64 (fld bad 64 64)⟩]) ∧
          t.time = (match oget s.flt.checkAt st.val with | some m => max s.time (m + checkNs s) | none => s.time) ∧ oget t.flt.checkAt st.val = some t.time)) ∧
      ((regBit s 0x1040 62 = false ∨ girdled s st.val = true ∨ frozenAt s st.val = true ∨ standDormant s st = true) →
        Next (.reducerSelfcheck st bad) s (fun t => body t = body s)))

/-- A period comes 1 microsecond after the last. With the canaries' readings kept, p is the calibrated pace of the slowest stand in the loop and sp the target, less DDERATE in a droop, plus GUARD. Before S4, while a test of S4 or S6 sets the request, in dormancy or on its way into it, in the safe state and while the rail lags it is held; below sp it rises by at most 4 codes and not above VMAX, above sp + 2 outside a droop it falls by 1 and not below VMIN, else it stays. A stand below sp for the fourth period sets MARGIN, no stand below sp for the fourth clears it; p below 160 for the second period outside dormancy sets BELOW, not below it for the second clears it, each set raising its event once; one stand's rail more than 4 codes low for 10 microseconds sets LAG, all within 2 clear it. A reading of VDD_SLC below 0.50 V makes the contents of the stand's retained banks undefined. -/
def Obligations.ThePaceLoopSetsTheRequest : Prop :=
  ∀ (s : State) (l : List (StandId × Canary)), Up s →
    let now := max s.time (s.pwr.stepAt + 1000)
    let u := l.foldl (fun s r => keepReading s r.1 r.2) { s with time := now }
    let p := (slowest u).1
    let sp := loopTarget s + regFld s 0x2000 32 8
    let pace (st : StandId) : Nat := regFld u (canaryOff st.val) 56 8
    let rail (st : StandId) : Nat := regFld u (canaryOff st.val) 40 8
    let held := s.bup.reported < 4 ∨ (stageRequest u).isSome = true ∨ s.dorm.phase = .entering ∨ s.dorm.phase = .dormant ∨ s.pwr.safe = true ∨ s.pwr.lag = true
    let slope := slopeAt s s.pwr.vfab
    let seen (st : StandId) : Prop := girdled s st.val = false ∨ ∃ r ∈ l, r.1 = st
    let dead (b : Nat) (r : StandId × Canary) : Prop := r.2.vslc.toNat < 20 ∧ ownRstate (ownReg s r.1.val b) = 2
    let v := s.pwr.vfab
    Next (.paceStep l) s (fun t => t.time = now ∧ t.pwr.stepAt = now ∧ t.pwr.p = p ∧ t.pwr.slowest = (slowest u).2 ∧ t.pwr.sp = sp ∧ t.regs = u.regs ∧
      t.pwr.vslc = s.pwr.vslc ∧ t.pwr.safe = s.pwr.safe ∧ t.pwr.droop = s.pwr.droop ∧ t.mesh = s.mesh ∧ t.out = s.out ∧
      ((∀ r ∈ l, ∀ b, b < 34 → ¬ dead b r) → t.slice = s.slice) ∧
      (∀ r ∈ l, ∀ b w, b < 34 → w < 2 ^ 16 → dead b r → wordSt t r.1.val b w = .lost) ∧
      (held → t.pwr.vfab = v) ∧
      (¬ held → p < sp → t.pwr.vfab = min (vMax s) (v + min 4 ((sp - p + slope - 1) / slope))) ∧
      (¬ held → sp + 2 < p → s.pwr.droop = false → t.pwr.vfab = max (vMin s) (v - 1)) ∧
      (¬ held → sp ≤ p → (p ≤ sp + 2 ∨ s.pwr.droop = true) → t.pwr.vfab = v) ∧
      (t.pwr.limit = true ↔ (stageRequest u).getD t.pwr.vfab = vMax s ∧ p < sp) ∧
      (∀ (st : StandId) (c : Canary), l = [(st, c)] →
        pace st = calibrated c.pace.toNat (regFld s (canaryOff st.val) 48 8) ∧ rail st = c.vfab.toNat ∧
        regFld u (canaryOff st.val) 32 8 = c.vslc.toNat ∧ regFld u (canaryOff st.val) 24 8 = c.tj.toNat ∧
        regFld u (canaryOff st.val) 16 8 = min (pace st) (regFld s (canaryOff st.val) 16 8) ∧
        regFld u (canaryOff st.val) 48 8 = regFld s (canaryOff st.val) 48 8 ∧ (∀ o, o ≠ canaryOff st.val → regGet u o = regGet s o)) ∧
      (∀ st : StandId, girdled s st.val = false → p ≤ pace st) ∧
      (4 ≤ s.bup.reported →
        ((∃ st : StandId, girdled s st.val = false ∧ pace st < sp ∧ cget 0 s.pwr.marginN st.val = 3) → t.pwr.margin = true ∧
          (s.pwr.margin = false → ∃ st : StandId, pace st < sp ∧ (⟨10, 0, BitVec.ofNat 7 st.val, 0, 0⟩ : Ev) ∈ t.flt.inbox)) ∧
        ((∀ st : StandId, girdled s st.val = false → sp ≤ pace st) → s.pwr.marginOff = 3 → t.pwr.margin = false)) ∧
      (dormHeld s = false →
        (p < 160 → s.pwr.belowOn = 1 → t.pwr.below = true ∧
          (s.pwr.below = false → (⟨10, 2, BitVec.ofNat 7 (slowest u).2, 0, 0⟩ : Ev) ∈ t.flt.inbox)) ∧
        (160 ≤ p → s.pwr.belowOff = 1 → t.pwr.below = false)) ∧
      (dormHeld s = true → t.pwr.below = s.pwr.below) ∧
      (s.pwr.margin = true → s.pwr.below = true → t.flt = s.flt) ∧
      (∀ st : StandId, seen st → rail st + 4 < vfabNow t → ∀ t0 : Nat, oget s.pwr.lagAt st.val = some t0 → t0 + 10000 ≤ now → t.pwr.lag = true) ∧
      (s.pwr.lag = false → (∀ st : StandId, rail st + 4 < vfabNow t → ∀ t0 : Nat, oget s.pwr.lagAt st.val = some t0 → now < t0 + 10000) → t.pwr.lag = false) ∧
      ((∀ st : StandId, seen st → rail st ≤ vfabNow t + 2 ∧ vfabNow t ≤ rail st + 2) → t.pwr.lag = false))

/-- PWR_DROOP_WARN rising starts droop handling and raises SUPPLY DROOP, while the die is dormant nothing; its fall starts the 10 microseconds after which the handling ends, no earlier. A stand's TJ is kept; at TWARN or above WARN is raised once until it has fallen 5 degrees below. TCRIT raises CRITICAL once, and a brown-out at a stand raises BROWNOUT: each takes the safe state, with VBOOT requested on both rails and RET set on every released bank that is not FREE, every other bank's register as it was. -/
def Obligations.DroopHeatAndBrownoutAct : Prop :=
  ∀ s : State, Up s →
    let safeTaken (t : State) : Prop := t.pwr.safe = true ∧ t.pwr.vfab = regFld s 0x2010 32 8 ∧ t.pwr.vslc = regFld s 0x2010 32 8 ∧
      t.slice = s.slice ∧ t.mesh = s.mesh ∧ ∀ (st : StandId) (b : Nat), b < 34 →
        let o := ownReg s st.val b
        ((ownReleased o = true ∧ ownKind o ≠ 0) → ownRet (ownReg t st.val b) = true ∧ ownKind (ownReg t st.val b) = ownKind o) ∧
        ((ownReleased o = false ∨ ownKind o = 0) → ownReg t st.val b = o)
    (s.pwr.warnPin = false → s.dorm.phase ≠ .dormant → Next .pwrDroopWarnAssert s (fun t =>
      t.pwr = { s.pwr with warnPin := true, droop := true } ∧ t.flt.inbox = s.flt.inbox ++ [⟨10, 1, 53, 0, 0⟩] ∧ t.regs = s.regs)) ∧
    (s.pwr.warnPin = false → s.dorm.phase = .dormant → Next .pwrDroopWarnAssert s (fun t => t.pwr = { s.pwr with warnPin := true } ∧ t.flt = s.flt)) ∧
    (s.pwr.warnPin = true → Next .pwrDroopWarnAssert s (fun t => body t = body s) ∧ Next .pwrDroopWarnDeassert s (fun t =>
      t.pwr = { s.pwr with warnPin := false, fellAt := s.time } ∧ t.flt = s.flt ∧ t.regs = s.regs)) ∧
    (s.pwr.warnPin = false → Next .pwrDroopWarnDeassert s (fun t => body t = body s)) ∧
    (s.pwr.droop = true → s.pwr.warnPin = false → Next .droopHandlingEnd s (fun t =>
      t.pwr = { s.pwr with droop := false } ∧ t.time = max s.time (s.pwr.fellAt + 10000) ∧ t.flt = s.flt)) ∧
    ((s.pwr.droop = false ∨ s.pwr.warnPin = true) → Next .droopHandlingEnd s (fun t => body t = body s)) ∧
    (∀ (st : StandId) (tj : BitVec 8),
      let now := toSigned 8 tj.toNat
      let warn : Int := regFld s 0x2018 56 8
      let crit : Int := regFld s 0x2018 48 8
      let kept (t : State) : Prop := regFld t (canaryOff st.val) 24 8 = tj.toNat ∧ regFld t (canaryOff st.val) 48 8 = regFld s (canaryOff st.val) 48 8
      (now < crit →
        (warn ≤ now → cget false s.pwr.hot st.val = false → Next (.thermalThreshold st tj) s (fun t => kept t ∧
          t.flt.inbox = s.flt.inbox ++ [⟨11, 0, BitVec.ofNat 7 st.val, 0, 0⟩] ∧ cget false t.pwr.hot st.val = true ∧ t.pwr.vfab = s.pwr.vfab)) ∧
        (warn ≤ now → cget false s.pwr.hot st.val = true → Next (.thermalThreshold st tj) s (fun t => kept t ∧ t.flt = s.flt ∧ t.pwr.hot = s.pwr.hot)) ∧
        (now ≤ warn - 5 → Next (.thermalThreshold st tj) s (fun t => kept t ∧ t.flt = s.flt ∧ cget false t.pwr.hot st.val = false)) ∧
        (warn - 5 < now → now < warn → Next (.thermalThreshold st tj) s (fun t => kept t ∧ t.flt = s.flt ∧ t.pwr.hot = s.pwr.hot))) ∧
      (crit ≤ now → cget false s.pwr.crit st.val = false → Next (.thermalThreshold st tj) s (fun t => kept t ∧ safeTaken t ∧
        (⟨11, 1, BitVec.ofNat 7 st.val, 0, 0⟩ : Ev) ∈ t.flt.inbox ∧ cget false t.pwr.crit st.val = true)) ∧
      (crit ≤ now → cget false s.pwr.crit st.val = true → Next (.thermalThreshold st tj) s (fun t => kept t ∧ t.pwr.safe = s.pwr.safe ∧
        t.pwr.vfab = s.pwr.vfab ∧ (⟨11, 1, BitVec.ofNat 7 st.val, 0, 0⟩ ∈ t.flt.inbox → (⟨11, 1, BitVec.ofNat 7 st.val, 0, 0⟩ : Ev) ∈ s.flt.inbox)))) ∧
    (∀ st : StandId, Next (.brownout st) s (fun t => safeTaken t ∧ t.flt.inbox = s.flt.inbox ++ [⟨10, 3, BitVec.ofNat 7 st.val, 0, 0⟩]))

/-- While a command runs every further one is lost and sets OVERRUN. Before S2 reports, unless S2 has halted, each is answered NOT_READY. A WRITE, READ, VERIFY, ACTIVATE or ERASE of the running or the ACTIVE slot is answered ADDR_RANGE; a VERIFY of a slot that is not WRITTEN, VERIFIED or FAILED, an ACTIVATE of one that is not VERIFIED and a CONFIRM but of the running trial slot after S7 are answered NOT_READY; none of them puts anything on SEC. Else the command runs: DONE is 0 and its first step is on SEC. WRITE writes the page and then the record with WRITTEN where it has another state; ERASE erases from page 0 on; VERIFY and ACTIVATE read the image from page 0 on; CONFIRM writes the record with the slot GOOD and ACTIVE and then advances the counter. -/
def Obligations.TableCommandsAnswerOrStart : Prop :=
  ∀ (s : State) (b : Fin 2) (p : Fin 1024), MgServed s 0xD0000 →
    let x := slotB b
    let taken : TblState := { s.tbl with overrun := false, detail := 0, status := .ok }
    let ends (r : Status) (t : State) : Prop := t.tbl = { taken with status := r } ∧ t.out = s.out ∧ t.regs = s.regs ∧ t.mg.err = false
    let starts (op : Nat) (first : SecStep) (rest : List SecStep) (t : State) : Prop :=
      t.tbl = { taken with done := false, op := op, slot := x, steps := first :: rest, work := [] } ∧ t.out = secOut s first :: s.out ∧ t.regs = s.regs
    let change (n : Nat) : List SecStep := if recSt s.tbl.rec_ x = n then [] else
      [.recErase { recPut s.tbl.rec_ x n with seq := s.tbl.rec_.seq + 1 }, .recWrite { recPut s.tbl.rec_ x n with seq := s.tbl.rec_.seq + 1 }]
    let s2Over := 3 ≤ s.bup.reported ∨ (s.bup.halted = true ∧ s.bup.hcause = 4)
    let others : List Instr := [.tableWrite b p, .tableRead b p, .tableVerify b, .tableActivate b, .tableErase b]
    (∀ c ∈ .tableConfirm b :: others,
      (s.tbl.done = false → Next c s (fun t => t.tbl = { s.tbl with overrun := true } ∧ t.out = s.out ∧ t.regs = s.regs)) ∧
      (s.tbl.done = true → ¬ s2Over → Next c s (ends .notReady))) ∧
    (s.tbl.done = true → s2Over →
      (((s.tbl.origin ≠ 4 ∧ s.tbl.runB = x) ∨ s.tbl.rec_.active = x) → ∀ c ∈ others, Next c s (ends .addrRange)) ∧
      ((s.tbl.origin = 4 ∨ s.tbl.runB ≠ x) → s.tbl.rec_.active ≠ x →
        Next (.tableWrite b p) s (starts 0 (.writePage x p.val) (change 1)) ∧
        Next (.tableRead b p) s (starts 1 (.readPage x p.val) []) ∧
        Next (.tableErase b) s (starts 5 (.eraseSlot x 0) (change 0)) ∧
        (recSt s.tbl.rec_ x ∈ [1, 2, 6] → Next (.tableVerify b) s (starts 2 (.load x 0) [])) ∧
        (recSt s.tbl.rec_ x ∉ [1, 2, 6] → Next (.tableVerify b) s (ends .notReady)) ∧
        (recSt s.tbl.rec_ x = 2 → Next (.tableActivate b) s (starts 3 (.load x 0) [])) ∧
        (recSt s.tbl.rec_ x ≠ 2 → Next (.tableActivate b) s (ends .notReady))) ∧
      (s.tbl.origin = 1 → s.tbl.runB = x → 8 ≤ s.bup.reported →
        let r : SlotRec := { recPut s.tbl.rec_ x 5 with active := x, seq := s.tbl.rec_.seq + 1 }
        Next (.tableConfirm b) s (starts 4 (.recErase r) [.recWrite r, .svnAdvance (BitVec.ofNat 16 (regFld s (0xD0020 + if x then 8 else 0) 16 16))])) ∧
      ((s.tbl.origin ≠ 1 ∨ s.tbl.runB ≠ x ∨ s.bup.reported < 8) → Next (.tableConfirm b) s (ends .notReady)))

/-- Without a command an answer changes nothing. In a page read or written, an erase and the writing of the record a result other than done ends the command with ADDR_RANGE and the record, its copy and every register as they were; a counter that is not advanced leaves a CONFIRM as it is (log 124). A page read lands in the buffer word by word; a page erased is followed by the next of the slot. The record changes when the write of the copy that is not current is done, and that copy is then the current one; a WRITE or ERASE that so ends leaves TBL_SLOT 0. In a check the pages of the image are read one after the other, the store makes its own checks, and VERIFY follows; a page that cannot be read is DETAIL 8, a refused VERIFY 6, an SVN below the counter 7. An image that fails gives BAD_DESC with the code, and a VERIFY then makes the slot WRITTEN; one that passes makes it VERIFIED and loads TBL_SLOT, or makes it TRIAL. The counter never falls. -/
def Obligations.SecurityBlockAnswersCarryTheCommandOn : Prop :=
  ∀ (s : State) (res : BitVec 2) (words : List (BitVec 32)) (f : ImageFacts), Up s →
    let c : Instr := .secAck res words f
    let done (t : State) : Prop := t.tbl.done = true ∧ t.tbl.steps = [] ∧ t.out = s.out
    let goesOn (x : SecStep) (r : List SecStep) (t : State) : Prop := t.tbl.steps = x :: r ∧ t.tbl.done = s.tbl.done ∧ t.out = secOut t x :: s.out
    (s.tbl.steps = [] → Next c s (fun t => body t = body s)) ∧
    (∀ (x : SecStep) (r : List SecStep), s.tbl.steps = x :: r → (∀ b p, x ≠ .load b p) → (∀ b, x ≠ .verify b) → (∀ v, x ≠ .svnAdvance v) → res ≠ 0 →
      Next c s (fun t => done t ∧ t.tbl = { s.tbl with done := true, status := .addrRange, detail := 0, steps := [], work := [] } ∧ t.regs = s.regs)) ∧
    (∀ (b : Bool) (p : Nat), s.tbl.steps = [.readPage b p] → s.tbl.op = 1 → res = 0 → Next c s (fun t => done t ∧
      t.tbl = { s.tbl with done := true, steps := [], work := [] } ∧
      (∀ i, i < 512 → fld (regGet t (0xD1000 + i * 8)) 0 32 = (words.getD (2 * i) 0).toNat ∧
        fld (regGet t (0xD1000 + i * 8)) 32 32 = (words.getD (2 * i + 1) 0).toNat) ∧
      (∀ o, (∀ i, i < 512 → o ≠ 0xD1000 + i * 8) → regGet t o = regGet s o))) ∧
    (∀ (b : Bool) (p : Nat) (y : SecStep) (r : List SecStep), s.tbl.steps = .writePage b p :: y :: r → res = 0 →
      Next c s (fun t => goesOn y r t ∧ t.tbl.rec_ = s.tbl.rec_ ∧ t.regs = s.regs)) ∧
    (∀ (b : Bool) (p : Nat) (r : List SecStep), s.tbl.steps = .eraseSlot b p :: r → p < 1023 → res = 0 →
      Next c s (fun t => goesOn (.eraseSlot b (p + 1)) r t ∧ t.tbl.rec_ = s.tbl.rec_ ∧ t.regs = s.regs)) ∧
    (∀ (r : SlotRec) (q : List SecStep), s.tbl.steps = .recErase r :: .recWrite r :: q → res = 0 →
      Next c s (fun t => goesOn (.recWrite r) q t ∧ t.tbl.rec_ = s.tbl.rec_ ∧ t.tbl.copy = s.tbl.copy)) ∧
    (∀ r : SlotRec, s.tbl.steps = [.recWrite r] → res = 0 → Next c s (fun t => done t ∧ t.tbl.rec_ = r ∧ t.tbl.copy = 1 - s.tbl.copy ∧
      t.tbl.status = s.tbl.status ∧
      (s.tbl.status = .ok → s.tbl.op = 0 ∨ s.tbl.op = 5 → regGet t (0xD0020 + if s.tbl.slot then 8 else 0) = 0) ∧
      (s.tbl.op ≠ 0 → s.tbl.op ≠ 5 → t.regs = s.regs))) ∧
    (∀ (r : SlotRec) (v : BitVec 16), s.tbl.steps = [.recWrite r, .svnAdvance v] → res = 0 → Next c s (fun t =>
      goesOn (.svnAdvance v) [] t ∧ t.tbl.rec_ = r ∧ t.tbl.copy = 1 - s.tbl.copy)) ∧
    (∀ v : BitVec 16, s.tbl.steps = [.svnAdvance v] → s.tbl.op = 4 → Next c s (fun t => done t ∧ t.tbl.rec_ = s.tbl.rec_ ∧ t.tbl.status = s.tbl.status ∧
      (res = 0 → regFld t 0xD0030 0 16 = max (regFld s 0xD0030 0 16) v.toNat) ∧ (res ≠ 0 → t.regs = s.regs))) ∧
    (let x := s.tbl.slot
     let all := s.tbl.work ++ pageBytes words
     let more (p : Nat) : Prop := p + 1 < imgPages all f.pages
     let next (n : Nat) : SlotRec := { recPut s.tbl.rec_ x n with seq := s.tbl.rec_.seq + 1 }
     let changes (n : Nat) (t : State) : Prop := goesOn (.recErase (next n)) [.recWrite (next n)] t
     let ended (d : Nat) (t : State) : Prop := done t ∧ t.tbl.status = .badDesc ∧ t.tbl.detail = d ∧ t.tbl.rec_ = s.tbl.rec_ ∧ t.regs = s.regs
     let fails (d : Nat) : Prop := (s.tbl.op = 3 → Next c s (ended d)) ∧ (s.tbl.op = 2 → recSt s.tbl.rec_ x = 1 → Next c s (ended d)) ∧
       (s.tbl.op = 2 → recSt s.tbl.rec_ x ≠ 1 → Next c s (fun t => changes 1 t ∧ t.tbl.status = .badDesc ∧ t.tbl.detail = d))
     (∀ (b : Bool) (p : Nat), s.tbl.steps = [.load b p] →
       (res ≠ 0 → fails 8) ∧
       (res = 0 → more p → Next c s (fun t => goesOn (.load b (p + 1)) [] t ∧ t.tbl.work = all ∧ t.tbl.rec_ = s.tbl.rec_ ∧ t.regs = s.regs)) ∧
       (res = 0 → ¬ more p → contentCheck all f = 0 → Next c s (fun t => goesOn (.verify b) [] t ∧ t.tbl.work = all ∧ t.tbl.rec_ = s.tbl.rec_ ∧ t.regs = s.regs)) ∧
       (res = 0 → ¬ more p → contentCheck all f ≠ 0 → fails (contentCheck all f))) ∧
     (∀ b : Bool, s.tbl.steps = [.verify b] →
       let old := imgSvn s.tbl.work < regFld s 0xD0030 0 16
       let loaded (t : State) : Prop := regGet t (0xD0020 + if x then 8 else 0) =
         mk 32 32 (imgVersion s.tbl.work) ||| mk 16 16 (imgSvn s.tbl.work) ||| mk 0 11 ((imgLen s.tbl.work + 4095) / 4096)
       (res = 1 → fails 6) ∧ (2 ≤ res.toNat → fails 8) ∧ (res = 0 → old → fails 7) ∧
       (res = 0 → ¬ old → s.tbl.op = 3 → recSt s.tbl.rec_ x = 2 → Next c s (fun t => changes 3 t ∧ t.tbl.status = s.tbl.status ∧ t.regs = s.regs)) ∧
       (res = 0 → ¬ old → s.tbl.op = 2 → recSt s.tbl.rec_ x = 2 → Next c s (fun t => done t ∧ loaded t ∧ t.tbl.status = s.tbl.status)) ∧
       (res = 0 → ¬ old → s.tbl.op = 2 → recSt s.tbl.rec_ x ≠ 2 → Next c s (fun t => changes 2 t ∧ loaded t ∧ t.tbl.status = s.tbl.status))))

/-- A write of OBS_CTL with SNAP keeps every tally and TIME, without it the old snapshot stays. One that would start trace on a bad bank list has no effect and raises WRITE_REFUSED; one that starts it zeroes WR and RD, one that ends it discards what the sources hold. RD takes a value no further on than WR and no other. The oldest record of a source joins the staging, a LOSS record first where the unit has dropped some; with 512 staged it is dropped and counted, a LOSS record with its count (log 70); with CAP 0 it stays. A MARK completes when its record is staged, or discarded as trace ends. The flush takes up to 128 staged records, one less where a LOSS record goes ahead of them, 10 microseconds after the oldest where fewer are staged; one record with room lands in the 32 bytes of its index and WR counts on, with a full buffer it is dropped and counted and no memory changes. -/
def Obligations.TraceAndSnapshotsRunByTheirControl : Prop :=
  ∀ s : State, Up s →
    let noMark : Prop := ∀ p ∈ s.host.descs, ∀ d, p.2 = some d → dOp d.raw ≠ opMark ∨ d.phase ≠ .running
    let marks (k : StandId) (id : Nat) (d : DescSt) : Prop := s.host.descs = [(id, some d)] ∧ d.phase = .running ∧ dOp d.raw = opMark ∧ d.acc = .port k ∧
      d.chain = none ∧ d.unack = 0 ∧ d.items = [] ∧ d.unknown = false ∧ portLossy s k = false ∧ dTally d.raw = false ∧ csSv d.raw = false ∧
      regBit s 0xC0020 56 = false
    (∀ (v : Word) (c : Instr), MgServed s 0xC0000 → c = .tallySnapshot v ∨ c = .traceEnable v →
      let was := regBit s 0xC0000 63
      let taken := bitAt v 63 = false ∨ was = true ∨ traceRefused s = false
      (¬ taken → Next c s (fun t => t.obs = s.obs ∧ t.regs = s.regs ∧ t.out = s.out ∧ t.flt.inbox = s.flt.inbox ++ [⟨9, 0, 49, 0, 0xC0000⟩])) ∧
      (taken → (bitAt v 63 = true ∨ was = false ∨ noMark) → Next c s (fun t => regGet t 0xC0000 = regNext s allBits 0xC0000 v ∧ t.flt = s.flt ∧ t.obs.stage = s.obs.stage ∧
        (bitAt v 62 = true → t.obs.snapTime = BitVec.ofNat 64 s.time ∧ ∀ o ∈ tallyOffs, cget 0 t.obs.snap o = regGet s o) ∧
        (bitAt v 62 = false → t.obs.snapTime = s.obs.snapTime ∧ t.obs.snap = s.obs.snap) ∧
        (bitAt v 63 = true → was = false → t.obs.wr = 0 ∧ regFld t 0xC0028 0 32 = 0 ∧ t.obs.hold = s.obs.hold ∧ t.out.head? = some (.rhz (.traceOn true))) ∧
        (bitAt v 63 = false → was = true → t.obs.hold = [] ∧ t.obs.srcDrop = [] ∧ t.obs.wr = s.obs.wr ∧ t.out.head? = some (.rhz (.traceOn false))) ∧
        (bitAt v 63 = was → t.obs.wr = s.obs.wr ∧ t.obs.hold = s.obs.hold ∧ (∀ o, o ≠ 0xC0000 → regGet t o = regGet s o))))) ∧
    (∀ v : Word, MgServed s 0xC0028 →
      let new := BitVec.ofNat 32 (fld v 0 32)
      let old := BitVec.ofNat 32 (regFld s 0xC0028 0 32)
      ((new - old).toNat ≤ (s.obs.wr - old).toNat → Next (.traceReadPointerWrite v) s (fun t => regFld t 0xC0028 0 32 = new.toNat ∧
        (∀ o, o ≠ 0xC0028 → regGet t o = regGet s o) ∧ t.obs = s.obs)) ∧
      ((s.obs.wr - old).toNat < (new - old).toNat → Next (.traceReadPointerWrite v) s (fun t => t.regs = s.regs ∧ t.obs = s.obs))) ∧
    (∀ u : BitVec 8, (cget [] s.obs.hold u.toNat = [] ∨ s.obs.dump ≠ .idle ∨ regFld s 0xC0000 56 2 = 0) → Next (.traceRecordReceive u) s (fun t => body t = body s)) ∧
    (∀ (k : StandId) (id : Nat) (d : DescSt) (q : List (List Byte)), marks k id d →
      (cget [] s.obs.hold k.val = blazeOf d d.start :: q → s.obs.dump = .idle → regFld s 0xC0000 56 2 ≠ 0 →
        Next (.traceRecordReceive (BitVec.ofNat 8 k.val)) s (fun t => RecordSent s t k d .ok 0 0 ∧ descAt t id = none ∧ cget [] t.obs.hold k.val = q)) ∧
      (∀ v : Word, s.obs.hold = [(k.val, [blazeOf d d.start])] → MgServed s 0xC0000 → regBit s 0xC0000 63 = true → bitAt v 63 = false →
        Next (.traceEnable v) s (fun t => RecordSent s t k d .ok 0 0 ∧ descAt t id = none ∧ t.obs.hold = []))) ∧
    (∀ (u : BitVec 8) (r : List Byte) (q : List (List Byte)), cget [] s.obs.hold u.toNat = r :: q → s.obs.dump = .idle → regFld s 0xC0000 56 2 ≠ 0 → noMark →
      let d := s.obs.unitDrop
      (s.obs.stage.length < 512 → d.n = 0 → Next (.traceRecordReceive u) s (fun t => t.obs.stage = s.obs.stage ++ [r] ∧
        cget [] t.obs.hold u.toNat = q ∧ t.obs.unitDrop = d ∧ t.regs = s.regs)) ∧
      (s.obs.stage.length < 511 → d.n ≠ 0 → Next (.traceRecordReceive u) s (fun t => t.obs.stage = s.obs.stage ++ [lossRecord d.since 49 d.n 1, r] ∧
        cget [] t.obs.hold u.toNat = q ∧ t.obs.unitDrop = ⟨0, 0⟩ ∧ t.regs = s.regs)) ∧
      (512 ≤ s.obs.stage.length → Next (.traceRecordReceive u) s (fun t => t.obs.stage = s.obs.stage ∧ cget [] t.obs.hold u.toNat = q ∧
        (leAt r 8 1 ≠ 3 → t.obs.unitDrop = ⟨d.n + 1, if d.n = 0 then s.time else d.since⟩) ∧
        (leAt r 8 1 = 3 → t.obs.unitDrop = ⟨d.n + leAt r 24 4, if d.n = 0 then leAt r 0 8 else min d.since (leAt r 0 8)⟩) ∧ regFld t 0xC0030 32 32 = satAdd 32 (regFld s 0xC0030 32 32) 1))) ∧
    ((s.obs.stage = [] ∨ s.obs.dump ≠ .idle) → Next .traceStagingFlush s (fun t => body t = body s)) ∧
    (s.obs.stage ≠ [] → s.obs.dump = .idle → Next .traceStagingFlush s (fun t => t.obs.stage = s.obs.stage.drop (if s.obs.bufDrop.n = 0 then 128 else 127) ∧ t.obs.hold = s.obs.hold ∧
      (s.obs.stage.length < 128 → t.time = max s.time (s.obs.stageAt + 10000)) ∧ (128 ≤ s.obs.stage.length → t.time = s.time))) ∧
    (∀ r : List Byte, s.obs.stage = [r] → s.obs.dump = .idle → r.length = 32 →
      let x := trcPlace s (trcCap s) s.obs.wr.toNat
      (trcRoom s = true → s.obs.bufDrop.n = 0 → Next .traceStagingFlush s (fun t => memBytes t x.1 x.2.1 x.2.2 32 = r ∧ t.obs.wr = s.obs.wr + 1 ∧
        t.obs.stage = [] ∧ (∀ (st : StandId) (b i : Nat), i < 2 ^ 21 → (bankNo st.val b ≠ bankNo x.1 x.2.1 ∨ i < x.2.2 ∨ x.2.2 + 32 ≤ i) →
          memByte t st.val b i = memByte s st.val b i))) ∧
      (trcCap s ≠ 0 → trcCap s ≤ trcFill s → Next .traceStagingFlush s (fun t => t.slice = s.slice ∧ t.obs.wr = s.obs.wr ∧ t.obs.stage = [] ∧
        t.obs.bufDrop.n = s.obs.bufDrop.n + (if leAt r 8 1 = 3 then leAt r 24 4 else 1) ∧ regFld t 0xC0030 32 32 = satAdd 32 (regFld s 0xC0030 32 32) 1)))

/-- Without GO a write does nothing. GO outside IDLE, or with a bad list of DUMP banks, is refused with WRITE_REFUSED, and sets REFUSED; else the state is FREEZING and FREEZE goes out. A unit that FREEZE reaches writes its area's header, is frozen from then on, and with the last of 49 the state is CAPTURING; a girdled stand's area is 0 after its header; a second FREEZE changes nothing. The completion gives FROZEN with its duration. A low-word read of OBS_DUMP_DATA gives the word at OFF and moves OFF one word on, within 256 KiB of an area, or within the trace buffer while trace is off; a reserved AREA, or the trace buffer while trace runs, reads 0 and moves nothing; a bank in retention is woken by it. Before FROZEN the bytes of an area are free (log 4). -/
def Obligations.ADumpFreezesCapturesAndIsRead : Prop :=
  ∀ s : State, Up s →
    (∀ v : Word, MgServed s 0xC0800 →
      (bitAt v 63 = false → Next (.dumpGo v) s (fun t => t.obs = s.obs ∧ t.regs = s.regs ∧ t.out = s.out ∧ t.flt = s.flt)) ∧
      (bitAt v 63 = true → s.obs.dump = .idle → bankListBad s 0xC0840 7 5 = false → Next (.dumpGo v) s (fun t =>
        t.obs = { s.obs with dump := .freezing, refused := false, dumpAt := s.time, areas := [] } ∧ t.out = .rhz .freeze :: s.out ∧ t.flt = s.flt ∧ t.regs = s.regs)) ∧
      (bitAt v 63 = true → (s.obs.dump ≠ .idle ∨ bankListBad s 0xC0840 7 5 = true) → Next (.dumpGo v) s (fun t =>
        t.obs = { s.obs with refused := true } ∧ t.out = s.out ∧ t.regs = s.regs ∧ t.flt.inbox = s.flt.inbox ++ [⟨9, 0, 49, 0, 0xC0800⟩]))) ∧
    (∀ a : Fin 49,
      let x := areaPlace s a.val
      ((s.obs.dump ≠ .freezing ∨ a.val ∈ s.obs.areas) → Next (.dumpFreeze a) s (fun t => body t = body s)) ∧
      (s.obs.dump = .freezing → a.val ∉ s.obs.areas → Next (.dumpFreeze a) s (fun t =>
        t.obs = { s.obs with areas := a.val :: s.obs.areas, dump := if s.obs.areas.length = 48 then .capturing else .freezing } ∧ frozenAt t a.val = true ∧
        memBytes t x.1 x.2.1 x.2.2 64 = areaHeader s a.val (decide (a.val < 48) && girdled s a.val) ∧
        (a.val < 48 → girdled s a.val = true → t.free = s.free ∧ ∀ i, 64 ≤ i → i < 0x40000 → memByte t x.1 x.2.1 (x.2.2 + i) = 0)))) ∧
    (s.obs.dump = .capturing → Next .dumpCaptureComplete s (fun t =>
      t.obs = { s.obs with dump := .frozen, durUs := min (2 ^ 32 - 1) ((s.time - s.obs.dumpAt) / 1000) } ∧ t.slice = s.slice)) ∧
    (s.obs.dump ≠ .capturing → Next .dumpCaptureComplete s (fun t => body t = body s)) ∧
    (MgServed s 0xC0888 →
      let area := regFld s 0xC0880 48 6
      let off := regFld s 0xC0880 3 21 * 8
      let moved (n own : Nat) (t : State) : Prop := regFld t 0xC0880 3 21 = (off % n + 8) % n / 8 ∧ regFld t 0xC0880 48 6 = area ∧
        (∀ o, o ≠ 0xC0880 → (o = own → ownRstate (regGet s own) = 0) → regGet t o = regGet s o) ∧ t.mg.err = false
      let read (st b byte : Nat) (t : State) : Prop := t.mg.rdata = BitVec.ofNat 32 (leNat (memBytes s st b byte 4)) ∧
        t.mg.snap = some (0xC0888, BitVec.ofNat 64 (leNat (memBytes s st b byte 8)))
      (area ≤ 48 → s.obs.dump = .frozen → Next .dumpDataRead s (fun t => moved 0x40000 (ownOff (areaPlace s area).1 (areaPlace s area).2.1) t ∧
        read (areaPlace s area).1 (areaPlace s area).2.1 ((areaPlace s area).2.2 + off % 0x40000) t ∧ t.free = s.free)) ∧
      (area ≤ 48 → s.obs.dump ≠ .frozen → Next .dumpDataRead s (fun t => moved 0x40000 0xC0880 t ∧ t.free = s.free + 8)) ∧
      (area = 63 → regBit s 0xC0000 63 = false → (s.obs.dump = .idle ∨ s.obs.dump = .frozen) → trcCap s ≠ 0 → Next .dumpDataRead s (fun t =>
        let p := trcPlace s (trcCap s) (off % (trcCap s * 32) / 32)
        moved (trcCap s * 32) (ownOff p.1 p.2.1) t ∧ read p.1 p.2.1 (p.2.2 + off % 32) t)) ∧
      ((48 < area ∧ area < 63) ∨ (area = 63 ∧ (regBit s 0xC0000 63 = true ∨ s.obs.dump = .freezing ∨ s.obs.dump = .capturing)) →
        Next .dumpDataRead s (fun t => t.regs = s.regs ∧ t.mg.rdata = 0 ∧ t.mg.err = false)))

/-- For every state whose memory is in its canonical form (keys strictly rising, no byte listed that reads as an unlisted one), whatever command is at the front of the queue, the step's next state has its memory in that form. The form is the model's (log 5); the rules cited are those of the memory it holds. -/
def Obligations.EveryStepKeepsTheMemoryForm : Prop :=
  ∀ s t : State, Memory.wf s.slice.mem = true → step s = .next t → Memory.wf t.slice.mem = true

/-- Between two steps (no report of an earlier one outstanding), whatever next state one of these commands answers, it differs from the state before in the named parts alone, beside the management port, TIME and the outstanding reports: a command whose list has no slice leaves every byte of memory, and its parts of the step unnamed are as they were. Where contexts is said, every byte outside the ring contexts is unchanged too. -/
def Obligations.FramesOfFabricAndTenantCommands : Prop :=
  ∀ (s t : State) (c : Instr), s.todo = [] → exec c s = .next t →
    let contexts : Prop := ∀ (st : StandId) (b i : Nat), b < 35 → i < 2 ^ 21 → (b ≠ dpBank ∨ inCtxArea s st.val i 1 = false) →
      memByte t st.val b i = memByte s st.val b i
    match c with
    | .tierMapStagedWrite .. =>
      t = { rest s t with banked := t.banked }
    | .flipAck .. | .epochDrainComplete .. =>
      t = { rest s t with epoch := t.epoch }
    | .rehomeCommandReceive .. =>
      t = { rest s t with map := t.map }
    | .glbSelfWrite .. | .doorbellBaseWrite .. =>
      t = { rest s t with regs := t.regs }
    | .dpZeroComplete .. =>
      t = { rest s t with slice := t.slice }
    | .tenantAdmit .. | .tenantPeek .. | .tenantShapeWrite .. | .tenantPoliceWrite .. =>
      t = { rest s t with tnt := t.tnt }
    | .stdRouteWrite .. | .glbExitWrite .. =>
      t = { rest s t with banked := t.banked, flt := t.flt }
    | .creditReturn .. =>
      t = { rest s t with brg := t.brg, mesh := t.mesh }
    | .fabPorstNRelease .. =>
      t = { rest s t with bup := t.bup, pwr := t.pwr }
    | .memoryTestMarchComplete .. | .memoryTestRetentionPauseEnd .. =>
      t = { rest s t with bup := t.bup, regs := t.regs }
    | .epochDrainTimeout .. =>
      t = { rest s t with epoch := t.epoch, flt := t.flt }
    | .flipReceive .. =>
      t = { rest s t with epoch := t.epoch, out := t.out }
    | .stallDetect .. =>
      t = { rest s t with flt := t.flt, mesh := t.mesh }
    | .shareMapWrite .. =>
      t = { rest s t with mesh := t.mesh, out := t.out, regs := t.regs }
    | .epochSwitchRequest .. =>
      t = { rest s t with banked := t.banked, epoch := t.epoch, flt := t.flt, out := t.out }
    | .memoryTestTierReport .. =>
      t = { rest s t with bup := t.bup, map := t.map, out := t.out, regs := t.regs }
    | .creditAuditCounts .. =>
      t = { rest s t with epoch := t.epoch, flt := t.flt, mesh := t.mesh, out := t.out }
    | .coppiceWrite .. =>
      t = { rest s t with flt := t.flt, map := t.map, out := t.out, regs := t.regs }
    | .corePortBindWrite .. =>
      t = { rest s t with flt := t.flt, regs := t.regs, slice := t.slice, tnt := t.tnt }
    | .epochCopyComplete .. =>
      t = { rest s t with banked := t.banked, dorm := t.dorm, epoch := t.epoch, flt := t.flt, out := t.out }
    | .channelSlotWrite .. =>
      t = { rest s t with chan := t.chan, flt := t.flt, host := t.host, out := t.out, regs := t.regs }
    | .ackTimer .. =>
      t = { rest s t with dorm := t.dorm, epoch := t.epoch, out := t.out, regs := t.regs, trans := t.trans }
    | .releaseWordAccess .. =>
      t = { rest s t with chan := t.chan, epoch := t.epoch, flt := t.flt, out := t.out, regs := t.regs, slice := t.slice }
    | .bupNotifyEnable .. | .ringOpen .. | .ringClose .. | .ringPeek .. | .sqTailDoorbell .. | .cqHeadDoorbell ..
      | .descriptorFetch .. =>
      t = { rest s t with dorm := t.dorm, host := t.host, out := t.out, pwr := t.pwr, regs := t.regs, slice := t.slice } ∧ contexts
    | .frondReceive .. =>
      t = { rest s t with dorm := t.dorm, epoch := t.epoch, flt := t.flt, mesh := t.mesh, out := t.out, regs := t.regs, trans := t.trans }
    | .tenantRetire .. =>
      t = { rest s t with dorm := t.dorm, host := t.host, out := t.out, pwr := t.pwr, regs := t.regs, slice := t.slice, tnt := t.tnt } ∧ contexts
    | .outputArbitrate .. =>
      t = { rest s t with brg := t.brg, dorm := t.dorm, epoch := t.epoch, flt := t.flt, hall := t.hall, mesh := t.mesh, out := t.out, pwr := t.pwr, regs := t.regs, tnt := t.tnt, trans := t.trans }
    | .transportAckReceive .. | .responseReceive .. | .messageTimeout .. | .retransmitTimeout .. | .implicitSlotFree ..
      | .hostMemoryReadCompletion .. =>
      t = { rest s t with all := t.all, dorm := t.dorm, epoch := t.epoch, flt := t.flt, free := t.free, host := t.host, mc := t.mc, obs := t.obs, out := t.out, port := t.port, pwr := t.pwr, red := t.red, regs := t.regs, slice := t.slice, sync := t.sync, trans := t.trans }
    | .shaperDispatch .. =>
      t = { rest s t with all := t.all, dorm := t.dorm, epoch := t.epoch, flt := t.flt, free := t.free, host := t.host, mc := t.mc, obs := t.obs, out := t.out, port := t.port, pwr := t.pwr, red := t.red, regs := t.regs, slice := t.slice, sync := t.sync, tnt := t.tnt, trans := t.trans }
    | .messageArrival .. =>
      t = { rest s t with all := t.all, chan := t.chan, dorm := t.dorm, epoch := t.epoch, flt := t.flt, free := t.free, host := t.host, mc := t.mc, mesh := t.mesh, obs := t.obs, out := t.out, port := t.port, pwr := t.pwr, red := t.red, regs := t.regs, slice := t.slice, sync := t.sync, trans := t.trans }
    | .s1LivenessDeadline .. =>
      t = { rest s t with all := t.all, bup := t.bup, dorm := t.dorm, epoch := t.epoch, flt := t.flt, free := t.free, host := t.host, map := t.map, mc := t.mc, obs := t.obs, out := t.out, port := t.port, pwr := t.pwr, red := t.red, regs := t.regs, slice := t.slice, sync := t.sync, tnt := t.tnt, trans := t.trans }
    | .bringupStageReport .. =>
      t = { rest s t with all := t.all, brg := t.brg, bup := t.bup, dorm := t.dorm, epoch := t.epoch, flt := t.flt, free := t.free, host := t.host, map := t.map, mc := t.mc, mesh := t.mesh, obs := t.obs, out := t.out, port := t.port, pwr := t.pwr, red := t.red, regs := t.regs, slice := t.slice, sync := t.sync, tbl := t.tbl, tnt := t.tnt, trans := t.trans }
    | _ => True

/-- Between two steps (no report of an earlier one outstanding), whatever next state one of these commands answers, it differs from the state before in the named parts alone, beside the management port, TIME and the outstanding reports: a command whose list has no slice leaves every byte of memory, and its parts of the step unnamed are as they were. Where contexts is said, every byte outside the ring contexts is unchanged too. -/
def Obligations.FramesOfWorkAndCollectiveCommands : Prop :=
  ∀ (s t : State) (c : Instr), s.todo = [] → exec c s = .next t →
    let contexts : Prop := ∀ (st : StandId) (b i : Nat), b < 35 → i < 2 ^ 21 → (b ≠ dpBank ∨ inCtxArea s st.val i 1 = false) →
      memByte t st.val b i = memByte s st.val b i
    match c with
    | .mcast .. =>
      t = { rest s t with host := t.host }
    | .reducerTestArm .. =>
      t = { rest s t with red := t.red }
    | .chainWrite .. | .memberSlotWrite .. =>
      t = { rest s t with flt := t.flt, regs := t.regs }
    | .combiningQueueWrite .. =>
      t = { rest s t with flt := t.flt, red := t.red, regs := t.regs }
    | .holdingRecordWrite .. =>
      t = { rest s t with dorm := t.dorm, host := t.host, out := t.out, pwr := t.pwr, regs := t.regs, slice := t.slice }
    | .mark .. | .fence .. | .fenceRelease .. =>
      t = { rest s t with dorm := t.dorm, epoch := t.epoch, host := t.host, obs := t.obs, out := t.out, port := t.port, pwr := t.pwr, regs := t.regs, slice := t.slice } ∧ contexts
    | .armDisarm .. =>
      t = { rest s t with all := t.all, dorm := t.dorm, epoch := t.epoch, host := t.host, obs := t.obs, out := t.out, port := t.port, pwr := t.pwr, regs := t.regs, slice := t.slice, sync := t.sync } ∧ contexts
    | .mcastReportReceive .. | .mcastReportTimeout .. =>
      t = { rest s t with dorm := t.dorm, epoch := t.epoch, free := t.free, host := t.host, mc := t.mc, obs := t.obs, out := t.out, port := t.port, pwr := t.pwr, regs := t.regs, slice := t.slice }
    | .descriptorAccept .. =>
      t = { rest s t with dorm := t.dorm, epoch := t.epoch, flt := t.flt, free := t.free, host := t.host, obs := t.obs, out := t.out, port := t.port, pwr := t.pwr, regs := t.regs, slice := t.slice, sync := t.sync, tnt := t.tnt }
    | .send .. | .signal .. | .wait .. | .atomic .. | .group .. | .allsum .. | .arm .. | .groupRunResume .. | .triggerReceive ..
      | .workItemReceive .. | .mcastDispatch .. | .landingWriteComplete .. | .combiningTimeout .. | .allsumLossWaitExpiry ..
      | .allsumResultAbandon .. =>
      t = { rest s t with all := t.all, dorm := t.dorm, epoch := t.epoch, flt := t.flt, free := t.free, host := t.host, mc := t.mc, obs := t.obs, out := t.out, port := t.port, pwr := t.pwr, red := t.red, regs := t.regs, slice := t.slice, sync := t.sync, trans := t.trans }
    | .copy .. | .fill .. =>
      t = { rest s t with all := t.all, dorm := t.dorm, epoch := t.epoch, flt := t.flt, free := t.free, host := t.host, mc := t.mc, obs := t.obs, out := t.out, port := t.port, pwr := t.pwr, red := t.red, regs := t.regs, slice := t.slice, sync := t.sync, tnt := t.tnt, trans := t.trans }
    | .mcastReceive .. | .contributionReceive .. | .tileReceive .. | .stageMessageReceive .. =>
      t = { rest s t with all := t.all, chan := t.chan, dorm := t.dorm, epoch := t.epoch, flt := t.flt, free := t.free, host := t.host, mc := t.mc, mesh := t.mesh, obs := t.obs, out := t.out, port := t.port, pwr := t.pwr, red := t.red, regs := t.regs, slice := t.slice, sync := t.sync, trans := t.trans }
    | _ => True

/-- Between two steps (no report of an earlier one outstanding), whatever next state one of these commands answers, it differs from the state before in the named parts alone, beside the management port, TIME and the outstanding reports: a command whose list has no slice leaves every byte of memory, and its parts of the step unnamed are as they were. Where contexts is said, every byte outside the ring contexts is unchanged too. -/
def Obligations.FramesOfSliceSyncAndPortCommands : Prop :=
  ∀ (s t : State) (c : Instr), s.todo = [] → exec c s = .next t →
    let contexts : Prop := ∀ (st : StandId) (b i : Nat), b < 35 → i < 2 ^ 21 → (b ≠ dpBank ∨ inCtxArea s st.val i 1 = false) →
      memByte t st.val b i = memByte s st.val b i
    match c with
    | .sidebandResend .. =>
      t = { rest s t with out := t.out }
    | .bankRetentionEntered .. | .bankWakeComplete .. | .sliceModeWrite .. =>
      t = { rest s t with regs := t.regs }
    | .watchRelease .. =>
      t = { rest s t with sync := t.sync }
    | .dormancyIdleExpiry .. =>
      t = { rest s t with dorm := t.dorm, out := t.out } ∧ contexts
    | .dormancyCommit .. =>
      t = { rest s t with dorm := t.dorm, regs := t.regs }
    | .resyncTimeout .. =>
      t = { rest s t with flt := t.flt, port := t.port }
    | .bankHandover .. | .bankRetWrite .. =>
      t = { rest s t with flt := t.flt, regs := t.regs }
    | .coreResetRelease .. =>
      t = { rest s t with out := t.out, port := t.port }
    | .dormancyVoteTimeout .. =>
      t = { rest s t with dorm := t.dorm, out := t.out, regs := t.regs }
    | .bankWipeComplete .. =>
      t = { rest s t with dorm := t.dorm, regs := t.regs, slice := t.slice }
    | .hangDetect .. =>
      t = { rest s t with flt := t.flt, port := t.port, regs := t.regs }
    | .scrubRead .. =>
      t = { rest s t with flt := t.flt, regs := t.regs, slice := t.slice }
    | .portFabricReset .. =>
      t = { rest s t with out := t.out, port := t.port, regs := t.regs }
    | .dormancyNow .. | .dormancyWakeWrite .. | .dormancyVote .. | .dormancyEntryComplete .. | .dormancyExitStart .. =>
      t = { rest s t with dorm := t.dorm, out := t.out, pwr := t.pwr, regs := t.regs }
    | .rawRead .. | .rawWrite .. =>
      t = { rest s t with flt := t.flt, free := t.free, regs := t.regs, slice := t.slice }
    | .watchRegister .. =>
      t = { rest s t with out := t.out, regs := t.regs, slice := t.slice, sync := t.sync }
    | .trAnswer .. =>
      t = { rest s t with epoch := t.epoch, flt := t.flt, out := t.out, port := t.port, regs := t.regs }
    | .barrierRewrite .. =>
      t = { rest s t with flt := t.flt, out := t.out, port := t.port, regs := t.regs, sync := t.sync }
    | .sidebandUpdateReceive .. | .sidebandLoss .. =>
      t = { rest s t with brg := t.brg, flt := t.flt, out := t.out, port := t.port, regs := t.regs, sync := t.sync }
    | .twinFillComplete .. =>
      t = { rest s t with dorm := t.dorm, flt := t.flt, map := t.map, out := t.out, regs := t.regs, slice := t.slice }
    | .dormancyProposeReceive .. =>
      t = { rest s t with dorm := t.dorm, host := t.host, out := t.out, pwr := t.pwr, regs := t.regs, slice := t.slice } ∧ contexts
    | .barrierTimeout .. =>
      t = { rest s t with dorm := t.dorm, flt := t.flt, out := t.out, port := t.port, pwr := t.pwr, regs := t.regs, sync := t.sync }
    | .watchReport .. =>
      t = { rest s t with dorm := t.dorm, epoch := t.epoch, host := t.host, obs := t.obs, out := t.out, port := t.port, pwr := t.pwr, regs := t.regs, slice := t.slice, sync := t.sync } ∧ contexts
    | .signalApply .. | .syncObjectWrite .. | .syncControlWrite .. =>
      t = { rest s t with all := t.all, dorm := t.dorm, epoch := t.epoch, flt := t.flt, free := t.free, host := t.host, mc := t.mc, obs := t.obs, out := t.out, port := t.port, pwr := t.pwr, red := t.red, regs := t.regs, slice := t.slice, sync := t.sync, trans := t.trans }
    | .waitTimeout .. | .waitPoll .. | .barrierArrival .. | .dormancyExitComplete .. | .corePortDesc .. | .corePortWrite ..
      | .corePortRead .. | .corePortAtomic .. | .corePortSignal .. | .corePortReduce .. | .dlMessageTaken .. | .wakeAck ..
      | .coreResetAssert .. | .resyncAck .. =>
      t = { rest s t with all := t.all, dorm := t.dorm, epoch := t.epoch, flt := t.flt, free := t.free, host := t.host, mc := t.mc, obs := t.obs, out := t.out, port := t.port, pwr := t.pwr, red := t.red, regs := t.regs, slice := t.slice, sync := t.sync, tnt := t.tnt, trans := t.trans }
    | .nearPortAccess .. | .targetRequestReceive .. =>
      t = { rest s t with all := t.all, chan := t.chan, dorm := t.dorm, epoch := t.epoch, flt := t.flt, free := t.free, host := t.host, mc := t.mc, mesh := t.mesh, obs := t.obs, out := t.out, port := t.port, pwr := t.pwr, red := t.red, regs := t.regs, slice := t.slice, sync := t.sync, trans := t.trans }
    | _ => True

/-- Between two steps (no report of an earlier one outstanding), whatever next state one of these commands answers, it differs from the state before in the named parts alone, beside the management port, TIME and the outstanding reports: a command whose list has no slice leaves every byte of memory, and its parts of the step unnamed are as they were. -/
def Obligations.FramesOfCanopyFaultAndServiceCommands : Prop :=
  ∀ (s t : State) (c : Instr), s.todo = [] → exec c s = .next t →
    match c with
    | .mergeWindowClose .. | .eventRingEnable .. | .eventRingHeadWrite .. | .livenessMessage .. | .nodeLinkSilence ..
      | .heartbeatTick .. | .reducerSelfcheck .. =>
      t = { rest s t with flt := t.flt }
    | .hallLinkUp .. | .hallContextIdle .. =>
      t = { rest s t with hall := t.hall }
    | .dumpCaptureComplete .. =>
      t = { rest s t with obs := t.obs }
    | .helloSend .. | .livenessSend .. =>
      t = { rest s t with out := t.out }
    | .droopHandlingEnd .. | .pwrDroopWarnDeassert .. =>
      t = { rest s t with pwr := t.pwr }
    | .traceReadPointerWrite .. =>
      t = { rest s t with regs := t.regs }
    | .moduleTrainRetry .. =>
      t = { rest s t with brg := t.brg, out := t.out }
    | .hallLinkDown .. =>
      t = { rest s t with flt := t.flt, hall := t.hall }
    | .eventRingWrite .. =>
      t = { rest s t with flt := t.flt, out := t.out }
    | .pwrDroopWarnAssert .. =>
      t = { rest s t with flt := t.flt, pwr := t.pwr }
    | .faultClassWrite .. | .contingencyDataWrite .. | .contingencyKeyWrite .. =>
      t = { rest s t with flt := t.flt, regs := t.regs }
    | .hallSkipResend .. | .hallAckTimer .. =>
      t = { rest s t with hall := t.hall, out := t.out }
    | .hallPortEnableWrite .. =>
      t = { rest s t with hall := t.hall, regs := t.regs }
    | .tableWrite .. | .tableRead .. | .tableVerify .. | .tableActivate .. | .tableConfirm .. | .tableErase .. =>
      t = { rest s t with out := t.out, tbl := t.tbl }
    | .edgeRetrain .. =>
      t = { rest s t with brg := t.brg, out := t.out, regs := t.regs }
    | .eventPop .. | .dumpDataRead .. =>
      t = { rest s t with flt := t.flt, free := t.free, regs := t.regs }
    | .cruisePatternReceive .. =>
      t = { rest s t with flt := t.flt, mesh := t.mesh, out := t.out }
    | .dumpGo .. =>
      t = { rest s t with flt := t.flt, obs := t.obs, out := t.out }
    | .thermalThreshold .. | .brownout .. =>
      t = { rest s t with flt := t.flt, pwr := t.pwr, regs := t.regs }
    | .hallContextOpen .. | .hallOpenTimeout .. | .hallUnseqRetry .. =>
      t = { rest s t with hall := t.hall, out := t.out, regs := t.regs }
    | .secAck .. =>
      t = { rest s t with out := t.out, regs := t.regs, tbl := t.tbl }
    | .reroute .. =>
      t = { rest s t with banked := t.banked, epoch := t.epoch, flt := t.flt, out := t.out }
    | .bridgeAuditReceive .. =>
      t = { rest s t with epoch := t.epoch, flt := t.flt, mesh := t.mesh, out := t.out }
    | .hallOpen .. | .hallOpenAck .. | .hallAck .. | .hallRefuse .. | .hallRetransmitTimeout .. =>
      t = { rest s t with flt := t.flt, hall := t.hall, out := t.out, regs := t.regs }
    | .twinConfirm .. =>
      t = { rest s t with flt := t.flt, map := t.map, out := t.out, regs := t.regs }
    | .moduleRecalDone .. =>
      t = { rest s t with brg := t.brg, epoch := t.epoch, flt := t.flt, mesh := t.mesh, out := t.out }
    | .cruisePatternSend .. =>
      t = { rest s t with brg := t.brg, flt := t.flt, mesh := t.mesh, out := t.out, regs := t.regs }
    | .traceStagingFlush .. =>
      t = { rest s t with epoch := t.epoch, obs := t.obs, out := t.out, regs := t.regs, slice := t.slice }
    | .paceStep .. =>
      t = { rest s t with flt := t.flt, free := t.free, pwr := t.pwr, regs := t.regs, slice := t.slice }
    | .moduleRecalStart .. =>
      t = { rest s t with brg := t.brg, flt := t.flt, out := t.out, port := t.port, regs := t.regs, sync := t.sync }
    | .girdleRelease .. =>
      t = { rest s t with bup := t.bup, map := t.map, mesh := t.mesh, out := t.out, port := t.port, regs := t.regs }
    | .modulePhyUp .. | .moduleTrainFail .. | .helloReceive .. | .helloTimeout .. | .moduleRecalTimeout .. =>
      t = { rest s t with brg := t.brg, epoch := t.epoch, flt := t.flt, mesh := t.mesh, out := t.out, port := t.port, regs := t.regs, sync := t.sync }
    | .dumpFreeze .. =>
      t = { rest s t with dorm := t.dorm, free := t.free, host := t.host, obs := t.obs, out := t.out, pwr := t.pwr, regs := t.regs, slice := t.slice }
    | .girdleApply .. =>
      t = { rest s t with banked := t.banked, dorm := t.dorm, epoch := t.epoch, flt := t.flt, map := t.map, mesh := t.mesh, out := t.out, regs := t.regs, trans := t.trans }
    | .bridgeSlotReceive .. =>
      t = { rest s t with brg := t.brg, dorm := t.dorm, epoch := t.epoch, flt := t.flt, mesh := t.mesh, out := t.out, pwr := t.pwr, regs := t.regs, trans := t.trans }
    | .traceRecordReceive .. =>
      t = { rest s t with dorm := t.dorm, epoch := t.epoch, host := t.host, obs := t.obs, out := t.out, port := t.port, pwr := t.pwr, regs := t.regs, slice := t.slice }
    | .hallData .. | .hallSkip .. =>
      t = { rest s t with dorm := t.dorm, epoch := t.epoch, flt := t.flt, hall := t.hall, mesh := t.mesh, out := t.out, pwr := t.pwr, regs := t.regs, tnt := t.tnt, trans := t.trans }
    | .tallySnapshot .. | .traceEnable .. =>
      t = { rest s t with dorm := t.dorm, epoch := t.epoch, flt := t.flt, host := t.host, obs := t.obs, out := t.out, port := t.port, pwr := t.pwr, regs := t.regs, slice := t.slice }
    | .girdle .. =>
      t = { rest s t with all := t.all, dorm := t.dorm, epoch := t.epoch, flt := t.flt, free := t.free, host := t.host, map := t.map, mc := t.mc, obs := t.obs, out := t.out, port := t.port, pwr := t.pwr, red := t.red, regs := t.regs, slice := t.slice, sync := t.sync, tnt := t.tnt, trans := t.trans }
    | .standRetestComplete .. =>
      t = { rest s t with all := t.all, bup := t.bup, dorm := t.dorm, epoch := t.epoch, flt := t.flt, free := t.free, host := t.host, map := t.map, mc := t.mc, mesh := t.mesh, obs := t.obs, out := t.out, port := t.port, pwr := t.pwr, red := t.red, regs := t.regs, slice := t.slice, sync := t.sync, trans := t.trans }
    | .faultEvent .. =>
      t = { rest s t with all := t.all, brg := t.brg, dorm := t.dorm, epoch := t.epoch, flt := t.flt, free := t.free, hall := t.hall, host := t.host, map := t.map, mc := t.mc, mesh := t.mesh, obs := t.obs, out := t.out, port := t.port, pwr := t.pwr, red := t.red, regs := t.regs, slice := t.slice, sync := t.sync, tnt := t.tnt, trans := t.trans }
    | _ => True
end

