-- ==== Sys2Proof/Laws/State.lean ====
section
/-! SUPPORT. What each named update leaves alone: one lemma a field and update, so that no later proof unfolds a record update. -/

namespace Sys2Proof.Machine

variable (s : State)

@[simp] theorem regSet_time (off : Nat) (v : Word) : (regSet s off v).time = s.time := rfl
@[simp] theorem regSet_mg (off : Nat) (v : Word) : (regSet s off v).mg = s.mg := rfl
@[simp] theorem regSet_banked (off : Nat) (v : Word) : (regSet s off v).banked = s.banked := rfl
@[simp] theorem regSet_epoch (off : Nat) (v : Word) : (regSet s off v).epoch = s.epoch := rfl
@[simp] theorem regSet_map (off : Nat) (v : Word) : (regSet s off v).map = s.map := rfl
@[simp] theorem regSet_mesh (off : Nat) (v : Word) : (regSet s off v).mesh = s.mesh := rfl
@[simp] theorem regSet_trans (off : Nat) (v : Word) : (regSet s off v).trans = s.trans := rfl
@[simp] theorem regSet_tnt (off : Nat) (v : Word) : (regSet s off v).tnt = s.tnt := rfl
@[simp] theorem regSet_host (off : Nat) (v : Word) : (regSet s off v).host = s.host := rfl
@[simp] theorem regSet_chan (off : Nat) (v : Word) : (regSet s off v).chan = s.chan := rfl
@[simp] theorem regSet_port (off : Nat) (v : Word) : (regSet s off v).port = s.port := rfl
@[simp] theorem regSet_slice (off : Nat) (v : Word) : (regSet s off v).slice = s.slice := rfl
@[simp] theorem regSet_brg (off : Nat) (v : Word) : (regSet s off v).brg = s.brg := rfl
@[simp] theorem regSet_mc (off : Nat) (v : Word) : (regSet s off v).mc = s.mc := rfl
@[simp] theorem regSet_red (off : Nat) (v : Word) : (regSet s off v).red = s.red := rfl
@[simp] theorem regSet_all (off : Nat) (v : Word) : (regSet s off v).all = s.all := rfl
@[simp] theorem regSet_sync (off : Nat) (v : Word) : (regSet s off v).sync = s.sync := rfl
@[simp] theorem regSet_dorm (off : Nat) (v : Word) : (regSet s off v).dorm = s.dorm := rfl
@[simp] theorem regSet_obs (off : Nat) (v : Word) : (regSet s off v).obs = s.obs := rfl
@[simp] theorem regSet_flt (off : Nat) (v : Word) : (regSet s off v).flt = s.flt := rfl
@[simp] theorem regSet_bup (off : Nat) (v : Word) : (regSet s off v).bup = s.bup := rfl
@[simp] theorem regSet_pwr (off : Nat) (v : Word) : (regSet s off v).pwr = s.pwr := rfl
@[simp] theorem regSet_tbl (off : Nat) (v : Word) : (regSet s off v).tbl = s.tbl := rfl
@[simp] theorem regSet_hall (off : Nat) (v : Word) : (regSet s off v).hall = s.hall := rfl
@[simp] theorem regSet_free (off : Nat) (v : Word) : (regSet s off v).free = s.free := rfl
@[simp] theorem regSet_out (off : Nat) (v : Word) : (regSet s off v).out = s.out := rfl
@[simp] theorem regSet_todo (off : Nat) (v : Word) : (regSet s off v).todo = s.todo := rfl
@[simp] theorem regSet_pending (off : Nat) (v : Word) : (regSet s off v).pending = s.pending := rfl

@[simp] theorem regPut_time (off lo len v : Nat) : (regPut s off lo len v).time = s.time := rfl
@[simp] theorem regPut_mg (off lo len v : Nat) : (regPut s off lo len v).mg = s.mg := rfl
@[simp] theorem regPut_banked (off lo len v : Nat) : (regPut s off lo len v).banked = s.banked := rfl
@[simp] theorem regPut_epoch (off lo len v : Nat) : (regPut s off lo len v).epoch = s.epoch := rfl
@[simp] theorem regPut_map (off lo len v : Nat) : (regPut s off lo len v).map = s.map := rfl
@[simp] theorem regPut_mesh (off lo len v : Nat) : (regPut s off lo len v).mesh = s.mesh := rfl
@[simp] theorem regPut_trans (off lo len v : Nat) : (regPut s off lo len v).trans = s.trans := rfl
@[simp] theorem regPut_tnt (off lo len v : Nat) : (regPut s off lo len v).tnt = s.tnt := rfl
@[simp] theorem regPut_host (off lo len v : Nat) : (regPut s off lo len v).host = s.host := rfl
@[simp] theorem regPut_chan (off lo len v : Nat) : (regPut s off lo len v).chan = s.chan := rfl
@[simp] theorem regPut_port (off lo len v : Nat) : (regPut s off lo len v).port = s.port := rfl
@[simp] theorem regPut_slice (off lo len v : Nat) : (regPut s off lo len v).slice = s.slice := rfl
@[simp] theorem regPut_brg (off lo len v : Nat) : (regPut s off lo len v).brg = s.brg := rfl
@[simp] theorem regPut_mc (off lo len v : Nat) : (regPut s off lo len v).mc = s.mc := rfl
@[simp] theorem regPut_red (off lo len v : Nat) : (regPut s off lo len v).red = s.red := rfl
@[simp] theorem regPut_all (off lo len v : Nat) : (regPut s off lo len v).all = s.all := rfl
@[simp] theorem regPut_sync (off lo len v : Nat) : (regPut s off lo len v).sync = s.sync := rfl
@[simp] theorem regPut_dorm (off lo len v : Nat) : (regPut s off lo len v).dorm = s.dorm := rfl
@[simp] theorem regPut_obs (off lo len v : Nat) : (regPut s off lo len v).obs = s.obs := rfl
@[simp] theorem regPut_flt (off lo len v : Nat) : (regPut s off lo len v).flt = s.flt := rfl
@[simp] theorem regPut_bup (off lo len v : Nat) : (regPut s off lo len v).bup = s.bup := rfl
@[simp] theorem regPut_pwr (off lo len v : Nat) : (regPut s off lo len v).pwr = s.pwr := rfl
@[simp] theorem regPut_tbl (off lo len v : Nat) : (regPut s off lo len v).tbl = s.tbl := rfl
@[simp] theorem regPut_hall (off lo len v : Nat) : (regPut s off lo len v).hall = s.hall := rfl
@[simp] theorem regPut_free (off lo len v : Nat) : (regPut s off lo len v).free = s.free := rfl
@[simp] theorem regPut_out (off lo len v : Nat) : (regPut s off lo len v).out = s.out := rfl
@[simp] theorem regPut_todo (off lo len v : Nat) : (regPut s off lo len v).todo = s.todo := rfl
@[simp] theorem regPut_pending (off lo len v : Nat) : (regPut s off lo len v).pending = s.pending := rfl

@[simp] theorem regCount_time (off lo len n : Nat) : (regCount s off lo len n).time = s.time := rfl
@[simp] theorem regCount_mg (off lo len n : Nat) : (regCount s off lo len n).mg = s.mg := rfl
@[simp] theorem regCount_banked (off lo len n : Nat) : (regCount s off lo len n).banked = s.banked := rfl
@[simp] theorem regCount_epoch (off lo len n : Nat) : (regCount s off lo len n).epoch = s.epoch := rfl
@[simp] theorem regCount_map (off lo len n : Nat) : (regCount s off lo len n).map = s.map := rfl
@[simp] theorem regCount_mesh (off lo len n : Nat) : (regCount s off lo len n).mesh = s.mesh := rfl
@[simp] theorem regCount_trans (off lo len n : Nat) : (regCount s off lo len n).trans = s.trans := rfl
@[simp] theorem regCount_tnt (off lo len n : Nat) : (regCount s off lo len n).tnt = s.tnt := rfl
@[simp] theorem regCount_host (off lo len n : Nat) : (regCount s off lo len n).host = s.host := rfl
@[simp] theorem regCount_chan (off lo len n : Nat) : (regCount s off lo len n).chan = s.chan := rfl
@[simp] theorem regCount_port (off lo len n : Nat) : (regCount s off lo len n).port = s.port := rfl
@[simp] theorem regCount_slice (off lo len n : Nat) : (regCount s off lo len n).slice = s.slice := rfl
@[simp] theorem regCount_brg (off lo len n : Nat) : (regCount s off lo len n).brg = s.brg := rfl
@[simp] theorem regCount_mc (off lo len n : Nat) : (regCount s off lo len n).mc = s.mc := rfl
@[simp] theorem regCount_red (off lo len n : Nat) : (regCount s off lo len n).red = s.red := rfl
@[simp] theorem regCount_all (off lo len n : Nat) : (regCount s off lo len n).all = s.all := rfl
@[simp] theorem regCount_sync (off lo len n : Nat) : (regCount s off lo len n).sync = s.sync := rfl
@[simp] theorem regCount_dorm (off lo len n : Nat) : (regCount s off lo len n).dorm = s.dorm := rfl
@[simp] theorem regCount_obs (off lo len n : Nat) : (regCount s off lo len n).obs = s.obs := rfl
@[simp] theorem regCount_flt (off lo len n : Nat) : (regCount s off lo len n).flt = s.flt := rfl
@[simp] theorem regCount_bup (off lo len n : Nat) : (regCount s off lo len n).bup = s.bup := rfl
@[simp] theorem regCount_pwr (off lo len n : Nat) : (regCount s off lo len n).pwr = s.pwr := rfl
@[simp] theorem regCount_tbl (off lo len n : Nat) : (regCount s off lo len n).tbl = s.tbl := rfl
@[simp] theorem regCount_hall (off lo len n : Nat) : (regCount s off lo len n).hall = s.hall := rfl
@[simp] theorem regCount_free (off lo len n : Nat) : (regCount s off lo len n).free = s.free := rfl
@[simp] theorem regCount_out (off lo len n : Nat) : (regCount s off lo len n).out = s.out := rfl
@[simp] theorem regCount_todo (off lo len n : Nat) : (regCount s off lo len n).todo = s.todo := rfl
@[simp] theorem regCount_pending (off lo len n : Nat) : (regCount s off lo len n).pending = s.pending := rfl

@[simp] theorem bkSet_time (p : Bool) (off : Nat) (v : Word) : (bkSet s p off v).time = s.time := rfl
@[simp] theorem bkSet_mg (p : Bool) (off : Nat) (v : Word) : (bkSet s p off v).mg = s.mg := rfl
@[simp] theorem bkSet_regs (p : Bool) (off : Nat) (v : Word) : (bkSet s p off v).regs = s.regs := rfl
@[simp] theorem bkSet_epoch (p : Bool) (off : Nat) (v : Word) : (bkSet s p off v).epoch = s.epoch := rfl
@[simp] theorem bkSet_map (p : Bool) (off : Nat) (v : Word) : (bkSet s p off v).map = s.map := rfl
@[simp] theorem bkSet_mesh (p : Bool) (off : Nat) (v : Word) : (bkSet s p off v).mesh = s.mesh := rfl
@[simp] theorem bkSet_trans (p : Bool) (off : Nat) (v : Word) : (bkSet s p off v).trans = s.trans := rfl
@[simp] theorem bkSet_tnt (p : Bool) (off : Nat) (v : Word) : (bkSet s p off v).tnt = s.tnt := rfl
@[simp] theorem bkSet_host (p : Bool) (off : Nat) (v : Word) : (bkSet s p off v).host = s.host := rfl
@[simp] theorem bkSet_chan (p : Bool) (off : Nat) (v : Word) : (bkSet s p off v).chan = s.chan := rfl
@[simp] theorem bkSet_port (p : Bool) (off : Nat) (v : Word) : (bkSet s p off v).port = s.port := rfl
@[simp] theorem bkSet_slice (p : Bool) (off : Nat) (v : Word) : (bkSet s p off v).slice = s.slice := rfl
@[simp] theorem bkSet_brg (p : Bool) (off : Nat) (v : Word) : (bkSet s p off v).brg = s.brg := rfl
@[simp] theorem bkSet_mc (p : Bool) (off : Nat) (v : Word) : (bkSet s p off v).mc = s.mc := rfl
@[simp] theorem bkSet_red (p : Bool) (off : Nat) (v : Word) : (bkSet s p off v).red = s.red := rfl
@[simp] theorem bkSet_all (p : Bool) (off : Nat) (v : Word) : (bkSet s p off v).all = s.all := rfl
@[simp] theorem bkSet_sync (p : Bool) (off : Nat) (v : Word) : (bkSet s p off v).sync = s.sync := rfl
@[simp] theorem bkSet_dorm (p : Bool) (off : Nat) (v : Word) : (bkSet s p off v).dorm = s.dorm := rfl
@[simp] theorem bkSet_obs (p : Bool) (off : Nat) (v : Word) : (bkSet s p off v).obs = s.obs := rfl
@[simp] theorem bkSet_flt (p : Bool) (off : Nat) (v : Word) : (bkSet s p off v).flt = s.flt := rfl
@[simp] theorem bkSet_bup (p : Bool) (off : Nat) (v : Word) : (bkSet s p off v).bup = s.bup := rfl
@[simp] theorem bkSet_pwr (p : Bool) (off : Nat) (v : Word) : (bkSet s p off v).pwr = s.pwr := rfl
@[simp] theorem bkSet_tbl (p : Bool) (off : Nat) (v : Word) : (bkSet s p off v).tbl = s.tbl := rfl
@[simp] theorem bkSet_hall (p : Bool) (off : Nat) (v : Word) : (bkSet s p off v).hall = s.hall := rfl
@[simp] theorem bkSet_free (p : Bool) (off : Nat) (v : Word) : (bkSet s p off v).free = s.free := rfl
@[simp] theorem bkSet_out (p : Bool) (off : Nat) (v : Word) : (bkSet s p off v).out = s.out := rfl
@[simp] theorem bkSet_todo (p : Bool) (off : Nat) (v : Word) : (bkSet s p off v).todo = s.todo := rfl
@[simp] theorem bkSet_pending (p : Bool) (off : Nat) (v : Word) : (bkSet s p off v).pending = s.pending := rfl

@[simp] theorem emit_time (o : Out) : (emit s o).time = s.time := rfl
@[simp] theorem emit_mg (o : Out) : (emit s o).mg = s.mg := rfl
@[simp] theorem emit_regs (o : Out) : (emit s o).regs = s.regs := rfl
@[simp] theorem emit_banked (o : Out) : (emit s o).banked = s.banked := rfl
@[simp] theorem emit_epoch (o : Out) : (emit s o).epoch = s.epoch := rfl
@[simp] theorem emit_map (o : Out) : (emit s o).map = s.map := rfl
@[simp] theorem emit_mesh (o : Out) : (emit s o).mesh = s.mesh := rfl
@[simp] theorem emit_trans (o : Out) : (emit s o).trans = s.trans := rfl
@[simp] theorem emit_tnt (o : Out) : (emit s o).tnt = s.tnt := rfl
@[simp] theorem emit_host (o : Out) : (emit s o).host = s.host := rfl
@[simp] theorem emit_chan (o : Out) : (emit s o).chan = s.chan := rfl
@[simp] theorem emit_port (o : Out) : (emit s o).port = s.port := rfl
@[simp] theorem emit_slice (o : Out) : (emit s o).slice = s.slice := rfl
@[simp] theorem emit_brg (o : Out) : (emit s o).brg = s.brg := rfl
@[simp] theorem emit_mc (o : Out) : (emit s o).mc = s.mc := rfl
@[simp] theorem emit_red (o : Out) : (emit s o).red = s.red := rfl
@[simp] theorem emit_all (o : Out) : (emit s o).all = s.all := rfl
@[simp] theorem emit_sync (o : Out) : (emit s o).sync = s.sync := rfl
@[simp] theorem emit_dorm (o : Out) : (emit s o).dorm = s.dorm := rfl
@[simp] theorem emit_obs (o : Out) : (emit s o).obs = s.obs := rfl
@[simp] theorem emit_flt (o : Out) : (emit s o).flt = s.flt := rfl
@[simp] theorem emit_bup (o : Out) : (emit s o).bup = s.bup := rfl
@[simp] theorem emit_pwr (o : Out) : (emit s o).pwr = s.pwr := rfl
@[simp] theorem emit_tbl (o : Out) : (emit s o).tbl = s.tbl := rfl
@[simp] theorem emit_hall (o : Out) : (emit s o).hall = s.hall := rfl
@[simp] theorem emit_free (o : Out) : (emit s o).free = s.free := rfl
@[simp] theorem emit_todo (o : Out) : (emit s o).todo = s.todo := rfl
@[simp] theorem emit_pending (o : Out) : (emit s o).pending = s.pending := rfl

@[simp] theorem sendRhz_time (r : Rhz) : (sendRhz s r).time = s.time := rfl
@[simp] theorem sendRhz_mg (r : Rhz) : (sendRhz s r).mg = s.mg := rfl
@[simp] theorem sendRhz_regs (r : Rhz) : (sendRhz s r).regs = s.regs := rfl
@[simp] theorem sendRhz_banked (r : Rhz) : (sendRhz s r).banked = s.banked := rfl
@[simp] theorem sendRhz_epoch (r : Rhz) : (sendRhz s r).epoch = s.epoch := rfl
@[simp] theorem sendRhz_map (r : Rhz) : (sendRhz s r).map = s.map := rfl
@[simp] theorem sendRhz_mesh (r : Rhz) : (sendRhz s r).mesh = s.mesh := rfl
@[simp] theorem sendRhz_trans (r : Rhz) : (sendRhz s r).trans = s.trans := rfl
@[simp] theorem sendRhz_tnt (r : Rhz) : (sendRhz s r).tnt = s.tnt := rfl
@[simp] theorem sendRhz_host (r : Rhz) : (sendRhz s r).host = s.host := rfl
@[simp] theorem sendRhz_chan (r : Rhz) : (sendRhz s r).chan = s.chan := rfl
@[simp] theorem sendRhz_port (r : Rhz) : (sendRhz s r).port = s.port := rfl
@[simp] theorem sendRhz_slice (r : Rhz) : (sendRhz s r).slice = s.slice := rfl
@[simp] theorem sendRhz_brg (r : Rhz) : (sendRhz s r).brg = s.brg := rfl
@[simp] theorem sendRhz_mc (r : Rhz) : (sendRhz s r).mc = s.mc := rfl
@[simp] theorem sendRhz_red (r : Rhz) : (sendRhz s r).red = s.red := rfl
@[simp] theorem sendRhz_all (r : Rhz) : (sendRhz s r).all = s.all := rfl
@[simp] theorem sendRhz_sync (r : Rhz) : (sendRhz s r).sync = s.sync := rfl
@[simp] theorem sendRhz_dorm (r : Rhz) : (sendRhz s r).dorm = s.dorm := rfl
@[simp] theorem sendRhz_obs (r : Rhz) : (sendRhz s r).obs = s.obs := rfl
@[simp] theorem sendRhz_flt (r : Rhz) : (sendRhz s r).flt = s.flt := rfl
@[simp] theorem sendRhz_bup (r : Rhz) : (sendRhz s r).bup = s.bup := rfl
@[simp] theorem sendRhz_pwr (r : Rhz) : (sendRhz s r).pwr = s.pwr := rfl
@[simp] theorem sendRhz_tbl (r : Rhz) : (sendRhz s r).tbl = s.tbl := rfl
@[simp] theorem sendRhz_hall (r : Rhz) : (sendRhz s r).hall = s.hall := rfl
@[simp] theorem sendRhz_free (r : Rhz) : (sendRhz s r).free = s.free := rfl
@[simp] theorem sendRhz_todo (r : Rhz) : (sendRhz s r).todo = s.todo := rfl
@[simp] theorem sendRhz_pending (r : Rhz) : (sendRhz s r).pending = s.pending := rfl

@[simp] theorem raise_time (c : Cause) (loc sub : Nat) (d : Word) : (raise s c loc sub d).time = s.time := rfl
@[simp] theorem raise_mg (c : Cause) (loc sub : Nat) (d : Word) : (raise s c loc sub d).mg = s.mg := rfl
@[simp] theorem raise_regs (c : Cause) (loc sub : Nat) (d : Word) : (raise s c loc sub d).regs = s.regs := rfl
@[simp] theorem raise_banked (c : Cause) (loc sub : Nat) (d : Word) : (raise s c loc sub d).banked = s.banked := rfl
@[simp] theorem raise_epoch (c : Cause) (loc sub : Nat) (d : Word) : (raise s c loc sub d).epoch = s.epoch := rfl
@[simp] theorem raise_map (c : Cause) (loc sub : Nat) (d : Word) : (raise s c loc sub d).map = s.map := rfl
@[simp] theorem raise_mesh (c : Cause) (loc sub : Nat) (d : Word) : (raise s c loc sub d).mesh = s.mesh := rfl
@[simp] theorem raise_trans (c : Cause) (loc sub : Nat) (d : Word) : (raise s c loc sub d).trans = s.trans := rfl
@[simp] theorem raise_tnt (c : Cause) (loc sub : Nat) (d : Word) : (raise s c loc sub d).tnt = s.tnt := rfl
@[simp] theorem raise_host (c : Cause) (loc sub : Nat) (d : Word) : (raise s c loc sub d).host = s.host := rfl
@[simp] theorem raise_chan (c : Cause) (loc sub : Nat) (d : Word) : (raise s c loc sub d).chan = s.chan := rfl
@[simp] theorem raise_port (c : Cause) (loc sub : Nat) (d : Word) : (raise s c loc sub d).port = s.port := rfl
@[simp] theorem raise_slice (c : Cause) (loc sub : Nat) (d : Word) : (raise s c loc sub d).slice = s.slice := rfl
@[simp] theorem raise_brg (c : Cause) (loc sub : Nat) (d : Word) : (raise s c loc sub d).brg = s.brg := rfl
@[simp] theorem raise_mc (c : Cause) (loc sub : Nat) (d : Word) : (raise s c loc sub d).mc = s.mc := rfl
@[simp] theorem raise_red (c : Cause) (loc sub : Nat) (d : Word) : (raise s c loc sub d).red = s.red := rfl
@[simp] theorem raise_all (c : Cause) (loc sub : Nat) (d : Word) : (raise s c loc sub d).all = s.all := rfl
@[simp] theorem raise_sync (c : Cause) (loc sub : Nat) (d : Word) : (raise s c loc sub d).sync = s.sync := rfl
@[simp] theorem raise_dorm (c : Cause) (loc sub : Nat) (d : Word) : (raise s c loc sub d).dorm = s.dorm := rfl
@[simp] theorem raise_obs (c : Cause) (loc sub : Nat) (d : Word) : (raise s c loc sub d).obs = s.obs := rfl
@[simp] theorem raise_bup (c : Cause) (loc sub : Nat) (d : Word) : (raise s c loc sub d).bup = s.bup := rfl
@[simp] theorem raise_pwr (c : Cause) (loc sub : Nat) (d : Word) : (raise s c loc sub d).pwr = s.pwr := rfl
@[simp] theorem raise_tbl (c : Cause) (loc sub : Nat) (d : Word) : (raise s c loc sub d).tbl = s.tbl := rfl
@[simp] theorem raise_hall (c : Cause) (loc sub : Nat) (d : Word) : (raise s c loc sub d).hall = s.hall := rfl
@[simp] theorem raise_free (c : Cause) (loc sub : Nat) (d : Word) : (raise s c loc sub d).free = s.free := rfl
@[simp] theorem raise_out (c : Cause) (loc sub : Nat) (d : Word) : (raise s c loc sub d).out = s.out := rfl
@[simp] theorem raise_todo (c : Cause) (loc sub : Nat) (d : Word) : (raise s c loc sub d).todo = s.todo := rfl
@[simp] theorem raise_pending (c : Cause) (loc sub : Nat) (d : Word) : (raise s c loc sub d).pending = s.pending := rfl

@[simp] theorem advanceTo_mg (t : Nat) : (advanceTo s t).mg = s.mg := rfl
@[simp] theorem advanceTo_regs (t : Nat) : (advanceTo s t).regs = s.regs := rfl
@[simp] theorem advanceTo_banked (t : Nat) : (advanceTo s t).banked = s.banked := rfl
@[simp] theorem advanceTo_epoch (t : Nat) : (advanceTo s t).epoch = s.epoch := rfl
@[simp] theorem advanceTo_map (t : Nat) : (advanceTo s t).map = s.map := rfl
@[simp] theorem advanceTo_mesh (t : Nat) : (advanceTo s t).mesh = s.mesh := rfl
@[simp] theorem advanceTo_trans (t : Nat) : (advanceTo s t).trans = s.trans := rfl
@[simp] theorem advanceTo_tnt (t : Nat) : (advanceTo s t).tnt = s.tnt := rfl
@[simp] theorem advanceTo_host (t : Nat) : (advanceTo s t).host = s.host := rfl
@[simp] theorem advanceTo_chan (t : Nat) : (advanceTo s t).chan = s.chan := rfl
@[simp] theorem advanceTo_port (t : Nat) : (advanceTo s t).port = s.port := rfl
@[simp] theorem advanceTo_slice (t : Nat) : (advanceTo s t).slice = s.slice := rfl
@[simp] theorem advanceTo_brg (t : Nat) : (advanceTo s t).brg = s.brg := rfl
@[simp] theorem advanceTo_mc (t : Nat) : (advanceTo s t).mc = s.mc := rfl
@[simp] theorem advanceTo_red (t : Nat) : (advanceTo s t).red = s.red := rfl
@[simp] theorem advanceTo_all (t : Nat) : (advanceTo s t).all = s.all := rfl
@[simp] theorem advanceTo_sync (t : Nat) : (advanceTo s t).sync = s.sync := rfl
@[simp] theorem advanceTo_dorm (t : Nat) : (advanceTo s t).dorm = s.dorm := rfl
@[simp] theorem advanceTo_obs (t : Nat) : (advanceTo s t).obs = s.obs := rfl
@[simp] theorem advanceTo_flt (t : Nat) : (advanceTo s t).flt = s.flt := rfl
@[simp] theorem advanceTo_bup (t : Nat) : (advanceTo s t).bup = s.bup := rfl
@[simp] theorem advanceTo_pwr (t : Nat) : (advanceTo s t).pwr = s.pwr := rfl
@[simp] theorem advanceTo_tbl (t : Nat) : (advanceTo s t).tbl = s.tbl := rfl
@[simp] theorem advanceTo_hall (t : Nat) : (advanceTo s t).hall = s.hall := rfl
@[simp] theorem advanceTo_free (t : Nat) : (advanceTo s t).free = s.free := rfl
@[simp] theorem advanceTo_out (t : Nat) : (advanceTo s t).out = s.out := rfl
@[simp] theorem advanceTo_todo (t : Nat) : (advanceTo s t).todo = s.todo := rfl
@[simp] theorem advanceTo_pending (t : Nat) : (advanceTo s t).pending = s.pending := rfl

@[simp] theorem setMod_time (e m : Nat) (x : ModSt) : (setMod s e m x).time = s.time := rfl
@[simp] theorem setMod_mg (e m : Nat) (x : ModSt) : (setMod s e m x).mg = s.mg := rfl
@[simp] theorem setMod_regs (e m : Nat) (x : ModSt) : (setMod s e m x).regs = s.regs := rfl
@[simp] theorem setMod_banked (e m : Nat) (x : ModSt) : (setMod s e m x).banked = s.banked := rfl
@[simp] theorem setMod_epoch (e m : Nat) (x : ModSt) : (setMod s e m x).epoch = s.epoch := rfl
@[simp] theorem setMod_map (e m : Nat) (x : ModSt) : (setMod s e m x).map = s.map := rfl
@[simp] theorem setMod_mesh (e m : Nat) (x : ModSt) : (setMod s e m x).mesh = s.mesh := rfl
@[simp] theorem setMod_trans (e m : Nat) (x : ModSt) : (setMod s e m x).trans = s.trans := rfl
@[simp] theorem setMod_tnt (e m : Nat) (x : ModSt) : (setMod s e m x).tnt = s.tnt := rfl
@[simp] theorem setMod_host (e m : Nat) (x : ModSt) : (setMod s e m x).host = s.host := rfl
@[simp] theorem setMod_chan (e m : Nat) (x : ModSt) : (setMod s e m x).chan = s.chan := rfl
@[simp] theorem setMod_port (e m : Nat) (x : ModSt) : (setMod s e m x).port = s.port := rfl
@[simp] theorem setMod_slice (e m : Nat) (x : ModSt) : (setMod s e m x).slice = s.slice := rfl
@[simp] theorem setMod_mc (e m : Nat) (x : ModSt) : (setMod s e m x).mc = s.mc := rfl
@[simp] theorem setMod_red (e m : Nat) (x : ModSt) : (setMod s e m x).red = s.red := rfl
@[simp] theorem setMod_all (e m : Nat) (x : ModSt) : (setMod s e m x).all = s.all := rfl
@[simp] theorem setMod_sync (e m : Nat) (x : ModSt) : (setMod s e m x).sync = s.sync := rfl
@[simp] theorem setMod_dorm (e m : Nat) (x : ModSt) : (setMod s e m x).dorm = s.dorm := rfl
@[simp] theorem setMod_obs (e m : Nat) (x : ModSt) : (setMod s e m x).obs = s.obs := rfl
@[simp] theorem setMod_flt (e m : Nat) (x : ModSt) : (setMod s e m x).flt = s.flt := rfl
@[simp] theorem setMod_bup (e m : Nat) (x : ModSt) : (setMod s e m x).bup = s.bup := rfl
@[simp] theorem setMod_pwr (e m : Nat) (x : ModSt) : (setMod s e m x).pwr = s.pwr := rfl
@[simp] theorem setMod_tbl (e m : Nat) (x : ModSt) : (setMod s e m x).tbl = s.tbl := rfl
@[simp] theorem setMod_hall (e m : Nat) (x : ModSt) : (setMod s e m x).hall = s.hall := rfl
@[simp] theorem setMod_free (e m : Nat) (x : ModSt) : (setMod s e m x).free = s.free := rfl
@[simp] theorem setMod_out (e m : Nat) (x : ModSt) : (setMod s e m x).out = s.out := rfl
@[simp] theorem setMod_todo (e m : Nat) (x : ModSt) : (setMod s e m x).todo = s.todo := rfl
@[simp] theorem setMod_pending (e m : Nat) (x : ModSt) : (setMod s e m x).pending = s.pending := rfl

@[simp] theorem setEdgeVc_time (e pos pl vc : Nat) (x : EdgeVc) : (setEdgeVc s e pos pl vc x).time = s.time := rfl
@[simp] theorem setEdgeVc_mg (e pos pl vc : Nat) (x : EdgeVc) : (setEdgeVc s e pos pl vc x).mg = s.mg := rfl
@[simp] theorem setEdgeVc_regs (e pos pl vc : Nat) (x : EdgeVc) : (setEdgeVc s e pos pl vc x).regs = s.regs := rfl
@[simp] theorem setEdgeVc_banked (e pos pl vc : Nat) (x : EdgeVc) : (setEdgeVc s e pos pl vc x).banked = s.banked := rfl
@[simp] theorem setEdgeVc_epoch (e pos pl vc : Nat) (x : EdgeVc) : (setEdgeVc s e pos pl vc x).epoch = s.epoch := rfl
@[simp] theorem setEdgeVc_map (e pos pl vc : Nat) (x : EdgeVc) : (setEdgeVc s e pos pl vc x).map = s.map := rfl
@[simp] theorem setEdgeVc_mesh (e pos pl vc : Nat) (x : EdgeVc) : (setEdgeVc s e pos pl vc x).mesh = s.mesh := rfl
@[simp] theorem setEdgeVc_trans (e pos pl vc : Nat) (x : EdgeVc) : (setEdgeVc s e pos pl vc x).trans = s.trans := rfl
@[simp] theorem setEdgeVc_tnt (e pos pl vc : Nat) (x : EdgeVc) : (setEdgeVc s e pos pl vc x).tnt = s.tnt := rfl
@[simp] theorem setEdgeVc_host (e pos pl vc : Nat) (x : EdgeVc) : (setEdgeVc s e pos pl vc x).host = s.host := rfl
@[simp] theorem setEdgeVc_chan (e pos pl vc : Nat) (x : EdgeVc) : (setEdgeVc s e pos pl vc x).chan = s.chan := rfl
@[simp] theorem setEdgeVc_port (e pos pl vc : Nat) (x : EdgeVc) : (setEdgeVc s e pos pl vc x).port = s.port := rfl
@[simp] theorem setEdgeVc_slice (e pos pl vc : Nat) (x : EdgeVc) : (setEdgeVc s e pos pl vc x).slice = s.slice := rfl
@[simp] theorem setEdgeVc_mc (e pos pl vc : Nat) (x : EdgeVc) : (setEdgeVc s e pos pl vc x).mc = s.mc := rfl
@[simp] theorem setEdgeVc_red (e pos pl vc : Nat) (x : EdgeVc) : (setEdgeVc s e pos pl vc x).red = s.red := rfl
@[simp] theorem setEdgeVc_all (e pos pl vc : Nat) (x : EdgeVc) : (setEdgeVc s e pos pl vc x).all = s.all := rfl
@[simp] theorem setEdgeVc_sync (e pos pl vc : Nat) (x : EdgeVc) : (setEdgeVc s e pos pl vc x).sync = s.sync := rfl
@[simp] theorem setEdgeVc_dorm (e pos pl vc : Nat) (x : EdgeVc) : (setEdgeVc s e pos pl vc x).dorm = s.dorm := rfl
@[simp] theorem setEdgeVc_obs (e pos pl vc : Nat) (x : EdgeVc) : (setEdgeVc s e pos pl vc x).obs = s.obs := rfl
@[simp] theorem setEdgeVc_flt (e pos pl vc : Nat) (x : EdgeVc) : (setEdgeVc s e pos pl vc x).flt = s.flt := rfl
@[simp] theorem setEdgeVc_bup (e pos pl vc : Nat) (x : EdgeVc) : (setEdgeVc s e pos pl vc x).bup = s.bup := rfl
@[simp] theorem setEdgeVc_pwr (e pos pl vc : Nat) (x : EdgeVc) : (setEdgeVc s e pos pl vc x).pwr = s.pwr := rfl
@[simp] theorem setEdgeVc_tbl (e pos pl vc : Nat) (x : EdgeVc) : (setEdgeVc s e pos pl vc x).tbl = s.tbl := rfl
@[simp] theorem setEdgeVc_hall (e pos pl vc : Nat) (x : EdgeVc) : (setEdgeVc s e pos pl vc x).hall = s.hall := rfl
@[simp] theorem setEdgeVc_free (e pos pl vc : Nat) (x : EdgeVc) : (setEdgeVc s e pos pl vc x).free = s.free := rfl
@[simp] theorem setEdgeVc_out (e pos pl vc : Nat) (x : EdgeVc) : (setEdgeVc s e pos pl vc x).out = s.out := rfl
@[simp] theorem setEdgeVc_todo (e pos pl vc : Nat) (x : EdgeVc) : (setEdgeVc s e pos pl vc x).todo = s.todo := rfl
@[simp] theorem setEdgeVc_pending (e pos pl vc : Nat) (x : EdgeVc) : (setEdgeVc s e pos pl vc x).pending = s.pending := rfl

@[simp] theorem putBytes_time (st bank byte : Nat) (l : List Byte) : (putBytes s st bank byte l).time = s.time := rfl
@[simp] theorem putBytes_mg (st bank byte : Nat) (l : List Byte) : (putBytes s st bank byte l).mg = s.mg := rfl
@[simp] theorem putBytes_regs (st bank byte : Nat) (l : List Byte) : (putBytes s st bank byte l).regs = s.regs := rfl
@[simp] theorem putBytes_banked (st bank byte : Nat) (l : List Byte) : (putBytes s st bank byte l).banked = s.banked := rfl
@[simp] theorem putBytes_epoch (st bank byte : Nat) (l : List Byte) : (putBytes s st bank byte l).epoch = s.epoch := rfl
@[simp] theorem putBytes_map (st bank byte : Nat) (l : List Byte) : (putBytes s st bank byte l).map = s.map := rfl
@[simp] theorem putBytes_mesh (st bank byte : Nat) (l : List Byte) : (putBytes s st bank byte l).mesh = s.mesh := rfl
@[simp] theorem putBytes_trans (st bank byte : Nat) (l : List Byte) : (putBytes s st bank byte l).trans = s.trans := rfl
@[simp] theorem putBytes_tnt (st bank byte : Nat) (l : List Byte) : (putBytes s st bank byte l).tnt = s.tnt := rfl
@[simp] theorem putBytes_host (st bank byte : Nat) (l : List Byte) : (putBytes s st bank byte l).host = s.host := rfl
@[simp] theorem putBytes_chan (st bank byte : Nat) (l : List Byte) : (putBytes s st bank byte l).chan = s.chan := rfl
@[simp] theorem putBytes_port (st bank byte : Nat) (l : List Byte) : (putBytes s st bank byte l).port = s.port := rfl
@[simp] theorem putBytes_brg (st bank byte : Nat) (l : List Byte) : (putBytes s st bank byte l).brg = s.brg := rfl
@[simp] theorem putBytes_mc (st bank byte : Nat) (l : List Byte) : (putBytes s st bank byte l).mc = s.mc := rfl
@[simp] theorem putBytes_red (st bank byte : Nat) (l : List Byte) : (putBytes s st bank byte l).red = s.red := rfl
@[simp] theorem putBytes_all (st bank byte : Nat) (l : List Byte) : (putBytes s st bank byte l).all = s.all := rfl
@[simp] theorem putBytes_sync (st bank byte : Nat) (l : List Byte) : (putBytes s st bank byte l).sync = s.sync := rfl
@[simp] theorem putBytes_dorm (st bank byte : Nat) (l : List Byte) : (putBytes s st bank byte l).dorm = s.dorm := rfl
@[simp] theorem putBytes_obs (st bank byte : Nat) (l : List Byte) : (putBytes s st bank byte l).obs = s.obs := rfl
@[simp] theorem putBytes_flt (st bank byte : Nat) (l : List Byte) : (putBytes s st bank byte l).flt = s.flt := rfl
@[simp] theorem putBytes_bup (st bank byte : Nat) (l : List Byte) : (putBytes s st bank byte l).bup = s.bup := rfl
@[simp] theorem putBytes_pwr (st bank byte : Nat) (l : List Byte) : (putBytes s st bank byte l).pwr = s.pwr := rfl
@[simp] theorem putBytes_tbl (st bank byte : Nat) (l : List Byte) : (putBytes s st bank byte l).tbl = s.tbl := rfl
@[simp] theorem putBytes_hall (st bank byte : Nat) (l : List Byte) : (putBytes s st bank byte l).hall = s.hall := rfl
@[simp] theorem putBytes_free (st bank byte : Nat) (l : List Byte) : (putBytes s st bank byte l).free = s.free := rfl
@[simp] theorem putBytes_out (st bank byte : Nat) (l : List Byte) : (putBytes s st bank byte l).out = s.out := rfl
@[simp] theorem putBytes_todo (st bank byte : Nat) (l : List Byte) : (putBytes s st bank byte l).todo = s.todo := rfl
@[simp] theorem putBytes_pending (st bank byte : Nat) (l : List Byte) : (putBytes s st bank byte l).pending = s.pending := rfl

@[simp] theorem setWordSt_time (st bank w : Nat) (x : WordSt) : (setWordSt s st bank w x).time = s.time := rfl
@[simp] theorem setWordSt_mg (st bank w : Nat) (x : WordSt) : (setWordSt s st bank w x).mg = s.mg := rfl
@[simp] theorem setWordSt_regs (st bank w : Nat) (x : WordSt) : (setWordSt s st bank w x).regs = s.regs := rfl
@[simp] theorem setWordSt_banked (st bank w : Nat) (x : WordSt) : (setWordSt s st bank w x).banked = s.banked := rfl
@[simp] theorem setWordSt_epoch (st bank w : Nat) (x : WordSt) : (setWordSt s st bank w x).epoch = s.epoch := rfl
@[simp] theorem setWordSt_map (st bank w : Nat) (x : WordSt) : (setWordSt s st bank w x).map = s.map := rfl
@[simp] theorem setWordSt_mesh (st bank w : Nat) (x : WordSt) : (setWordSt s st bank w x).mesh = s.mesh := rfl
@[simp] theorem setWordSt_trans (st bank w : Nat) (x : WordSt) : (setWordSt s st bank w x).trans = s.trans := rfl
@[simp] theorem setWordSt_tnt (st bank w : Nat) (x : WordSt) : (setWordSt s st bank w x).tnt = s.tnt := rfl
@[simp] theorem setWordSt_host (st bank w : Nat) (x : WordSt) : (setWordSt s st bank w x).host = s.host := rfl
@[simp] theorem setWordSt_chan (st bank w : Nat) (x : WordSt) : (setWordSt s st bank w x).chan = s.chan := rfl
@[simp] theorem setWordSt_port (st bank w : Nat) (x : WordSt) : (setWordSt s st bank w x).port = s.port := rfl
@[simp] theorem setWordSt_brg (st bank w : Nat) (x : WordSt) : (setWordSt s st bank w x).brg = s.brg := rfl
@[simp] theorem setWordSt_mc (st bank w : Nat) (x : WordSt) : (setWordSt s st bank w x).mc = s.mc := rfl
@[simp] theorem setWordSt_red (st bank w : Nat) (x : WordSt) : (setWordSt s st bank w x).red = s.red := rfl
@[simp] theorem setWordSt_all (st bank w : Nat) (x : WordSt) : (setWordSt s st bank w x).all = s.all := rfl
@[simp] theorem setWordSt_sync (st bank w : Nat) (x : WordSt) : (setWordSt s st bank w x).sync = s.sync := rfl
@[simp] theorem setWordSt_dorm (st bank w : Nat) (x : WordSt) : (setWordSt s st bank w x).dorm = s.dorm := rfl
@[simp] theorem setWordSt_obs (st bank w : Nat) (x : WordSt) : (setWordSt s st bank w x).obs = s.obs := rfl
@[simp] theorem setWordSt_flt (st bank w : Nat) (x : WordSt) : (setWordSt s st bank w x).flt = s.flt := rfl
@[simp] theorem setWordSt_bup (st bank w : Nat) (x : WordSt) : (setWordSt s st bank w x).bup = s.bup := rfl
@[simp] theorem setWordSt_pwr (st bank w : Nat) (x : WordSt) : (setWordSt s st bank w x).pwr = s.pwr := rfl
@[simp] theorem setWordSt_tbl (st bank w : Nat) (x : WordSt) : (setWordSt s st bank w x).tbl = s.tbl := rfl
@[simp] theorem setWordSt_hall (st bank w : Nat) (x : WordSt) : (setWordSt s st bank w x).hall = s.hall := rfl
@[simp] theorem setWordSt_free (st bank w : Nat) (x : WordSt) : (setWordSt s st bank w x).free = s.free := rfl
@[simp] theorem setWordSt_out (st bank w : Nat) (x : WordSt) : (setWordSt s st bank w x).out = s.out := rfl
@[simp] theorem setWordSt_todo (st bank w : Nat) (x : WordSt) : (setWordSt s st bank w x).todo = s.todo := rfl
@[simp] theorem setWordSt_pending (st bank w : Nat) (x : WordSt) : (setWordSt s st bank w x).pending = s.pending := rfl

@[simp] theorem mgAnswer_time (d : BitVec 32) (e : Bool) : (mgAnswer s d e).time = s.time := rfl
@[simp] theorem mgAnswer_regs (d : BitVec 32) (e : Bool) : (mgAnswer s d e).regs = s.regs := rfl
@[simp] theorem mgAnswer_banked (d : BitVec 32) (e : Bool) : (mgAnswer s d e).banked = s.banked := rfl
@[simp] theorem mgAnswer_epoch (d : BitVec 32) (e : Bool) : (mgAnswer s d e).epoch = s.epoch := rfl
@[simp] theorem mgAnswer_map (d : BitVec 32) (e : Bool) : (mgAnswer s d e).map = s.map := rfl
@[simp] theorem mgAnswer_mesh (d : BitVec 32) (e : Bool) : (mgAnswer s d e).mesh = s.mesh := rfl
@[simp] theorem mgAnswer_trans (d : BitVec 32) (e : Bool) : (mgAnswer s d e).trans = s.trans := rfl
@[simp] theorem mgAnswer_tnt (d : BitVec 32) (e : Bool) : (mgAnswer s d e).tnt = s.tnt := rfl
@[simp] theorem mgAnswer_host (d : BitVec 32) (e : Bool) : (mgAnswer s d e).host = s.host := rfl
@[simp] theorem mgAnswer_chan (d : BitVec 32) (e : Bool) : (mgAnswer s d e).chan = s.chan := rfl
@[simp] theorem mgAnswer_port (d : BitVec 32) (e : Bool) : (mgAnswer s d e).port = s.port := rfl
@[simp] theorem mgAnswer_slice (d : BitVec 32) (e : Bool) : (mgAnswer s d e).slice = s.slice := rfl
@[simp] theorem mgAnswer_brg (d : BitVec 32) (e : Bool) : (mgAnswer s d e).brg = s.brg := rfl
@[simp] theorem mgAnswer_mc (d : BitVec 32) (e : Bool) : (mgAnswer s d e).mc = s.mc := rfl
@[simp] theorem mgAnswer_red (d : BitVec 32) (e : Bool) : (mgAnswer s d e).red = s.red := rfl
@[simp] theorem mgAnswer_all (d : BitVec 32) (e : Bool) : (mgAnswer s d e).all = s.all := rfl
@[simp] theorem mgAnswer_sync (d : BitVec 32) (e : Bool) : (mgAnswer s d e).sync = s.sync := rfl
@[simp] theorem mgAnswer_dorm (d : BitVec 32) (e : Bool) : (mgAnswer s d e).dorm = s.dorm := rfl
@[simp] theorem mgAnswer_obs (d : BitVec 32) (e : Bool) : (mgAnswer s d e).obs = s.obs := rfl
@[simp] theorem mgAnswer_flt (d : BitVec 32) (e : Bool) : (mgAnswer s d e).flt = s.flt := rfl
@[simp] theorem mgAnswer_bup (d : BitVec 32) (e : Bool) : (mgAnswer s d e).bup = s.bup := rfl
@[simp] theorem mgAnswer_pwr (d : BitVec 32) (e : Bool) : (mgAnswer s d e).pwr = s.pwr := rfl
@[simp] theorem mgAnswer_tbl (d : BitVec 32) (e : Bool) : (mgAnswer s d e).tbl = s.tbl := rfl
@[simp] theorem mgAnswer_hall (d : BitVec 32) (e : Bool) : (mgAnswer s d e).hall = s.hall := rfl
@[simp] theorem mgAnswer_free (d : BitVec 32) (e : Bool) : (mgAnswer s d e).free = s.free := rfl
@[simp] theorem mgAnswer_out (d : BitVec 32) (e : Bool) : (mgAnswer s d e).out = s.out := rfl
@[simp] theorem mgAnswer_todo (d : BitVec 32) (e : Bool) : (mgAnswer s d e).todo = s.todo := rfl
@[simp] theorem mgAnswer_pending (d : BitVec 32) (e : Bool) : (mgAnswer s d e).pending = s.pending := rfl

@[simp] theorem setTenant_time (n : Nat) (t : Option Tenant) : (setTenant s n t).time = s.time := rfl
@[simp] theorem setTenant_mg (n : Nat) (t : Option Tenant) : (setTenant s n t).mg = s.mg := rfl
@[simp] theorem setTenant_regs (n : Nat) (t : Option Tenant) : (setTenant s n t).regs = s.regs := rfl
@[simp] theorem setTenant_banked (n : Nat) (t : Option Tenant) : (setTenant s n t).banked = s.banked := rfl
@[simp] theorem setTenant_epoch (n : Nat) (t : Option Tenant) : (setTenant s n t).epoch = s.epoch := rfl
@[simp] theorem setTenant_map (n : Nat) (t : Option Tenant) : (setTenant s n t).map = s.map := rfl
@[simp] theorem setTenant_mesh (n : Nat) (t : Option Tenant) : (setTenant s n t).mesh = s.mesh := rfl
@[simp] theorem setTenant_trans (n : Nat) (t : Option Tenant) : (setTenant s n t).trans = s.trans := rfl
@[simp] theorem setTenant_host (n : Nat) (t : Option Tenant) : (setTenant s n t).host = s.host := rfl
@[simp] theorem setTenant_chan (n : Nat) (t : Option Tenant) : (setTenant s n t).chan = s.chan := rfl
@[simp] theorem setTenant_port (n : Nat) (t : Option Tenant) : (setTenant s n t).port = s.port := rfl
@[simp] theorem setTenant_slice (n : Nat) (t : Option Tenant) : (setTenant s n t).slice = s.slice := rfl
@[simp] theorem setTenant_brg (n : Nat) (t : Option Tenant) : (setTenant s n t).brg = s.brg := rfl
@[simp] theorem setTenant_mc (n : Nat) (t : Option Tenant) : (setTenant s n t).mc = s.mc := rfl
@[simp] theorem setTenant_red (n : Nat) (t : Option Tenant) : (setTenant s n t).red = s.red := rfl
@[simp] theorem setTenant_all (n : Nat) (t : Option Tenant) : (setTenant s n t).all = s.all := rfl
@[simp] theorem setTenant_sync (n : Nat) (t : Option Tenant) : (setTenant s n t).sync = s.sync := rfl
@[simp] theorem setTenant_dorm (n : Nat) (t : Option Tenant) : (setTenant s n t).dorm = s.dorm := rfl
@[simp] theorem setTenant_obs (n : Nat) (t : Option Tenant) : (setTenant s n t).obs = s.obs := rfl
@[simp] theorem setTenant_flt (n : Nat) (t : Option Tenant) : (setTenant s n t).flt = s.flt := rfl
@[simp] theorem setTenant_bup (n : Nat) (t : Option Tenant) : (setTenant s n t).bup = s.bup := rfl
@[simp] theorem setTenant_pwr (n : Nat) (t : Option Tenant) : (setTenant s n t).pwr = s.pwr := rfl
@[simp] theorem setTenant_tbl (n : Nat) (t : Option Tenant) : (setTenant s n t).tbl = s.tbl := rfl
@[simp] theorem setTenant_hall (n : Nat) (t : Option Tenant) : (setTenant s n t).hall = s.hall := rfl
@[simp] theorem setTenant_free (n : Nat) (t : Option Tenant) : (setTenant s n t).free = s.free := rfl
@[simp] theorem setTenant_out (n : Nat) (t : Option Tenant) : (setTenant s n t).out = s.out := rfl
@[simp] theorem setTenant_todo (n : Nat) (t : Option Tenant) : (setTenant s n t).todo = s.todo := rfl
@[simp] theorem setTenant_pending (n : Nat) (t : Option Tenant) : (setTenant s n t).pending = s.pending := rfl

@[simp] theorem setFlow_time (k : Nat) (f : Flow) : (setFlow s k f).time = s.time := rfl
@[simp] theorem setFlow_mg (k : Nat) (f : Flow) : (setFlow s k f).mg = s.mg := rfl
@[simp] theorem setFlow_regs (k : Nat) (f : Flow) : (setFlow s k f).regs = s.regs := rfl
@[simp] theorem setFlow_banked (k : Nat) (f : Flow) : (setFlow s k f).banked = s.banked := rfl
@[simp] theorem setFlow_epoch (k : Nat) (f : Flow) : (setFlow s k f).epoch = s.epoch := rfl
@[simp] theorem setFlow_map (k : Nat) (f : Flow) : (setFlow s k f).map = s.map := rfl
@[simp] theorem setFlow_mesh (k : Nat) (f : Flow) : (setFlow s k f).mesh = s.mesh := rfl
@[simp] theorem setFlow_tnt (k : Nat) (f : Flow) : (setFlow s k f).tnt = s.tnt := rfl
@[simp] theorem setFlow_host (k : Nat) (f : Flow) : (setFlow s k f).host = s.host := rfl
@[simp] theorem setFlow_chan (k : Nat) (f : Flow) : (setFlow s k f).chan = s.chan := rfl
@[simp] theorem setFlow_port (k : Nat) (f : Flow) : (setFlow s k f).port = s.port := rfl
@[simp] theorem setFlow_slice (k : Nat) (f : Flow) : (setFlow s k f).slice = s.slice := rfl
@[simp] theorem setFlow_brg (k : Nat) (f : Flow) : (setFlow s k f).brg = s.brg := rfl
@[simp] theorem setFlow_mc (k : Nat) (f : Flow) : (setFlow s k f).mc = s.mc := rfl
@[simp] theorem setFlow_red (k : Nat) (f : Flow) : (setFlow s k f).red = s.red := rfl
@[simp] theorem setFlow_all (k : Nat) (f : Flow) : (setFlow s k f).all = s.all := rfl
@[simp] theorem setFlow_sync (k : Nat) (f : Flow) : (setFlow s k f).sync = s.sync := rfl
@[simp] theorem setFlow_dorm (k : Nat) (f : Flow) : (setFlow s k f).dorm = s.dorm := rfl
@[simp] theorem setFlow_obs (k : Nat) (f : Flow) : (setFlow s k f).obs = s.obs := rfl
@[simp] theorem setFlow_flt (k : Nat) (f : Flow) : (setFlow s k f).flt = s.flt := rfl
@[simp] theorem setFlow_bup (k : Nat) (f : Flow) : (setFlow s k f).bup = s.bup := rfl
@[simp] theorem setFlow_pwr (k : Nat) (f : Flow) : (setFlow s k f).pwr = s.pwr := rfl
@[simp] theorem setFlow_tbl (k : Nat) (f : Flow) : (setFlow s k f).tbl = s.tbl := rfl
@[simp] theorem setFlow_hall (k : Nat) (f : Flow) : (setFlow s k f).hall = s.hall := rfl
@[simp] theorem setFlow_free (k : Nat) (f : Flow) : (setFlow s k f).free = s.free := rfl
@[simp] theorem setFlow_out (k : Nat) (f : Flow) : (setFlow s k f).out = s.out := rfl
@[simp] theorem setFlow_todo (k : Nat) (f : Flow) : (setFlow s k f).todo = s.todo := rfl
@[simp] theorem setFlow_pending (k : Nat) (f : Flow) : (setFlow s k f).pending = s.pending := rfl

@[simp] theorem setBar_time (n : Nat) (b : Bar) : (setBar s n b).time = s.time := rfl
@[simp] theorem setBar_mg (n : Nat) (b : Bar) : (setBar s n b).mg = s.mg := rfl
@[simp] theorem setBar_regs (n : Nat) (b : Bar) : (setBar s n b).regs = s.regs := rfl
@[simp] theorem setBar_banked (n : Nat) (b : Bar) : (setBar s n b).banked = s.banked := rfl
@[simp] theorem setBar_epoch (n : Nat) (b : Bar) : (setBar s n b).epoch = s.epoch := rfl
@[simp] theorem setBar_map (n : Nat) (b : Bar) : (setBar s n b).map = s.map := rfl
@[simp] theorem setBar_mesh (n : Nat) (b : Bar) : (setBar s n b).mesh = s.mesh := rfl
@[simp] theorem setBar_trans (n : Nat) (b : Bar) : (setBar s n b).trans = s.trans := rfl
@[simp] theorem setBar_tnt (n : Nat) (b : Bar) : (setBar s n b).tnt = s.tnt := rfl
@[simp] theorem setBar_host (n : Nat) (b : Bar) : (setBar s n b).host = s.host := rfl
@[simp] theorem setBar_chan (n : Nat) (b : Bar) : (setBar s n b).chan = s.chan := rfl
@[simp] theorem setBar_port (n : Nat) (b : Bar) : (setBar s n b).port = s.port := rfl
@[simp] theorem setBar_slice (n : Nat) (b : Bar) : (setBar s n b).slice = s.slice := rfl
@[simp] theorem setBar_brg (n : Nat) (b : Bar) : (setBar s n b).brg = s.brg := rfl
@[simp] theorem setBar_mc (n : Nat) (b : Bar) : (setBar s n b).mc = s.mc := rfl
@[simp] theorem setBar_red (n : Nat) (b : Bar) : (setBar s n b).red = s.red := rfl
@[simp] theorem setBar_all (n : Nat) (b : Bar) : (setBar s n b).all = s.all := rfl
@[simp] theorem setBar_dorm (n : Nat) (b : Bar) : (setBar s n b).dorm = s.dorm := rfl
@[simp] theorem setBar_obs (n : Nat) (b : Bar) : (setBar s n b).obs = s.obs := rfl
@[simp] theorem setBar_flt (n : Nat) (b : Bar) : (setBar s n b).flt = s.flt := rfl
@[simp] theorem setBar_bup (n : Nat) (b : Bar) : (setBar s n b).bup = s.bup := rfl
@[simp] theorem setBar_pwr (n : Nat) (b : Bar) : (setBar s n b).pwr = s.pwr := rfl
@[simp] theorem setBar_tbl (n : Nat) (b : Bar) : (setBar s n b).tbl = s.tbl := rfl
@[simp] theorem setBar_hall (n : Nat) (b : Bar) : (setBar s n b).hall = s.hall := rfl
@[simp] theorem setBar_free (n : Nat) (b : Bar) : (setBar s n b).free = s.free := rfl
@[simp] theorem setBar_out (n : Nat) (b : Bar) : (setBar s n b).out = s.out := rfl
@[simp] theorem setBar_todo (n : Nat) (b : Bar) : (setBar s n b).todo = s.todo := rfl
@[simp] theorem setBar_pending (n : Nat) (b : Bar) : (setBar s n b).pending = s.pending := rfl

@[simp] theorem setHall_time (h : Nat) (x : HallPort) : (setHall s h x).time = s.time := rfl
@[simp] theorem setHall_mg (h : Nat) (x : HallPort) : (setHall s h x).mg = s.mg := rfl
@[simp] theorem setHall_regs (h : Nat) (x : HallPort) : (setHall s h x).regs = s.regs := rfl
@[simp] theorem setHall_banked (h : Nat) (x : HallPort) : (setHall s h x).banked = s.banked := rfl
@[simp] theorem setHall_epoch (h : Nat) (x : HallPort) : (setHall s h x).epoch = s.epoch := rfl
@[simp] theorem setHall_map (h : Nat) (x : HallPort) : (setHall s h x).map = s.map := rfl
@[simp] theorem setHall_mesh (h : Nat) (x : HallPort) : (setHall s h x).mesh = s.mesh := rfl
@[simp] theorem setHall_trans (h : Nat) (x : HallPort) : (setHall s h x).trans = s.trans := rfl
@[simp] theorem setHall_tnt (h : Nat) (x : HallPort) : (setHall s h x).tnt = s.tnt := rfl
@[simp] theorem setHall_host (h : Nat) (x : HallPort) : (setHall s h x).host = s.host := rfl
@[simp] theorem setHall_chan (h : Nat) (x : HallPort) : (setHall s h x).chan = s.chan := rfl
@[simp] theorem setHall_port (h : Nat) (x : HallPort) : (setHall s h x).port = s.port := rfl
@[simp] theorem setHall_slice (h : Nat) (x : HallPort) : (setHall s h x).slice = s.slice := rfl
@[simp] theorem setHall_brg (h : Nat) (x : HallPort) : (setHall s h x).brg = s.brg := rfl
@[simp] theorem setHall_mc (h : Nat) (x : HallPort) : (setHall s h x).mc = s.mc := rfl
@[simp] theorem setHall_red (h : Nat) (x : HallPort) : (setHall s h x).red = s.red := rfl
@[simp] theorem setHall_all (h : Nat) (x : HallPort) : (setHall s h x).all = s.all := rfl
@[simp] theorem setHall_sync (h : Nat) (x : HallPort) : (setHall s h x).sync = s.sync := rfl
@[simp] theorem setHall_dorm (h : Nat) (x : HallPort) : (setHall s h x).dorm = s.dorm := rfl
@[simp] theorem setHall_obs (h : Nat) (x : HallPort) : (setHall s h x).obs = s.obs := rfl
@[simp] theorem setHall_flt (h : Nat) (x : HallPort) : (setHall s h x).flt = s.flt := rfl
@[simp] theorem setHall_bup (h : Nat) (x : HallPort) : (setHall s h x).bup = s.bup := rfl
@[simp] theorem setHall_pwr (h : Nat) (x : HallPort) : (setHall s h x).pwr = s.pwr := rfl
@[simp] theorem setHall_tbl (h : Nat) (x : HallPort) : (setHall s h x).tbl = s.tbl := rfl
@[simp] theorem setHall_free (h : Nat) (x : HallPort) : (setHall s h x).free = s.free := rfl
@[simp] theorem setHall_out (h : Nat) (x : HallPort) : (setHall s h x).out = s.out := rfl
@[simp] theorem setHall_todo (h : Nat) (x : HallPort) : (setHall s h x).todo = s.todo := rfl
@[simp] theorem setHall_pending (h : Nat) (x : HallPort) : (setHall s h x).pending = s.pending := rfl

@[simp] theorem setInVc_time (st pl inp vc : Nat) (x : InVc) : (setInVc s st pl inp vc x).time = s.time := rfl
@[simp] theorem setInVc_mg (st pl inp vc : Nat) (x : InVc) : (setInVc s st pl inp vc x).mg = s.mg := rfl
@[simp] theorem setInVc_regs (st pl inp vc : Nat) (x : InVc) : (setInVc s st pl inp vc x).regs = s.regs := rfl
@[simp] theorem setInVc_banked (st pl inp vc : Nat) (x : InVc) : (setInVc s st pl inp vc x).banked = s.banked := rfl
@[simp] theorem setInVc_epoch (st pl inp vc : Nat) (x : InVc) : (setInVc s st pl inp vc x).epoch = s.epoch := rfl
@[simp] theorem setInVc_map (st pl inp vc : Nat) (x : InVc) : (setInVc s st pl inp vc x).map = s.map := rfl
@[simp] theorem setInVc_trans (st pl inp vc : Nat) (x : InVc) : (setInVc s st pl inp vc x).trans = s.trans := rfl
@[simp] theorem setInVc_tnt (st pl inp vc : Nat) (x : InVc) : (setInVc s st pl inp vc x).tnt = s.tnt := rfl
@[simp] theorem setInVc_host (st pl inp vc : Nat) (x : InVc) : (setInVc s st pl inp vc x).host = s.host := rfl
@[simp] theorem setInVc_chan (st pl inp vc : Nat) (x : InVc) : (setInVc s st pl inp vc x).chan = s.chan := rfl
@[simp] theorem setInVc_port (st pl inp vc : Nat) (x : InVc) : (setInVc s st pl inp vc x).port = s.port := rfl
@[simp] theorem setInVc_slice (st pl inp vc : Nat) (x : InVc) : (setInVc s st pl inp vc x).slice = s.slice := rfl
@[simp] theorem setInVc_brg (st pl inp vc : Nat) (x : InVc) : (setInVc s st pl inp vc x).brg = s.brg := rfl
@[simp] theorem setInVc_mc (st pl inp vc : Nat) (x : InVc) : (setInVc s st pl inp vc x).mc = s.mc := rfl
@[simp] theorem setInVc_red (st pl inp vc : Nat) (x : InVc) : (setInVc s st pl inp vc x).red = s.red := rfl
@[simp] theorem setInVc_all (st pl inp vc : Nat) (x : InVc) : (setInVc s st pl inp vc x).all = s.all := rfl
@[simp] theorem setInVc_sync (st pl inp vc : Nat) (x : InVc) : (setInVc s st pl inp vc x).sync = s.sync := rfl
@[simp] theorem setInVc_dorm (st pl inp vc : Nat) (x : InVc) : (setInVc s st pl inp vc x).dorm = s.dorm := rfl
@[simp] theorem setInVc_obs (st pl inp vc : Nat) (x : InVc) : (setInVc s st pl inp vc x).obs = s.obs := rfl
@[simp] theorem setInVc_flt (st pl inp vc : Nat) (x : InVc) : (setInVc s st pl inp vc x).flt = s.flt := rfl
@[simp] theorem setInVc_bup (st pl inp vc : Nat) (x : InVc) : (setInVc s st pl inp vc x).bup = s.bup := rfl
@[simp] theorem setInVc_pwr (st pl inp vc : Nat) (x : InVc) : (setInVc s st pl inp vc x).pwr = s.pwr := rfl
@[simp] theorem setInVc_tbl (st pl inp vc : Nat) (x : InVc) : (setInVc s st pl inp vc x).tbl = s.tbl := rfl
@[simp] theorem setInVc_hall (st pl inp vc : Nat) (x : InVc) : (setInVc s st pl inp vc x).hall = s.hall := rfl
@[simp] theorem setInVc_free (st pl inp vc : Nat) (x : InVc) : (setInVc s st pl inp vc x).free = s.free := rfl
@[simp] theorem setInVc_out (st pl inp vc : Nat) (x : InVc) : (setInVc s st pl inp vc x).out = s.out := rfl
@[simp] theorem setInVc_todo (st pl inp vc : Nat) (x : InVc) : (setInVc s st pl inp vc x).todo = s.todo := rfl
@[simp] theorem setInVc_pending (st pl inp vc : Nat) (x : InVc) : (setInVc s st pl inp vc x).pending = s.pending := rfl

@[simp] theorem setOutPort_time (st pl outp : Nat) (x : OutPort) : (setOutPort s st pl outp x).time = s.time := rfl
@[simp] theorem setOutPort_mg (st pl outp : Nat) (x : OutPort) : (setOutPort s st pl outp x).mg = s.mg := rfl
@[simp] theorem setOutPort_regs (st pl outp : Nat) (x : OutPort) : (setOutPort s st pl outp x).regs = s.regs := rfl
@[simp] theorem setOutPort_banked (st pl outp : Nat) (x : OutPort) : (setOutPort s st pl outp x).banked = s.banked := rfl
@[simp] theorem setOutPort_epoch (st pl outp : Nat) (x : OutPort) : (setOutPort s st pl outp x).epoch = s.epoch := rfl
@[simp] theorem setOutPort_map (st pl outp : Nat) (x : OutPort) : (setOutPort s st pl outp x).map = s.map := rfl
@[simp] theorem setOutPort_trans (st pl outp : Nat) (x : OutPort) : (setOutPort s st pl outp x).trans = s.trans := rfl
@[simp] theorem setOutPort_tnt (st pl outp : Nat) (x : OutPort) : (setOutPort s st pl outp x).tnt = s.tnt := rfl
@[simp] theorem setOutPort_host (st pl outp : Nat) (x : OutPort) : (setOutPort s st pl outp x).host = s.host := rfl
@[simp] theorem setOutPort_chan (st pl outp : Nat) (x : OutPort) : (setOutPort s st pl outp x).chan = s.chan := rfl
@[simp] theorem setOutPort_port (st pl outp : Nat) (x : OutPort) : (setOutPort s st pl outp x).port = s.port := rfl
@[simp] theorem setOutPort_slice (st pl outp : Nat) (x : OutPort) : (setOutPort s st pl outp x).slice = s.slice := rfl
@[simp] theorem setOutPort_brg (st pl outp : Nat) (x : OutPort) : (setOutPort s st pl outp x).brg = s.brg := rfl
@[simp] theorem setOutPort_mc (st pl outp : Nat) (x : OutPort) : (setOutPort s st pl outp x).mc = s.mc := rfl
@[simp] theorem setOutPort_red (st pl outp : Nat) (x : OutPort) : (setOutPort s st pl outp x).red = s.red := rfl
@[simp] theorem setOutPort_all (st pl outp : Nat) (x : OutPort) : (setOutPort s st pl outp x).all = s.all := rfl
@[simp] theorem setOutPort_sync (st pl outp : Nat) (x : OutPort) : (setOutPort s st pl outp x).sync = s.sync := rfl
@[simp] theorem setOutPort_dorm (st pl outp : Nat) (x : OutPort) : (setOutPort s st pl outp x).dorm = s.dorm := rfl
@[simp] theorem setOutPort_obs (st pl outp : Nat) (x : OutPort) : (setOutPort s st pl outp x).obs = s.obs := rfl
@[simp] theorem setOutPort_flt (st pl outp : Nat) (x : OutPort) : (setOutPort s st pl outp x).flt = s.flt := rfl
@[simp] theorem setOutPort_bup (st pl outp : Nat) (x : OutPort) : (setOutPort s st pl outp x).bup = s.bup := rfl
@[simp] theorem setOutPort_pwr (st pl outp : Nat) (x : OutPort) : (setOutPort s st pl outp x).pwr = s.pwr := rfl
@[simp] theorem setOutPort_tbl (st pl outp : Nat) (x : OutPort) : (setOutPort s st pl outp x).tbl = s.tbl := rfl
@[simp] theorem setOutPort_hall (st pl outp : Nat) (x : OutPort) : (setOutPort s st pl outp x).hall = s.hall := rfl
@[simp] theorem setOutPort_free (st pl outp : Nat) (x : OutPort) : (setOutPort s st pl outp x).free = s.free := rfl
@[simp] theorem setOutPort_out (st pl outp : Nat) (x : OutPort) : (setOutPort s st pl outp x).out = s.out := rfl
@[simp] theorem setOutPort_todo (st pl outp : Nat) (x : OutPort) : (setOutPort s st pl outp x).todo = s.todo := rfl
@[simp] theorem setOutPort_pending (st pl outp : Nat) (x : OutPort) : (setOutPort s st pl outp x).pending = s.pending := rfl

@[simp] theorem setChan_time (st j : Nat) (c : ChanCnt) : (setChan s st j c).time = s.time := rfl
@[simp] theorem setChan_mg (st j : Nat) (c : ChanCnt) : (setChan s st j c).mg = s.mg := rfl
@[simp] theorem setChan_regs (st j : Nat) (c : ChanCnt) : (setChan s st j c).regs = s.regs := rfl
@[simp] theorem setChan_banked (st j : Nat) (c : ChanCnt) : (setChan s st j c).banked = s.banked := rfl
@[simp] theorem setChan_epoch (st j : Nat) (c : ChanCnt) : (setChan s st j c).epoch = s.epoch := rfl
@[simp] theorem setChan_map (st j : Nat) (c : ChanCnt) : (setChan s st j c).map = s.map := rfl
@[simp] theorem setChan_mesh (st j : Nat) (c : ChanCnt) : (setChan s st j c).mesh = s.mesh := rfl
@[simp] theorem setChan_trans (st j : Nat) (c : ChanCnt) : (setChan s st j c).trans = s.trans := rfl
@[simp] theorem setChan_tnt (st j : Nat) (c : ChanCnt) : (setChan s st j c).tnt = s.tnt := rfl
@[simp] theorem setChan_host (st j : Nat) (c : ChanCnt) : (setChan s st j c).host = s.host := rfl
@[simp] theorem setChan_port (st j : Nat) (c : ChanCnt) : (setChan s st j c).port = s.port := rfl
@[simp] theorem setChan_slice (st j : Nat) (c : ChanCnt) : (setChan s st j c).slice = s.slice := rfl
@[simp] theorem setChan_brg (st j : Nat) (c : ChanCnt) : (setChan s st j c).brg = s.brg := rfl
@[simp] theorem setChan_mc (st j : Nat) (c : ChanCnt) : (setChan s st j c).mc = s.mc := rfl
@[simp] theorem setChan_red (st j : Nat) (c : ChanCnt) : (setChan s st j c).red = s.red := rfl
@[simp] theorem setChan_all (st j : Nat) (c : ChanCnt) : (setChan s st j c).all = s.all := rfl
@[simp] theorem setChan_sync (st j : Nat) (c : ChanCnt) : (setChan s st j c).sync = s.sync := rfl
@[simp] theorem setChan_dorm (st j : Nat) (c : ChanCnt) : (setChan s st j c).dorm = s.dorm := rfl
@[simp] theorem setChan_obs (st j : Nat) (c : ChanCnt) : (setChan s st j c).obs = s.obs := rfl
@[simp] theorem setChan_flt (st j : Nat) (c : ChanCnt) : (setChan s st j c).flt = s.flt := rfl
@[simp] theorem setChan_bup (st j : Nat) (c : ChanCnt) : (setChan s st j c).bup = s.bup := rfl
@[simp] theorem setChan_pwr (st j : Nat) (c : ChanCnt) : (setChan s st j c).pwr = s.pwr := rfl
@[simp] theorem setChan_tbl (st j : Nat) (c : ChanCnt) : (setChan s st j c).tbl = s.tbl := rfl
@[simp] theorem setChan_hall (st j : Nat) (c : ChanCnt) : (setChan s st j c).hall = s.hall := rfl
@[simp] theorem setChan_free (st j : Nat) (c : ChanCnt) : (setChan s st j c).free = s.free := rfl
@[simp] theorem setChan_out (st j : Nat) (c : ChanCnt) : (setChan s st j c).out = s.out := rfl
@[simp] theorem setChan_todo (st j : Nat) (c : ChanCnt) : (setChan s st j c).todo = s.todo := rfl
@[simp] theorem setChan_pending (st j : Nat) (c : ChanCnt) : (setChan s st j c).pending = s.pending := rfl

@[simp] theorem setCmb_time (st j : Nat) (q : CmbQ) : (setCmb s st j q).time = s.time := rfl
@[simp] theorem setCmb_mg (st j : Nat) (q : CmbQ) : (setCmb s st j q).mg = s.mg := rfl
@[simp] theorem setCmb_regs (st j : Nat) (q : CmbQ) : (setCmb s st j q).regs = s.regs := rfl
@[simp] theorem setCmb_banked (st j : Nat) (q : CmbQ) : (setCmb s st j q).banked = s.banked := rfl
@[simp] theorem setCmb_epoch (st j : Nat) (q : CmbQ) : (setCmb s st j q).epoch = s.epoch := rfl
@[simp] theorem setCmb_map (st j : Nat) (q : CmbQ) : (setCmb s st j q).map = s.map := rfl
@[simp] theorem setCmb_mesh (st j : Nat) (q : CmbQ) : (setCmb s st j q).mesh = s.mesh := rfl
@[simp] theorem setCmb_trans (st j : Nat) (q : CmbQ) : (setCmb s st j q).trans = s.trans := rfl
@[simp] theorem setCmb_tnt (st j : Nat) (q : CmbQ) : (setCmb s st j q).tnt = s.tnt := rfl
@[simp] theorem setCmb_host (st j : Nat) (q : CmbQ) : (setCmb s st j q).host = s.host := rfl
@[simp] theorem setCmb_chan (st j : Nat) (q : CmbQ) : (setCmb s st j q).chan = s.chan := rfl
@[simp] theorem setCmb_port (st j : Nat) (q : CmbQ) : (setCmb s st j q).port = s.port := rfl
@[simp] theorem setCmb_slice (st j : Nat) (q : CmbQ) : (setCmb s st j q).slice = s.slice := rfl
@[simp] theorem setCmb_brg (st j : Nat) (q : CmbQ) : (setCmb s st j q).brg = s.brg := rfl
@[simp] theorem setCmb_mc (st j : Nat) (q : CmbQ) : (setCmb s st j q).mc = s.mc := rfl
@[simp] theorem setCmb_all (st j : Nat) (q : CmbQ) : (setCmb s st j q).all = s.all := rfl
@[simp] theorem setCmb_sync (st j : Nat) (q : CmbQ) : (setCmb s st j q).sync = s.sync := rfl
@[simp] theorem setCmb_dorm (st j : Nat) (q : CmbQ) : (setCmb s st j q).dorm = s.dorm := rfl
@[simp] theorem setCmb_obs (st j : Nat) (q : CmbQ) : (setCmb s st j q).obs = s.obs := rfl
@[simp] theorem setCmb_flt (st j : Nat) (q : CmbQ) : (setCmb s st j q).flt = s.flt := rfl
@[simp] theorem setCmb_bup (st j : Nat) (q : CmbQ) : (setCmb s st j q).bup = s.bup := rfl
@[simp] theorem setCmb_pwr (st j : Nat) (q : CmbQ) : (setCmb s st j q).pwr = s.pwr := rfl
@[simp] theorem setCmb_tbl (st j : Nat) (q : CmbQ) : (setCmb s st j q).tbl = s.tbl := rfl
@[simp] theorem setCmb_hall (st j : Nat) (q : CmbQ) : (setCmb s st j q).hall = s.hall := rfl
@[simp] theorem setCmb_free (st j : Nat) (q : CmbQ) : (setCmb s st j q).free = s.free := rfl
@[simp] theorem setCmb_out (st j : Nat) (q : CmbQ) : (setCmb s st j q).out = s.out := rfl
@[simp] theorem setCmb_todo (st j : Nat) (q : CmbQ) : (setCmb s st j q).todo = s.todo := rfl
@[simp] theorem setCmb_pending (st j : Nat) (q : CmbQ) : (setCmb s st j q).pending = s.pending := rfl

@[simp] theorem setGroup_time (g : Nat) (x : Group) : (setGroup s g x).time = s.time := rfl
@[simp] theorem setGroup_mg (g : Nat) (x : Group) : (setGroup s g x).mg = s.mg := rfl
@[simp] theorem setGroup_regs (g : Nat) (x : Group) : (setGroup s g x).regs = s.regs := rfl
@[simp] theorem setGroup_banked (g : Nat) (x : Group) : (setGroup s g x).banked = s.banked := rfl
@[simp] theorem setGroup_epoch (g : Nat) (x : Group) : (setGroup s g x).epoch = s.epoch := rfl
@[simp] theorem setGroup_map (g : Nat) (x : Group) : (setGroup s g x).map = s.map := rfl
@[simp] theorem setGroup_mesh (g : Nat) (x : Group) : (setGroup s g x).mesh = s.mesh := rfl
@[simp] theorem setGroup_trans (g : Nat) (x : Group) : (setGroup s g x).trans = s.trans := rfl
@[simp] theorem setGroup_tnt (g : Nat) (x : Group) : (setGroup s g x).tnt = s.tnt := rfl
@[simp] theorem setGroup_host (g : Nat) (x : Group) : (setGroup s g x).host = s.host := rfl
@[simp] theorem setGroup_chan (g : Nat) (x : Group) : (setGroup s g x).chan = s.chan := rfl
@[simp] theorem setGroup_port (g : Nat) (x : Group) : (setGroup s g x).port = s.port := rfl
@[simp] theorem setGroup_slice (g : Nat) (x : Group) : (setGroup s g x).slice = s.slice := rfl
@[simp] theorem setGroup_brg (g : Nat) (x : Group) : (setGroup s g x).brg = s.brg := rfl
@[simp] theorem setGroup_mc (g : Nat) (x : Group) : (setGroup s g x).mc = s.mc := rfl
@[simp] theorem setGroup_red (g : Nat) (x : Group) : (setGroup s g x).red = s.red := rfl
@[simp] theorem setGroup_sync (g : Nat) (x : Group) : (setGroup s g x).sync = s.sync := rfl
@[simp] theorem setGroup_dorm (g : Nat) (x : Group) : (setGroup s g x).dorm = s.dorm := rfl
@[simp] theorem setGroup_obs (g : Nat) (x : Group) : (setGroup s g x).obs = s.obs := rfl
@[simp] theorem setGroup_flt (g : Nat) (x : Group) : (setGroup s g x).flt = s.flt := rfl
@[simp] theorem setGroup_bup (g : Nat) (x : Group) : (setGroup s g x).bup = s.bup := rfl
@[simp] theorem setGroup_pwr (g : Nat) (x : Group) : (setGroup s g x).pwr = s.pwr := rfl
@[simp] theorem setGroup_tbl (g : Nat) (x : Group) : (setGroup s g x).tbl = s.tbl := rfl
@[simp] theorem setGroup_hall (g : Nat) (x : Group) : (setGroup s g x).hall = s.hall := rfl
@[simp] theorem setGroup_free (g : Nat) (x : Group) : (setGroup s g x).free = s.free := rfl
@[simp] theorem setGroup_out (g : Nat) (x : Group) : (setGroup s g x).out = s.out := rfl
@[simp] theorem setGroup_todo (g : Nat) (x : Group) : (setGroup s g x).todo = s.todo := rfl
@[simp] theorem setGroup_pending (g : Nat) (x : Group) : (setGroup s g x).pending = s.pending := rfl

@[simp] theorem modDesc_time (i : Nat) (f : DescSt → DescSt) : (modDesc s i f).time = s.time := rfl
@[simp] theorem modDesc_mg (i : Nat) (f : DescSt → DescSt) : (modDesc s i f).mg = s.mg := rfl
@[simp] theorem modDesc_regs (i : Nat) (f : DescSt → DescSt) : (modDesc s i f).regs = s.regs := rfl
@[simp] theorem modDesc_banked (i : Nat) (f : DescSt → DescSt) : (modDesc s i f).banked = s.banked := rfl
@[simp] theorem modDesc_epoch (i : Nat) (f : DescSt → DescSt) : (modDesc s i f).epoch = s.epoch := rfl
@[simp] theorem modDesc_map (i : Nat) (f : DescSt → DescSt) : (modDesc s i f).map = s.map := rfl
@[simp] theorem modDesc_mesh (i : Nat) (f : DescSt → DescSt) : (modDesc s i f).mesh = s.mesh := rfl
@[simp] theorem modDesc_trans (i : Nat) (f : DescSt → DescSt) : (modDesc s i f).trans = s.trans := rfl
@[simp] theorem modDesc_tnt (i : Nat) (f : DescSt → DescSt) : (modDesc s i f).tnt = s.tnt := rfl
@[simp] theorem modDesc_chan (i : Nat) (f : DescSt → DescSt) : (modDesc s i f).chan = s.chan := rfl
@[simp] theorem modDesc_port (i : Nat) (f : DescSt → DescSt) : (modDesc s i f).port = s.port := rfl
@[simp] theorem modDesc_slice (i : Nat) (f : DescSt → DescSt) : (modDesc s i f).slice = s.slice := rfl
@[simp] theorem modDesc_brg (i : Nat) (f : DescSt → DescSt) : (modDesc s i f).brg = s.brg := rfl
@[simp] theorem modDesc_mc (i : Nat) (f : DescSt → DescSt) : (modDesc s i f).mc = s.mc := rfl
@[simp] theorem modDesc_red (i : Nat) (f : DescSt → DescSt) : (modDesc s i f).red = s.red := rfl
@[simp] theorem modDesc_all (i : Nat) (f : DescSt → DescSt) : (modDesc s i f).all = s.all := rfl
@[simp] theorem modDesc_sync (i : Nat) (f : DescSt → DescSt) : (modDesc s i f).sync = s.sync := rfl
@[simp] theorem modDesc_dorm (i : Nat) (f : DescSt → DescSt) : (modDesc s i f).dorm = s.dorm := rfl
@[simp] theorem modDesc_obs (i : Nat) (f : DescSt → DescSt) : (modDesc s i f).obs = s.obs := rfl
@[simp] theorem modDesc_flt (i : Nat) (f : DescSt → DescSt) : (modDesc s i f).flt = s.flt := rfl
@[simp] theorem modDesc_bup (i : Nat) (f : DescSt → DescSt) : (modDesc s i f).bup = s.bup := rfl
@[simp] theorem modDesc_pwr (i : Nat) (f : DescSt → DescSt) : (modDesc s i f).pwr = s.pwr := rfl
@[simp] theorem modDesc_tbl (i : Nat) (f : DescSt → DescSt) : (modDesc s i f).tbl = s.tbl := rfl
@[simp] theorem modDesc_hall (i : Nat) (f : DescSt → DescSt) : (modDesc s i f).hall = s.hall := rfl
@[simp] theorem modDesc_free (i : Nat) (f : DescSt → DescSt) : (modDesc s i f).free = s.free := rfl
@[simp] theorem modDesc_out (i : Nat) (f : DescSt → DescSt) : (modDesc s i f).out = s.out := rfl
@[simp] theorem modDesc_todo (i : Nat) (f : DescSt → DescSt) : (modDesc s i f).todo = s.todo := rfl
@[simp] theorem modDesc_pending (i : Nat) (f : DescSt → DescSt) : (modDesc s i f).pending = s.pending := rfl

@[simp] theorem dropLow_time  : (dropLow s).time = s.time := rfl
@[simp] theorem dropLow_regs  : (dropLow s).regs = s.regs := rfl
@[simp] theorem dropLow_banked  : (dropLow s).banked = s.banked := rfl
@[simp] theorem dropLow_epoch  : (dropLow s).epoch = s.epoch := rfl
@[simp] theorem dropLow_map  : (dropLow s).map = s.map := rfl
@[simp] theorem dropLow_mesh  : (dropLow s).mesh = s.mesh := rfl
@[simp] theorem dropLow_trans  : (dropLow s).trans = s.trans := rfl
@[simp] theorem dropLow_tnt  : (dropLow s).tnt = s.tnt := rfl
@[simp] theorem dropLow_host  : (dropLow s).host = s.host := rfl
@[simp] theorem dropLow_chan  : (dropLow s).chan = s.chan := rfl
@[simp] theorem dropLow_port  : (dropLow s).port = s.port := rfl
@[simp] theorem dropLow_slice  : (dropLow s).slice = s.slice := rfl
@[simp] theorem dropLow_brg  : (dropLow s).brg = s.brg := rfl
@[simp] theorem dropLow_mc  : (dropLow s).mc = s.mc := rfl
@[simp] theorem dropLow_red  : (dropLow s).red = s.red := rfl
@[simp] theorem dropLow_all  : (dropLow s).all = s.all := rfl
@[simp] theorem dropLow_sync  : (dropLow s).sync = s.sync := rfl
@[simp] theorem dropLow_dorm  : (dropLow s).dorm = s.dorm := rfl
@[simp] theorem dropLow_obs  : (dropLow s).obs = s.obs := rfl
@[simp] theorem dropLow_flt  : (dropLow s).flt = s.flt := rfl
@[simp] theorem dropLow_bup  : (dropLow s).bup = s.bup := rfl
@[simp] theorem dropLow_pwr  : (dropLow s).pwr = s.pwr := rfl
@[simp] theorem dropLow_tbl  : (dropLow s).tbl = s.tbl := rfl
@[simp] theorem dropLow_hall  : (dropLow s).hall = s.hall := rfl
@[simp] theorem dropLow_free  : (dropLow s).free = s.free := rfl
@[simp] theorem dropLow_out  : (dropLow s).out = s.out := rfl
@[simp] theorem dropLow_todo  : (dropLow s).todo = s.todo := rfl
@[simp] theorem dropLow_pending  : (dropLow s).pending = s.pending := rfl

@[simp] theorem setRq_time (k : StandId) (l : List RqMsg) : (setRq s k l).time = s.time := rfl
@[simp] theorem setRq_mg (k : StandId) (l : List RqMsg) : (setRq s k l).mg = s.mg := rfl
@[simp] theorem setRq_regs (k : StandId) (l : List RqMsg) : (setRq s k l).regs = s.regs := rfl
@[simp] theorem setRq_banked (k : StandId) (l : List RqMsg) : (setRq s k l).banked = s.banked := rfl
@[simp] theorem setRq_epoch (k : StandId) (l : List RqMsg) : (setRq s k l).epoch = s.epoch := rfl
@[simp] theorem setRq_map (k : StandId) (l : List RqMsg) : (setRq s k l).map = s.map := rfl
@[simp] theorem setRq_mesh (k : StandId) (l : List RqMsg) : (setRq s k l).mesh = s.mesh := rfl
@[simp] theorem setRq_trans (k : StandId) (l : List RqMsg) : (setRq s k l).trans = s.trans := rfl
@[simp] theorem setRq_tnt (k : StandId) (l : List RqMsg) : (setRq s k l).tnt = s.tnt := rfl
@[simp] theorem setRq_host (k : StandId) (l : List RqMsg) : (setRq s k l).host = s.host := rfl
@[simp] theorem setRq_chan (k : StandId) (l : List RqMsg) : (setRq s k l).chan = s.chan := rfl
@[simp] theorem setRq_slice (k : StandId) (l : List RqMsg) : (setRq s k l).slice = s.slice := rfl
@[simp] theorem setRq_brg (k : StandId) (l : List RqMsg) : (setRq s k l).brg = s.brg := rfl
@[simp] theorem setRq_mc (k : StandId) (l : List RqMsg) : (setRq s k l).mc = s.mc := rfl
@[simp] theorem setRq_red (k : StandId) (l : List RqMsg) : (setRq s k l).red = s.red := rfl
@[simp] theorem setRq_all (k : StandId) (l : List RqMsg) : (setRq s k l).all = s.all := rfl
@[simp] theorem setRq_sync (k : StandId) (l : List RqMsg) : (setRq s k l).sync = s.sync := rfl
@[simp] theorem setRq_dorm (k : StandId) (l : List RqMsg) : (setRq s k l).dorm = s.dorm := rfl
@[simp] theorem setRq_obs (k : StandId) (l : List RqMsg) : (setRq s k l).obs = s.obs := rfl
@[simp] theorem setRq_flt (k : StandId) (l : List RqMsg) : (setRq s k l).flt = s.flt := rfl
@[simp] theorem setRq_bup (k : StandId) (l : List RqMsg) : (setRq s k l).bup = s.bup := rfl
@[simp] theorem setRq_pwr (k : StandId) (l : List RqMsg) : (setRq s k l).pwr = s.pwr := rfl
@[simp] theorem setRq_tbl (k : StandId) (l : List RqMsg) : (setRq s k l).tbl = s.tbl := rfl
@[simp] theorem setRq_hall (k : StandId) (l : List RqMsg) : (setRq s k l).hall = s.hall := rfl
@[simp] theorem setRq_free (k : StandId) (l : List RqMsg) : (setRq s k l).free = s.free := rfl
@[simp] theorem setRq_out (k : StandId) (l : List RqMsg) : (setRq s k l).out = s.out := rfl
@[simp] theorem setRq_todo (k : StandId) (l : List RqMsg) : (setRq s k l).todo = s.todo := rfl
@[simp] theorem setRq_pending (k : StandId) (l : List RqMsg) : (setRq s k l).pending = s.pending := rfl

@[simp] theorem tally_time (off n : Nat) : (tally s off n).time = s.time := by unfold tally; rw [regSet_time]
@[simp] theorem tally_mg (off n : Nat) : (tally s off n).mg = s.mg := by unfold tally; rw [regSet_mg]
@[simp] theorem tally_banked (off n : Nat) : (tally s off n).banked = s.banked := by unfold tally; rw [regSet_banked]
@[simp] theorem tally_epoch (off n : Nat) : (tally s off n).epoch = s.epoch := by unfold tally; rw [regSet_epoch]
@[simp] theorem tally_map (off n : Nat) : (tally s off n).map = s.map := by unfold tally; rw [regSet_map]
@[simp] theorem tally_mesh (off n : Nat) : (tally s off n).mesh = s.mesh := by unfold tally; rw [regSet_mesh]
@[simp] theorem tally_trans (off n : Nat) : (tally s off n).trans = s.trans := by unfold tally; rw [regSet_trans]
@[simp] theorem tally_tnt (off n : Nat) : (tally s off n).tnt = s.tnt := by unfold tally; rw [regSet_tnt]
@[simp] theorem tally_host (off n : Nat) : (tally s off n).host = s.host := by unfold tally; rw [regSet_host]
@[simp] theorem tally_chan (off n : Nat) : (tally s off n).chan = s.chan := by unfold tally; rw [regSet_chan]
@[simp] theorem tally_port (off n : Nat) : (tally s off n).port = s.port := by unfold tally; rw [regSet_port]
@[simp] theorem tally_slice (off n : Nat) : (tally s off n).slice = s.slice := by unfold tally; rw [regSet_slice]
@[simp] theorem tally_brg (off n : Nat) : (tally s off n).brg = s.brg := by unfold tally; rw [regSet_brg]
@[simp] theorem tally_mc (off n : Nat) : (tally s off n).mc = s.mc := by unfold tally; rw [regSet_mc]
@[simp] theorem tally_red (off n : Nat) : (tally s off n).red = s.red := by unfold tally; rw [regSet_red]
@[simp] theorem tally_all (off n : Nat) : (tally s off n).all = s.all := by unfold tally; rw [regSet_all]
@[simp] theorem tally_sync (off n : Nat) : (tally s off n).sync = s.sync := by unfold tally; rw [regSet_sync]
@[simp] theorem tally_dorm (off n : Nat) : (tally s off n).dorm = s.dorm := by unfold tally; rw [regSet_dorm]
@[simp] theorem tally_obs (off n : Nat) : (tally s off n).obs = s.obs := by unfold tally; rw [regSet_obs]
@[simp] theorem tally_flt (off n : Nat) : (tally s off n).flt = s.flt := by unfold tally; rw [regSet_flt]
@[simp] theorem tally_bup (off n : Nat) : (tally s off n).bup = s.bup := by unfold tally; rw [regSet_bup]
@[simp] theorem tally_pwr (off n : Nat) : (tally s off n).pwr = s.pwr := by unfold tally; rw [regSet_pwr]
@[simp] theorem tally_tbl (off n : Nat) : (tally s off n).tbl = s.tbl := by unfold tally; rw [regSet_tbl]
@[simp] theorem tally_hall (off n : Nat) : (tally s off n).hall = s.hall := by unfold tally; rw [regSet_hall]
@[simp] theorem tally_free (off n : Nat) : (tally s off n).free = s.free := by unfold tally; rw [regSet_free]
@[simp] theorem tally_out (off n : Nat) : (tally s off n).out = s.out := by unfold tally; rw [regSet_out]
@[simp] theorem tally_todo (off n : Nat) : (tally s off n).todo = s.todo := by unfold tally; rw [regSet_todo]
@[simp] theorem tally_pending (off n : Nat) : (tally s off n).pending = s.pending := by unfold tally; rw [regSet_pending]

theorem shadowWrite_cases (n : Nat) : ∃ x, shadowWrite s n = { s with slice := x } := by
  unfold shadowWrite; dsimp only; split
  · exact ⟨s.slice, rfl⟩
  · exact ⟨_, rfl⟩

/-- Setting an object changes the objects, and the slice where it writes the shadow. -/
theorem setObj_cases (n : Nat) (o : SyncObj) :
    ∃ x, setObj s n o = { s with sync := { s.sync with objs := cset {} s.sync.objs n o }, slice := x } := by
  unfold setObj
  obtain ⟨x, h⟩ := shadowWrite_cases { s with sync := { s.sync with objs := cset {} s.sync.objs n o } } n
  exact ⟨x, h⟩

@[simp] theorem setObj_time (n : Nat) (o : SyncObj) : (setObj s n o).time = s.time := by obtain ⟨x, h⟩ := setObj_cases s n o; rw [h]
@[simp] theorem setObj_mg (n : Nat) (o : SyncObj) : (setObj s n o).mg = s.mg := by obtain ⟨x, h⟩ := setObj_cases s n o; rw [h]
@[simp] theorem setObj_regs (n : Nat) (o : SyncObj) : (setObj s n o).regs = s.regs := by obtain ⟨x, h⟩ := setObj_cases s n o; rw [h]
@[simp] theorem setObj_banked (n : Nat) (o : SyncObj) : (setObj s n o).banked = s.banked := by obtain ⟨x, h⟩ := setObj_cases s n o; rw [h]
@[simp] theorem setObj_epoch (n : Nat) (o : SyncObj) : (setObj s n o).epoch = s.epoch := by obtain ⟨x, h⟩ := setObj_cases s n o; rw [h]
@[simp] theorem setObj_map (n : Nat) (o : SyncObj) : (setObj s n o).map = s.map := by obtain ⟨x, h⟩ := setObj_cases s n o; rw [h]
@[simp] theorem setObj_mesh (n : Nat) (o : SyncObj) : (setObj s n o).mesh = s.mesh := by obtain ⟨x, h⟩ := setObj_cases s n o; rw [h]
@[simp] theorem setObj_trans (n : Nat) (o : SyncObj) : (setObj s n o).trans = s.trans := by obtain ⟨x, h⟩ := setObj_cases s n o; rw [h]
@[simp] theorem setObj_tnt (n : Nat) (o : SyncObj) : (setObj s n o).tnt = s.tnt := by obtain ⟨x, h⟩ := setObj_cases s n o; rw [h]
@[simp] theorem setObj_host (n : Nat) (o : SyncObj) : (setObj s n o).host = s.host := by obtain ⟨x, h⟩ := setObj_cases s n o; rw [h]
@[simp] theorem setObj_chan (n : Nat) (o : SyncObj) : (setObj s n o).chan = s.chan := by obtain ⟨x, h⟩ := setObj_cases s n o; rw [h]
@[simp] theorem setObj_port (n : Nat) (o : SyncObj) : (setObj s n o).port = s.port := by obtain ⟨x, h⟩ := setObj_cases s n o; rw [h]
@[simp] theorem setObj_brg (n : Nat) (o : SyncObj) : (setObj s n o).brg = s.brg := by obtain ⟨x, h⟩ := setObj_cases s n o; rw [h]
@[simp] theorem setObj_mc (n : Nat) (o : SyncObj) : (setObj s n o).mc = s.mc := by obtain ⟨x, h⟩ := setObj_cases s n o; rw [h]
@[simp] theorem setObj_red (n : Nat) (o : SyncObj) : (setObj s n o).red = s.red := by obtain ⟨x, h⟩ := setObj_cases s n o; rw [h]
@[simp] theorem setObj_all (n : Nat) (o : SyncObj) : (setObj s n o).all = s.all := by obtain ⟨x, h⟩ := setObj_cases s n o; rw [h]
@[simp] theorem setObj_dorm (n : Nat) (o : SyncObj) : (setObj s n o).dorm = s.dorm := by obtain ⟨x, h⟩ := setObj_cases s n o; rw [h]
@[simp] theorem setObj_obs (n : Nat) (o : SyncObj) : (setObj s n o).obs = s.obs := by obtain ⟨x, h⟩ := setObj_cases s n o; rw [h]
@[simp] theorem setObj_flt (n : Nat) (o : SyncObj) : (setObj s n o).flt = s.flt := by obtain ⟨x, h⟩ := setObj_cases s n o; rw [h]
@[simp] theorem setObj_bup (n : Nat) (o : SyncObj) : (setObj s n o).bup = s.bup := by obtain ⟨x, h⟩ := setObj_cases s n o; rw [h]
@[simp] theorem setObj_pwr (n : Nat) (o : SyncObj) : (setObj s n o).pwr = s.pwr := by obtain ⟨x, h⟩ := setObj_cases s n o; rw [h]
@[simp] theorem setObj_tbl (n : Nat) (o : SyncObj) : (setObj s n o).tbl = s.tbl := by obtain ⟨x, h⟩ := setObj_cases s n o; rw [h]
@[simp] theorem setObj_hall (n : Nat) (o : SyncObj) : (setObj s n o).hall = s.hall := by obtain ⟨x, h⟩ := setObj_cases s n o; rw [h]
@[simp] theorem setObj_free (n : Nat) (o : SyncObj) : (setObj s n o).free = s.free := by obtain ⟨x, h⟩ := setObj_cases s n o; rw [h]
@[simp] theorem setObj_out (n : Nat) (o : SyncObj) : (setObj s n o).out = s.out := by obtain ⟨x, h⟩ := setObj_cases s n o; rw [h]
@[simp] theorem setObj_todo (n : Nat) (o : SyncObj) : (setObj s n o).todo = s.todo := by obtain ⟨x, h⟩ := setObj_cases s n o; rw [h]
@[simp] theorem setObj_pending (n : Nat) (o : SyncObj) : (setObj s n o).pending = s.pending := by obtain ⟨x, h⟩ := setObj_cases s n o; rw [h]

theorem refuseWrite_cases (off : Nat) : ∃ e m, refuseWrite s off = { s with flt := { s.flt with
    inbox := s.flt.inbox ++ [e], sent := s.flt.sent ++ [m] } } := by
  unfold refuseWrite raise; split <;> exact ⟨_, _, rfl⟩

@[simp] theorem refuseWrite_time (off : Nat) : (refuseWrite s off).time = s.time := by obtain ⟨e, m, h⟩ := refuseWrite_cases s off; rw [h]
@[simp] theorem refuseWrite_mg (off : Nat) : (refuseWrite s off).mg = s.mg := by obtain ⟨e, m, h⟩ := refuseWrite_cases s off; rw [h]
@[simp] theorem refuseWrite_regs (off : Nat) : (refuseWrite s off).regs = s.regs := by obtain ⟨e, m, h⟩ := refuseWrite_cases s off; rw [h]
@[simp] theorem refuseWrite_banked (off : Nat) : (refuseWrite s off).banked = s.banked := by obtain ⟨e, m, h⟩ := refuseWrite_cases s off; rw [h]
@[simp] theorem refuseWrite_epoch (off : Nat) : (refuseWrite s off).epoch = s.epoch := by obtain ⟨e, m, h⟩ := refuseWrite_cases s off; rw [h]
@[simp] theorem refuseWrite_map (off : Nat) : (refuseWrite s off).map = s.map := by obtain ⟨e, m, h⟩ := refuseWrite_cases s off; rw [h]
@[simp] theorem refuseWrite_mesh (off : Nat) : (refuseWrite s off).mesh = s.mesh := by obtain ⟨e, m, h⟩ := refuseWrite_cases s off; rw [h]
@[simp] theorem refuseWrite_trans (off : Nat) : (refuseWrite s off).trans = s.trans := by obtain ⟨e, m, h⟩ := refuseWrite_cases s off; rw [h]
@[simp] theorem refuseWrite_tnt (off : Nat) : (refuseWrite s off).tnt = s.tnt := by obtain ⟨e, m, h⟩ := refuseWrite_cases s off; rw [h]
@[simp] theorem refuseWrite_host (off : Nat) : (refuseWrite s off).host = s.host := by obtain ⟨e, m, h⟩ := refuseWrite_cases s off; rw [h]
@[simp] theorem refuseWrite_chan (off : Nat) : (refuseWrite s off).chan = s.chan := by obtain ⟨e, m, h⟩ := refuseWrite_cases s off; rw [h]
@[simp] theorem refuseWrite_port (off : Nat) : (refuseWrite s off).port = s.port := by obtain ⟨e, m, h⟩ := refuseWrite_cases s off; rw [h]
@[simp] theorem refuseWrite_slice (off : Nat) : (refuseWrite s off).slice = s.slice := by obtain ⟨e, m, h⟩ := refuseWrite_cases s off; rw [h]
@[simp] theorem refuseWrite_brg (off : Nat) : (refuseWrite s off).brg = s.brg := by obtain ⟨e, m, h⟩ := refuseWrite_cases s off; rw [h]
@[simp] theorem refuseWrite_mc (off : Nat) : (refuseWrite s off).mc = s.mc := by obtain ⟨e, m, h⟩ := refuseWrite_cases s off; rw [h]
@[simp] theorem refuseWrite_red (off : Nat) : (refuseWrite s off).red = s.red := by obtain ⟨e, m, h⟩ := refuseWrite_cases s off; rw [h]
@[simp] theorem refuseWrite_all (off : Nat) : (refuseWrite s off).all = s.all := by obtain ⟨e, m, h⟩ := refuseWrite_cases s off; rw [h]
@[simp] theorem refuseWrite_sync (off : Nat) : (refuseWrite s off).sync = s.sync := by obtain ⟨e, m, h⟩ := refuseWrite_cases s off; rw [h]
@[simp] theorem refuseWrite_dorm (off : Nat) : (refuseWrite s off).dorm = s.dorm := by obtain ⟨e, m, h⟩ := refuseWrite_cases s off; rw [h]
@[simp] theorem refuseWrite_obs (off : Nat) : (refuseWrite s off).obs = s.obs := by obtain ⟨e, m, h⟩ := refuseWrite_cases s off; rw [h]
@[simp] theorem refuseWrite_bup (off : Nat) : (refuseWrite s off).bup = s.bup := by obtain ⟨e, m, h⟩ := refuseWrite_cases s off; rw [h]
@[simp] theorem refuseWrite_pwr (off : Nat) : (refuseWrite s off).pwr = s.pwr := by obtain ⟨e, m, h⟩ := refuseWrite_cases s off; rw [h]
@[simp] theorem refuseWrite_tbl (off : Nat) : (refuseWrite s off).tbl = s.tbl := by obtain ⟨e, m, h⟩ := refuseWrite_cases s off; rw [h]
@[simp] theorem refuseWrite_hall (off : Nat) : (refuseWrite s off).hall = s.hall := by obtain ⟨e, m, h⟩ := refuseWrite_cases s off; rw [h]
@[simp] theorem refuseWrite_free (off : Nat) : (refuseWrite s off).free = s.free := by obtain ⟨e, m, h⟩ := refuseWrite_cases s off; rw [h]
@[simp] theorem refuseWrite_out (off : Nat) : (refuseWrite s off).out = s.out := by obtain ⟨e, m, h⟩ := refuseWrite_cases s off; rw [h]
@[simp] theorem refuseWrite_todo (off : Nat) : (refuseWrite s off).todo = s.todo := by obtain ⟨e, m, h⟩ := refuseWrite_cases s off; rw [h]
@[simp] theorem refuseWrite_pending (off : Nat) : (refuseWrite s off).pending = s.pending := by obtain ⟨e, m, h⟩ := refuseWrite_cases s off; rw [h]

end Sys2Proof.Machine
end

