-- ==== Sys2Proof/Laws/Table.lean ====
section
/-! SUPPORT. Laws of tables: what is read after an update, and that updates keep the canonical form. -/

namespace Sys2Proof.Machine

variable {α : Type}

theorem tget_cons (d : Nat → α) (j : Nat) (v : α) (r : Tbl α) (k : Nat) :
    tget d ((j, v) :: r) k = if j = k then v else tget d r k := rfl

theorem tget_filter (d : Nat → α) (p : Nat → Bool) (t : Tbl α) (k : Nat) (h : p k = true) :
    tget d (t.filter (fun x => p x.1)) k = tget d t k := by
  induction t with
  | nil => rfl
  | cons a r ih =>
    obtain ⟨j, v⟩ := a
    by_cases hj : j = k
    · subst hj; simp [h, tget_cons]
    · by_cases hp : p j = true <;> simp [hp, tget_cons, hj, ih]

theorem tget_absent (d : Nat → α) (t : Tbl α) (k : Nat) (h : ∀ x ∈ t, x.1 ≠ k) : tget d t k = d k := by
  induction t with
  | nil => rfl
  | cons a r ih =>
    obtain ⟨j, v⟩ := a
    have hj : j ≠ k := h (j, v) (by simp)
    rw [tget_cons, if_neg hj]
    exact ih (fun x hx => h x (by simp [hx]))

theorem tget_terase_other (d : Nat → α) (t : Tbl α) (k j : Nat) (h : j ≠ k) : tget d (terase t k) j = tget d t j :=
  tget_filter d (fun x => decide (x ≠ k)) t j (by simp [h])

theorem tget_terase_same (d : Nat → α) (t : Tbl α) (k : Nat) : tget d (terase t k) k = d k := by
  apply tget_absent; intro x hx; simp [terase] at hx; exact hx.2

theorem tget_tinsert (d : Nat → α) (t : Tbl α) (k : Nat) (v : α) (j : Nat) (h : ∀ x ∈ t, x.1 ≠ k) :
    tget d (tinsert t k v) j = if j = k then v else tget d t j := by
  induction t with
  | nil =>
    by_cases h : j = k
    · subst h; simp [tinsert, tget_cons]
    · have : ¬ k = j := fun e => h e.symm
      simp [tinsert, tget_cons, h, this]
  | cons a r ih =>
    obtain ⟨i, w⟩ := a
    have hi : i ≠ k := h (i, w) (by simp)
    unfold tinsert
    by_cases hk : k < i
    · rw [if_pos hk, tget_cons]
      by_cases hj : j = k
      · simp [hj]
      · have : ¬ k = j := fun e => hj e.symm
        simp [hj, this]
    · rw [if_neg hk, tget_cons, tget_cons, ih (fun x hx => h x (by simp [hx]))]
      by_cases hij : i = j
      · subst hij; simp [hi]
      · simp [hij]

theorem terase_absent (t : Tbl α) (k : Nat) : ∀ x ∈ terase t k, x.1 ≠ k := by
  intro x hx; simp [terase] at hx; exact hx.2

/-- A read after an update: the value at its own key, what was there at every other. -/
theorem tget_tset [DecidableEq α] (d : Nat → α) (t : Tbl α) (k : Nat) (v : α) (j : Nat) :
    tget d (tset d t k v) j = if j = k then v else tget d t j := by
  unfold tset
  by_cases hv : v = d k
  · rw [if_pos hv]
    by_cases hj : j = k
    · subst hj; simp [tget_terase_same, hv]
    · simp [hj, tget_terase_other d t k j hj]
  · rw [if_neg hv, tget_tinsert d (terase t k) k v j (terase_absent t k)]
    by_cases hj : j = k
    · simp [hj]
    · simp [hj, tget_terase_other d t k j hj]

@[simp] theorem tget_tset_same [DecidableEq α] (d : Nat → α) (t : Tbl α) (k : Nat) (v : α) : tget d (tset d t k v) k = v := by
  simp [tget_tset]

theorem tget_tset_other [DecidableEq α] (d : Nat → α) (t : Tbl α) (k j : Nat) (v : α) (h : j ≠ k) :
    tget d (tset d t k v) j = tget d t j := by simp [tget_tset, h]

theorem cget_cset [DecidableEq α] (d : α) (t : Tbl α) (k : Nat) (v : α) (j : Nat) :
    cget d (cset d t k v) j = if j = k then v else cget d t j := tget_tset _ t k v j

@[simp] theorem cget_cset_same [DecidableEq α] (d : α) (t : Tbl α) (k : Nat) (v : α) : cget d (cset d t k v) k = v := by
  simp [cget_cset]

theorem oget_oset [DecidableEq α] (t : Tbl (Option α)) (k : Nat) (v : Option α) (j : Nat) :
    oget (oset t k v) j = if j = k then v else oget t j := tget_tset _ t k v j

@[simp] theorem oget_oset_same [DecidableEq α] (t : Tbl (Option α)) (k : Nat) (v : Option α) : oget (oset t k v) k = v := by
  simp [oget_oset]

theorem tget_tmod [DecidableEq α] (d : Nat → α) (t : Tbl α) (k : Nat) (f : α → α) (j : Nat) :
    tget d (tmod d t k f) j = if j = k then f (tget d t k) else tget d t j := tget_tset d t k _ j

theorem cget_cmod [DecidableEq α] (d : α) (t : Tbl α) (k : Nat) (f : α → α) (j : Nat) :
    cget d (cmod d t k f) j = if j = k then f (cget d t k) else cget d t j := tget_tset _ t k _ j

/-- A cleared range reads as unlisted; every other key as before. -/
theorem tget_tclear (d : Nat → α) (t : Tbl α) (lo n k : Nat) :
    tget d (tclear t lo n) k = if lo ≤ k ∧ k < lo + n then d k else tget d t k := by
  by_cases h : lo ≤ k ∧ k < lo + n
  · rw [if_pos h]; apply tget_absent; intro x hx he
    simp [tclear] at hx; omega
  · rw [if_neg h]
    exact tget_filter d (fun x => !(decide (lo ≤ x) && decide (x < lo + n))) t k
      (by simp only [Bool.not_eq_true', Bool.and_eq_false_iff, decide_eq_false_iff_not]; omega)

theorem twf_cons [DecidableEq α] (d : Nat → α) (k : Nat) (v : α) (r : Tbl α) :
    twf d ((k, v) :: r) = true ↔ v ≠ d k ∧ (∀ p ∈ r, k < p.1) ∧ twf d r = true := by
  simp [twf, and_assoc]

theorem twf_filter [DecidableEq α] (d : Nat → α) (p : Nat × α → Bool) (t : Tbl α) (h : twf d t = true) : twf d (t.filter p) = true := by
  induction t with
  | nil => rfl
  | cons a r ih =>
    obtain ⟨k, v⟩ := a
    rw [twf_cons] at h
    by_cases hp : p (k, v) = true
    · rw [List.filter_cons_of_pos hp, twf_cons]
      exact ⟨h.1, fun q hq => h.2.1 q (List.mem_filter.1 hq).1, ih h.2.2⟩
    · rw [List.filter_cons_of_neg hp]; exact ih h.2.2

theorem mem_tinsert (t : Tbl α) (k : Nat) (v : α) (x : Nat × α) (h : x ∈ tinsert t k v) : x = (k, v) ∨ x ∈ t := by
  induction t with
  | nil => simpa [tinsert] using h
  | cons a r ih =>
    obtain ⟨j, w⟩ := a
    unfold tinsert at h
    split at h
    · simpa using h
    · rcases List.mem_cons.1 h with e | e
      · simp [e]
      · rcases ih e with e | e <;> simp [e]

theorem twf_tinsert [DecidableEq α] (d : Nat → α) (t : Tbl α) (k : Nat) (v : α) (h : twf d t = true) (ha : ∀ x ∈ t, x.1 ≠ k) (hv : v ≠ d k) :
    twf d (tinsert t k v) = true := by
  induction t with
  | nil => simp [tinsert, twf, hv]
  | cons a r ih =>
    obtain ⟨j, w⟩ := a
    have h0 := h
    rw [twf_cons] at h
    have hj : j ≠ k := ha (j, w) (by simp)
    unfold tinsert
    split
    · rename_i hk
      rw [twf_cons]
      refine ⟨hv, ?_, h0⟩
      intro p hp
      rcases List.mem_cons.1 hp with e | e
      · rw [e]; exact hk
      · have := h.2.1 p e; omega
    · rename_i hk
      rw [twf_cons]
      refine ⟨h.1, ?_, ih h.2.2 (fun x hx => ha x (by simp [hx]))⟩
      intro p hp
      rcases mem_tinsert r k v p hp with e | e
      · rw [e]; simp; omega
      · exact h.2.1 p e

/-- An update keeps the canonical form. -/
theorem twf_tset [DecidableEq α] (d : Nat → α) (t : Tbl α) (k : Nat) (v : α) (h : twf d t = true) : twf d (tset d t k v) = true := by
  unfold tset
  have he : twf d (terase t k) = true := twf_filter d _ t h
  split
  · exact he
  · rename_i hv; exact twf_tinsert d _ k v he (terase_absent t k) hv

/-- A cleared range keeps the canonical form. -/
theorem twf_tclear [DecidableEq α] (d : Nat → α) (t : Tbl α) (lo n : Nat) (h : twf d t = true) : twf d (tclear t lo n) = true :=
  twf_filter d _ t h

end Sys2Proof.Machine
end

