-- ==== Sys2Proof/Laws/Step.lean ====
section
/-! SUPPORT. Laws of the step and of the frame around a command's effect: what `keep`, `run`, the management port and the reports of a
step do, each once, so that later proofs need not unfold them. -/

namespace Sys2Proof.Machine

theorem step_cons (c : Instr) (r : List Instr) (s : State) (h : s.pending = c :: r) : step s = exec c { s with pending := r } := by
  unfold step; split
  · rename_i e; rw [h] at e; cases e
  · rename_i e; rw [h] at e; cases e; rfl

theorem step_empty (s : State) (h : s.pending = []) : step s = .next { s with time := s.time + 1 } := by
  unfold step; split
  · rfl
  · rename_i e; rw [h] at e; cases e

section
variable (s t : State)

@[simp] theorem keep_pending : (keep s t).pending = s.pending := rfl
@[simp] theorem keep_mg : (keep s t).mg = s.mg := rfl
@[simp] theorem keep_todo : (keep s t).todo = [] := rfl
@[simp] theorem keep_time : (keep s t).time = max s.time t.time := rfl
@[simp] theorem keep_regs : (keep s t).regs = t.regs := rfl
@[simp] theorem keep_banked : (keep s t).banked = t.banked := rfl
@[simp] theorem keep_epoch : (keep s t).epoch = t.epoch := rfl
@[simp] theorem keep_map : (keep s t).map = t.map := rfl
@[simp] theorem keep_mesh : (keep s t).mesh = t.mesh := rfl
@[simp] theorem keep_trans : (keep s t).trans = t.trans := rfl
@[simp] theorem keep_tnt : (keep s t).tnt = t.tnt := rfl
@[simp] theorem keep_host : (keep s t).host = t.host := rfl
@[simp] theorem keep_chan : (keep s t).chan = t.chan := rfl
@[simp] theorem keep_port : (keep s t).port = t.port := rfl
@[simp] theorem keep_slice : (keep s t).slice = t.slice := rfl
@[simp] theorem keep_brg : (keep s t).brg = t.brg := rfl
@[simp] theorem keep_mc : (keep s t).mc = t.mc := rfl
@[simp] theorem keep_red : (keep s t).red = t.red := rfl
@[simp] theorem keep_all : (keep s t).all = t.all := rfl
@[simp] theorem keep_sync : (keep s t).sync = t.sync := rfl
@[simp] theorem keep_dorm : (keep s t).dorm = t.dorm := rfl
@[simp] theorem keep_obs : (keep s t).obs = t.obs := rfl
@[simp] theorem keep_flt : (keep s t).flt = t.flt := rfl
@[simp] theorem keep_bup : (keep s t).bup = t.bup := rfl
@[simp] theorem keep_pwr : (keep s t).pwr = t.pwr := rfl
@[simp] theorem keep_tbl : (keep s t).tbl = t.tbl := rfl
@[simp] theorem keep_hall : (keep s t).hall = t.hall := rfl
@[simp] theorem keep_free : (keep s t).free = t.free := rfl
@[simp] theorem keep_out : (keep s t).out = t.out := rfl
end

/-- Out of reset, a gated command is its effect. -/
theorem run_up (s : State) (f : State → State) (h : s.mg.porst = true) : run s f = .next (keep s (f s)) := by
  unfold run; rw [if_pos h]

/-- In reset, a gated command has none (R374). -/
theorem run_low (s : State) (f : State → State) (h : s.mg.porst = false) : run s f = .next s := by
  unfold run; rw [h]; rfl

/-- A register write that the port serves. -/
theorem mgStep_up (s : State) (off : Nat) (v : Word) (eff : Word → Word → State → State) (h1 : s.mg.porst = true)
    (h2 : s.mg.rstN = true) (h3 : windowGirdled s off = false) :
    mgStep s off v eff =
      .next (mgAnswer (keep (dropLow s) (eff allBits v (dropLow s))) 0 false) := by
  unfold mgStep mgWrite64
  simp only [h1, h2, h3, Bool.not_true, Bool.false_eq_true, if_false]

theorem settleN_nil (n : Nat) (s : State) (h : s.todo = []) : settleN n s = s := by
  cases n with
  | zero => rfl
  | succ n => unfold settleN; rw [h]

/-- With nothing to report, settling changes nothing. -/
theorem settle_nil (s : State) (h : s.todo = []) : settle s = s := settleN_nil _ s h

theorem regGet_regSet (s : State) (off : Nat) (v : Word) (o : Nat) :
    regGet (regSet s off v) o = if o = off then v else regGet s o := tget_tset _ _ _ _ _

@[simp] theorem regGet_regSet_same (s : State) (off : Nat) (v : Word) : regGet (regSet s off v) off = v := by simp [regGet_regSet]

theorem bkGet_bkSet (s : State) (p : Bool) (off : Nat) (v : Word) (o : Nat) :
    bkGet (bkSet s p off v) p o = if o = off then v else bkGet s p o := by
  unfold bkGet bkSet
  dsimp only
  rw [tget_tset]
  unfold bkKey
  cases p <;> simp

/-- The STATUS of a record is the one it was made with (R174), so a RECORD's header has it too (R352). -/
@[simp] theorem record_status (typ : Nat) (flags : BitVec 8) (st : Status) (tag : Nat) (addr result : Word) (sqidx : Nat) :
    statusOfCode (leAt (record typ flags st tag addr result sqidx) 2 2) = st := by
  have h : leAt (record typ flags st tag addr result sqidx) 2 2 = statusCode st := by
    simp only [leAt, sub, record, leBytes, List.cons_append, List.nil_append, List.drop_succ_cons, List.drop_zero, List.take_succ_cons, List.take_zero, leNat]
    cases st <;> rfl
  rw [h]; cases st <;> decide

end Sys2Proof.Machine
end

