-- ==== Sys2Proof/Laws/Forms.lean ====
section
/-! SUPPORT. The form of every command's meaning, one lemma a command: what holds of the four forms holds of every command. -/

namespace Sys2Proof.Machine

/-- The forms that a command's meaning takes: gated by `FAB_PORST_N`, a 64-bit register write, a word access of the management port, or
one of the two reset inputs, or a change of another input pin. -/
inductive MeaningForm (s : State) : Step → Prop where
  | gated (f : State → State) : MeaningForm s (run s f)
  | write (off : Nat) (v : Word) (eff : Word → Word → State → State) : MeaningForm s (mgStep s off v eff)
  | store (a : BitVec 22) (d : BitVec 32) : MeaningForm s (mgServe s (wordReg a) (writeWord32 a d))
  | load (a : BitVec 22) : MeaningForm s (mgServe s (wordReg a) (readWord32 a))
  | mgLow : MeaningForm s (.next (mgReset s))
  | mgHigh : MeaningForm s (.next (mgRelease s))
  | porLow : MeaningForm s (.next (porstLow s))
  | porHigh : MeaningForm s (.next (porstHigh s))
  | pin (low f : State → State) : MeaningForm s (runPin s low f)

theorem form_msg (s : State) (f : State → State) : MeaningForm s (runMsg s f) := .gated _
theorem form_registerWrite (s : State) {a} {d}  : MeaningForm s (exec (.registerWrite a d) s) := by
  show MeaningForm s (execRegisterWrite a d s)
  unfold execRegisterWrite
  exact .store a d
theorem form_lowWordRead (s : State) {a}  : MeaningForm s (exec (.lowWordRead a) s) := by
  show MeaningForm s (execLowWordRead a s)
  unfold execLowWordRead
  exact .load a
theorem form_rcRegisterRead (s : State) {a}  : MeaningForm s (exec (.rcRegisterRead a) s) := by
  show MeaningForm s (execRcRegisterRead a s)
  unfold execRcRegisterRead
  exact .load a
theorem form_mgRstNAssert (s : State) : MeaningForm s (exec (.mgRstNAssert) s) := by
  show MeaningForm s (execMgRstNAssert s)
  unfold execMgRstNAssert
  exact .mgLow
theorem form_fabPorstNAssert (s : State) : MeaningForm s (exec (.fabPorstNAssert) s) := by
  show MeaningForm s (execFabPorstNAssert s)
  unfold execFabPorstNAssert
  exact .porLow
theorem form_fabPorstNRelease (s : State) : MeaningForm s (exec (.fabPorstNRelease) s) := by
  show MeaningForm s (execFabPorstNRelease s)
  unfold execFabPorstNRelease
  exact .porHigh
theorem form_bringupStageReport (s : State) {x0}  : MeaningForm s (exec (.bringupStageReport x0) s) := by
  show MeaningForm s (execBringupStageReport x0 s)
  unfold execBringupStageReport
  exact form_msg _ _
theorem form_s1LivenessDeadline (s : State) : MeaningForm s (exec (.s1LivenessDeadline) s) := by
  show MeaningForm s (execS1LivenessDeadline s)
  unfold execS1LivenessDeadline
  exact .gated _
theorem form_memoryTestTierReport (s : State) {x0}  : MeaningForm s (exec (.memoryTestTierReport x0) s) := by
  show MeaningForm s (execMemoryTestTierReport x0 s)
  unfold execMemoryTestTierReport
  exact .gated _
theorem form_memoryTestRetentionPauseEnd (s : State) : MeaningForm s (exec (.memoryTestRetentionPauseEnd) s) := by
  show MeaningForm s (execMemoryTestRetentionPauseEnd s)
  unfold execMemoryTestRetentionPauseEnd
  exact .gated _
theorem form_bupNotifyEnable (s : State) {x0}  : MeaningForm s (exec (.bupNotifyEnable x0) s) := by
  show MeaningForm s (execBupNotifyEnable x0 s)
  unfold execBupNotifyEnable
  exact .write _ _ _
theorem form_glbSelfWrite (s : State) {x0}  : MeaningForm s (exec (.glbSelfWrite x0) s) := by
  show MeaningForm s (execGlbSelfWrite x0 s)
  unfold execGlbSelfWrite
  exact .write _ _ _
theorem form_tierMapStagedWrite (s : State) {x0} {x1} {x2}  : MeaningForm s (exec (.tierMapStagedWrite x0 x1 x2) s) := by
  show MeaningForm s (execTierMapStagedWrite x0 x1 x2 s)
  unfold execTierMapStagedWrite
  exact .write _ _ _
theorem form_coppiceWrite (s : State) {x0} {x1}  : MeaningForm s (exec (.coppiceWrite x0 x1) s) := by
  show MeaningForm s (execCoppiceWrite x0 x1 s)
  unfold execCoppiceWrite
  exact .write _ _ _
theorem form_rehomeCommandReceive (s : State) {x0} {x1} {x2}  : MeaningForm s (exec (.rehomeCommandReceive x0 x1 x2) s) := by
  show MeaningForm s (execRehomeCommandReceive x0 x1 x2 s)
  unfold execRehomeCommandReceive
  exact .gated _
theorem form_frondReceive (s : State) {x0} {x1} {x2} {x3}  : MeaningForm s (exec (.frondReceive x0 x1 x2 x3) s) := by
  show MeaningForm s (execFrondReceive x0 x1 x2 x3 s)
  unfold execFrondReceive
  exact .gated _
theorem form_creditAuditCounts (s : State) {x0} {x1} {x2} {x3}  : MeaningForm s (exec (.creditAuditCounts x0 x1 x2 x3) s) := by
  show MeaningForm s (execCreditAuditCounts x0 x1 x2 x3 s)
  unfold execCreditAuditCounts
  exact .gated _
theorem form_creditReturn (s : State) {x0} {x1} {x2} {x3}  : MeaningForm s (exec (.creditReturn x0 x1 x2 x3) s) := by
  show MeaningForm s (execCreditReturn x0 x1 x2 x3 s)
  unfold execCreditReturn
  exact .gated _
theorem form_outputArbitrate (s : State) {x0} {x1} {x2}  : MeaningForm s (exec (.outputArbitrate x0 x1 x2) s) := by
  show MeaningForm s (execOutputArbitrate x0 x1 x2 s)
  unfold execOutputArbitrate
  exact .gated _
theorem form_stdRouteWrite (s : State) {x0} {x1} {x2}  : MeaningForm s (exec (.stdRouteWrite x0 x1 x2) s) := by
  show MeaningForm s (execStdRouteWrite x0 x1 x2 s)
  unfold execStdRouteWrite
  exact .write _ _ _
theorem form_glbExitWrite (s : State) {x0} {x1}  : MeaningForm s (exec (.glbExitWrite x0 x1) s) := by
  show MeaningForm s (execGlbExitWrite x0 x1 s)
  unfold execGlbExitWrite
  exact .write _ _ _
theorem form_stallDetect (s : State) {x0} {x1} {x2} {x3}  : MeaningForm s (exec (.stallDetect x0 x1 x2 x3) s) := by
  show MeaningForm s (execStallDetect x0 x1 x2 x3 s)
  unfold execStallDetect
  exact .gated _
theorem form_epochSwitchRequest (s : State) {x0}  : MeaningForm s (exec (.epochSwitchRequest x0) s) := by
  show MeaningForm s (execEpochSwitchRequest x0 s)
  unfold execEpochSwitchRequest
  exact .write _ _ _
theorem form_flipReceive (s : State) {x0}  : MeaningForm s (exec (.flipReceive x0) s) := by
  show MeaningForm s (execFlipReceive x0 s)
  unfold execFlipReceive
  exact .gated _
theorem form_flipAck (s : State) {x0}  : MeaningForm s (exec (.flipAck x0) s) := by
  show MeaningForm s (execFlipAck x0 s)
  unfold execFlipAck
  exact .gated _
theorem form_epochDrainComplete (s : State) : MeaningForm s (exec (.epochDrainComplete) s) := by
  show MeaningForm s (execEpochDrainComplete s)
  unfold execEpochDrainComplete
  exact .gated _
theorem form_epochDrainTimeout (s : State) : MeaningForm s (exec (.epochDrainTimeout) s) := by
  show MeaningForm s (execEpochDrainTimeout s)
  unfold execEpochDrainTimeout
  exact .gated _
theorem form_epochCopyComplete (s : State) : MeaningForm s (exec (.epochCopyComplete) s) := by
  show MeaningForm s (execEpochCopyComplete s)
  unfold execEpochCopyComplete
  exact .gated _
theorem form_messageArrival (s : State) {x0} {x1}  : MeaningForm s (exec (.messageArrival x0 x1) s) := by
  show MeaningForm s (execMessageArrival x0 x1 s)
  unfold execMessageArrival
  exact form_msg _ _
theorem form_ackTimer (s : State) {x0} {x1}  : MeaningForm s (exec (.ackTimer x0 x1) s) := by
  show MeaningForm s (execAckTimer x0 x1 s)
  unfold execAckTimer
  exact .gated _
theorem form_transportAckReceive (s : State) {x0} {x1}  : MeaningForm s (exec (.transportAckReceive x0 x1) s) := by
  show MeaningForm s (execTransportAckReceive x0 x1 s)
  unfold execTransportAckReceive
  exact form_msg _ _
theorem form_responseReceive (s : State) {x0} {x1}  : MeaningForm s (exec (.responseReceive x0 x1) s) := by
  show MeaningForm s (execResponseReceive x0 x1 s)
  unfold execResponseReceive
  exact form_msg _ _
theorem form_retransmitTimeout (s : State) {x0} {x1} {x2}  : MeaningForm s (exec (.retransmitTimeout x0 x1 x2) s) := by
  show MeaningForm s (execRetransmitTimeout x0 x1 x2 s)
  unfold execRetransmitTimeout
  exact form_msg _ _
theorem form_messageTimeout (s : State) {x0} {x1} {x2}  : MeaningForm s (exec (.messageTimeout x0 x1 x2) s) := by
  show MeaningForm s (execMessageTimeout x0 x1 x2 s)
  unfold execMessageTimeout
  exact form_msg _ _
theorem form_implicitSlotFree (s : State) {x0}  : MeaningForm s (exec (.implicitSlotFree x0) s) := by
  show MeaningForm s (execImplicitSlotFree x0 s)
  unfold execImplicitSlotFree
  exact form_msg _ _
theorem form_tenantAdmit (s : State) {x0}  : MeaningForm s (exec (.tenantAdmit x0) s) := by
  show MeaningForm s (execTenantAdmit x0 s)
  unfold execTenantAdmit tntCmdStep
  exact .write _ _ _
theorem form_tenantRetire (s : State) {x0}  : MeaningForm s (exec (.tenantRetire x0) s) := by
  show MeaningForm s (execTenantRetire x0 s)
  unfold execTenantRetire tntCmdStep
  exact .write _ _ _
theorem form_tenantPeek (s : State) {x0}  : MeaningForm s (exec (.tenantPeek x0) s) := by
  show MeaningForm s (execTenantPeek x0 s)
  unfold execTenantPeek tntCmdStep
  exact .write _ _ _
theorem form_tenantShapeWrite (s : State) {x0} {x1}  : MeaningForm s (exec (.tenantShapeWrite x0 x1) s) := by
  show MeaningForm s (execTenantShapeWrite x0 x1 s)
  unfold execTenantShapeWrite
  exact .write _ _ _
theorem form_tenantPoliceWrite (s : State) {x0} {x1}  : MeaningForm s (exec (.tenantPoliceWrite x0 x1) s) := by
  show MeaningForm s (execTenantPoliceWrite x0 x1 s)
  unfold execTenantPoliceWrite
  exact .write _ _ _
theorem form_corePortBindWrite (s : State) {x0} {x1}  : MeaningForm s (exec (.corePortBindWrite x0 x1) s) := by
  show MeaningForm s (execCorePortBindWrite x0 x1 s)
  unfold execCorePortBindWrite
  exact .write _ _ _
theorem form_dpZeroComplete (s : State) {x0}  : MeaningForm s (exec (.dpZeroComplete x0) s) := by
  show MeaningForm s (execDpZeroComplete x0 s)
  unfold execDpZeroComplete
  exact .gated _
theorem form_shareMapWrite (s : State) {x0}  : MeaningForm s (exec (.shareMapWrite x0) s) := by
  show MeaningForm s (execShareMapWrite x0 s)
  unfold execShareMapWrite
  exact .write _ _ _
theorem form_shaperDispatch (s : State) {x0}  : MeaningForm s (exec (.shaperDispatch x0) s) := by
  show MeaningForm s (execShaperDispatch x0 s)
  unfold execShaperDispatch
  exact form_msg _ _
theorem form_sqTailDoorbell (s : State) {x0}  : MeaningForm s (exec (.sqTailDoorbell x0) s) := by
  show MeaningForm s (execSqTailDoorbell x0 s)
  unfold execSqTailDoorbell
  exact .gated _
theorem form_cqHeadDoorbell (s : State) {x0}  : MeaningForm s (exec (.cqHeadDoorbell x0) s) := by
  show MeaningForm s (execCqHeadDoorbell x0 s)
  unfold execCqHeadDoorbell
  exact .gated _
theorem form_doorbellBaseWrite (s : State) {x0}  : MeaningForm s (exec (.doorbellBaseWrite x0) s) := by
  show MeaningForm s (execDoorbellBaseWrite x0 s)
  unfold execDoorbellBaseWrite
  exact .write _ _ _
theorem form_descriptorFetch (s : State) {x0}  : MeaningForm s (exec (.descriptorFetch x0) s) := by
  show MeaningForm s (execDescriptorFetch x0 s)
  unfold execDescriptorFetch
  exact .gated _
theorem form_descriptorAccept (s : State) {x0}  : MeaningForm s (exec (.descriptorAccept x0) s) := by
  show MeaningForm s (execDescriptorAccept x0 s)
  unfold execDescriptorAccept
  exact form_msg _ _
theorem form_copy (s : State) {x0}  : MeaningForm s (exec (.copy x0) s) := by
  show MeaningForm s (execCopy x0 s)
  unfold execCopy
  exact form_msg _ _
theorem form_fill (s : State) {x0}  : MeaningForm s (exec (.fill x0) s) := by
  show MeaningForm s (execFill x0 s)
  unfold execFill
  exact form_msg _ _
theorem form_send (s : State) {x0}  : MeaningForm s (exec (.send x0) s) := by
  show MeaningForm s (execSend x0 s)
  unfold execSend
  exact form_msg _ _
theorem form_mcast (s : State) {x0}  : MeaningForm s (exec (.mcast x0) s) := by
  show MeaningForm s (execMcast x0 s)
  unfold execMcast
  exact form_msg _ _
theorem form_allsum (s : State) {x0}  : MeaningForm s (exec (.allsum x0) s) := by
  show MeaningForm s (execAllsum x0 s)
  unfold execAllsum
  exact form_msg _ _
theorem form_signal (s : State) {x0}  : MeaningForm s (exec (.signal x0) s) := by
  show MeaningForm s (execSignal x0 s)
  unfold execSignal
  exact form_msg _ _
theorem form_wait (s : State) {x0}  : MeaningForm s (exec (.wait x0) s) := by
  show MeaningForm s (execWait x0 s)
  unfold execWait
  exact form_msg _ _
theorem form_mark (s : State) {x0}  : MeaningForm s (exec (.mark x0) s) := by
  show MeaningForm s (execMark x0 s)
  unfold execMark
  exact form_msg _ _
theorem form_atomic (s : State) {x0}  : MeaningForm s (exec (.atomic x0) s) := by
  show MeaningForm s (execAtomic x0 s)
  unfold execAtomic
  exact form_msg _ _
theorem form_fence (s : State) {x0}  : MeaningForm s (exec (.fence x0) s) := by
  show MeaningForm s (execFence x0 s)
  unfold execFence
  exact form_msg _ _
theorem form_group (s : State) {x0}  : MeaningForm s (exec (.group x0) s) := by
  show MeaningForm s (execGroup x0 s)
  unfold execGroup
  exact form_msg _ _
theorem form_arm (s : State) {x0}  : MeaningForm s (exec (.arm x0) s) := by
  show MeaningForm s (execArm x0 s)
  unfold execArm
  exact form_msg _ _
theorem form_armDisarm (s : State) {x0}  : MeaningForm s (exec (.armDisarm x0) s) := by
  show MeaningForm s (execArmDisarm x0 s)
  unfold execArmDisarm
  exact form_msg _ _
theorem form_fenceRelease (s : State) {x0}  : MeaningForm s (exec (.fenceRelease x0) s) := by
  show MeaningForm s (execFenceRelease x0 s)
  unfold execFenceRelease
  exact form_msg _ _
theorem form_groupRunResume (s : State) {x0}  : MeaningForm s (exec (.groupRunResume x0) s) := by
  show MeaningForm s (execGroupRunResume x0 s)
  unfold execGroupRunResume
  exact form_msg _ _
theorem form_workItemReceive (s : State) {x0} {x1}  : MeaningForm s (exec (.workItemReceive x0 x1) s) := by
  show MeaningForm s (execWorkItemReceive x0 x1 s)
  unfold execWorkItemReceive
  exact form_msg _ _
theorem form_holdingRecordWrite (s : State) : MeaningForm s (exec (.holdingRecordWrite) s) := by
  show MeaningForm s (execHoldingRecordWrite s)
  unfold execHoldingRecordWrite
  exact form_msg _ _
theorem form_ringOpen (s : State) {x0}  : MeaningForm s (exec (.ringOpen x0) s) := by
  show MeaningForm s (execRingOpen x0 s)
  unfold execRingOpen
  exact .write _ _ _
theorem form_ringClose (s : State) {x0}  : MeaningForm s (exec (.ringClose x0) s) := by
  show MeaningForm s (execRingClose x0 s)
  unfold execRingClose
  exact .write _ _ _
theorem form_ringPeek (s : State) {x0}  : MeaningForm s (exec (.ringPeek x0) s) := by
  show MeaningForm s (execRingPeek x0 s)
  unfold execRingPeek
  exact .write _ _ _
theorem form_channelSlotWrite (s : State) {x0} {x1} {x2} {x3}  : MeaningForm s (exec (.channelSlotWrite x0 x1 x2 x3) s) := by
  show MeaningForm s (execChannelSlotWrite x0 x1 x2 x3 s)
  unfold execChannelSlotWrite
  exact .write _ _ _
theorem form_releaseWordAccess (s : State) {x0} {x1} {x2} {x3}  : MeaningForm s (exec (.releaseWordAccess x0 x1 x2 x3) s) := by
  show MeaningForm s (execReleaseWordAccess x0 x1 x2 x3 s)
  unfold execReleaseWordAccess
  exact .gated _
theorem form_chainWrite (s : State) {x0} {x1}  : MeaningForm s (exec (.chainWrite x0 x1) s) := by
  show MeaningForm s (execChainWrite x0 x1 s)
  unfold execChainWrite
  exact .write _ _ _
theorem form_memberSlotWrite (s : State) {x0} {x1} {x2} {x3}  : MeaningForm s (exec (.memberSlotWrite x0 x1 x2 x3) s) := by
  show MeaningForm s (execMemberSlotWrite x0 x1 x2 x3 s)
  unfold execMemberSlotWrite
  exact .write _ _ _
theorem form_mcastDispatch (s : State) {x0}  : MeaningForm s (exec (.mcastDispatch x0) s) := by
  show MeaningForm s (execMcastDispatch x0 s)
  unfold execMcastDispatch
  exact form_msg _ _
theorem form_mcastReceive (s : State) {x0} {x1}  : MeaningForm s (exec (.mcastReceive x0 x1) s) := by
  show MeaningForm s (execMcastReceive x0 x1 s)
  unfold execMcastReceive
  exact form_msg _ _
theorem form_mcastReportReceive (s : State) {x0} {x1} {x2}  : MeaningForm s (exec (.mcastReportReceive x0 x1 x2) s) := by
  show MeaningForm s (execMcastReportReceive x0 x1 x2 s)
  unfold execMcastReportReceive
  exact form_msg _ _
theorem form_mcastReportTimeout (s : State) {x0} {x1}  : MeaningForm s (exec (.mcastReportTimeout x0 x1) s) := by
  show MeaningForm s (execMcastReportTimeout x0 x1 s)
  unfold execMcastReportTimeout
  exact form_msg _ _
theorem form_combiningQueueWrite (s : State) {x0} {x1} {x2} {x3}  : MeaningForm s (exec (.combiningQueueWrite x0 x1 x2 x3) s) := by
  show MeaningForm s (execCombiningQueueWrite x0 x1 x2 x3 s)
  unfold execCombiningQueueWrite
  exact .write _ _ _
theorem form_contributionReceive (s : State) {x0} {x1}  : MeaningForm s (exec (.contributionReceive x0 x1) s) := by
  show MeaningForm s (execContributionReceive x0 x1 s)
  unfold execContributionReceive
  exact form_msg _ _
theorem form_landingWriteComplete (s : State) {x0} {x1}  : MeaningForm s (exec (.landingWriteComplete x0 x1) s) := by
  show MeaningForm s (execLandingWriteComplete x0 x1 s)
  unfold execLandingWriteComplete
  exact form_msg _ _
theorem form_combiningTimeout (s : State) {x0} {x1}  : MeaningForm s (exec (.combiningTimeout x0 x1) s) := by
  show MeaningForm s (execCombiningTimeout x0 x1 s)
  unfold execCombiningTimeout
  exact form_msg _ _
theorem form_reducerTestArm (s : State) {x0} {x1}  : MeaningForm s (exec (.reducerTestArm x0 x1) s) := by
  show MeaningForm s (execReducerTestArm x0 x1 s)
  unfold execReducerTestArm
  exact .write _ _ _
theorem form_tileReceive (s : State) {x0} {x1}  : MeaningForm s (exec (.tileReceive x0 x1) s) := by
  show MeaningForm s (execTileReceive x0 x1 s)
  unfold execTileReceive
  exact form_msg _ _
theorem form_triggerReceive (s : State) {x0} {x1}  : MeaningForm s (exec (.triggerReceive x0 x1) s) := by
  show MeaningForm s (execTriggerReceive x0 x1 s)
  unfold execTriggerReceive
  exact form_msg _ _
theorem form_stageMessageReceive (s : State) {x0} {x1}  : MeaningForm s (exec (.stageMessageReceive x0 x1) s) := by
  show MeaningForm s (execStageMessageReceive x0 x1 s)
  unfold execStageMessageReceive
  exact form_msg _ _
theorem form_allsumLossWaitExpiry (s : State) {x0} {x1} {x2} {x3} {x4}  : MeaningForm s (exec (.allsumLossWaitExpiry x0 x1 x2 x3 x4) s) := by
  show MeaningForm s (execAllsumLossWaitExpiry x0 x1 x2 x3 x4 s)
  unfold execAllsumLossWaitExpiry
  exact form_msg _ _
theorem form_allsumResultAbandon (s : State) {x0} {x1} {x2}  : MeaningForm s (exec (.allsumResultAbandon x0 x1 x2) s) := by
  show MeaningForm s (execAllsumResultAbandon x0 x1 x2 s)
  unfold execAllsumResultAbandon
  exact form_msg _ _
theorem form_nearPortAccess (s : State) {x0} {x1} {x2}  : MeaningForm s (exec (.nearPortAccess x0 x1 x2) s) := by
  show MeaningForm s (execNearPortAccess x0 x1 x2 s)
  unfold execNearPortAccess
  exact form_msg _ _
theorem form_bankHandover (s : State) {x0} {x1} {x2}  : MeaningForm s (exec (.bankHandover x0 x1 x2) s) := by
  show MeaningForm s (execBankHandover x0 x1 x2 s)
  unfold execBankHandover
  exact .write _ _ _
theorem form_bankRetWrite (s : State) {x0} {x1} {x2}  : MeaningForm s (exec (.bankRetWrite x0 x1 x2) s) := by
  show MeaningForm s (execBankRetWrite x0 x1 x2 s)
  unfold execBankRetWrite
  exact .write _ _ _
theorem form_bankWipeComplete (s : State) {x0} {x1}  : MeaningForm s (exec (.bankWipeComplete x0 x1) s) := by
  show MeaningForm s (execBankWipeComplete x0 x1 s)
  unfold execBankWipeComplete
  exact .gated _
theorem form_bankRetentionEntered (s : State) {x0} {x1}  : MeaningForm s (exec (.bankRetentionEntered x0 x1) s) := by
  show MeaningForm s (execBankRetentionEntered x0 x1 s)
  unfold execBankRetentionEntered
  exact .gated _
theorem form_bankWakeComplete (s : State) {x0} {x1}  : MeaningForm s (exec (.bankWakeComplete x0 x1) s) := by
  show MeaningForm s (execBankWakeComplete x0 x1 s)
  unfold execBankWakeComplete
  exact .gated _
theorem form_twinFillComplete (s : State) {x0}  : MeaningForm s (exec (.twinFillComplete x0) s) := by
  show MeaningForm s (execTwinFillComplete x0 s)
  unfold execTwinFillComplete
  exact .gated _
theorem form_scrubRead (s : State) {x0}  : MeaningForm s (exec (.scrubRead x0) s) := by
  show MeaningForm s (execScrubRead x0 s)
  unfold execScrubRead
  exact .gated _
theorem form_sliceModeWrite (s : State) {x0} {x1}  : MeaningForm s (exec (.sliceModeWrite x0 x1) s) := by
  show MeaningForm s (execSliceModeWrite x0 x1 s)
  unfold execSliceModeWrite
  exact .write _ _ _
theorem form_rawRead (s : State) {x0} {x1}  : MeaningForm s (exec (.rawRead x0 x1) s) := by
  show MeaningForm s (execRawRead x0 x1 s)
  unfold execRawRead
  exact .write _ _ _
theorem form_rawWrite (s : State) {x0} {x1}  : MeaningForm s (exec (.rawWrite x0 x1) s) := by
  show MeaningForm s (execRawWrite x0 x1 s)
  unfold execRawWrite
  exact .write _ _ _
theorem form_syncObjectWrite (s : State) {x0} {x1}  : MeaningForm s (exec (.syncObjectWrite x0 x1) s) := by
  show MeaningForm s (execSyncObjectWrite x0 x1 s)
  unfold execSyncObjectWrite
  exact .write _ _ _
theorem form_syncControlWrite (s : State) {x0} {x1}  : MeaningForm s (exec (.syncControlWrite x0 x1) s) := by
  show MeaningForm s (execSyncControlWrite x0 x1 s)
  unfold execSyncControlWrite
  exact .write _ _ _
theorem form_signalApply (s : State) {x0} {x1}  : MeaningForm s (exec (.signalApply x0 x1) s) := by
  show MeaningForm s (execSignalApply x0 x1 s)
  unfold execSignalApply
  exact .gated _
theorem form_watchRegister (s : State) {x0}  : MeaningForm s (exec (.watchRegister x0) s) := by
  show MeaningForm s (execWatchRegister x0 s)
  unfold execWatchRegister
  exact form_msg _ _
theorem form_watchReport (s : State) {x0}  : MeaningForm s (exec (.watchReport x0) s) := by
  show MeaningForm s (execWatchReport x0 s)
  unfold execWatchReport
  exact form_msg _ _
theorem form_watchRelease (s : State) {x0}  : MeaningForm s (exec (.watchRelease x0) s) := by
  show MeaningForm s (execWatchRelease x0 s)
  unfold execWatchRelease
  exact form_msg _ _
theorem form_waitTimeout (s : State) {x0}  : MeaningForm s (exec (.waitTimeout x0) s) := by
  show MeaningForm s (execWaitTimeout x0 s)
  unfold execWaitTimeout
  exact form_msg _ _
theorem form_waitPoll (s : State) {x0}  : MeaningForm s (exec (.waitPoll x0) s) := by
  show MeaningForm s (execWaitPoll x0 s)
  unfold execWaitPoll
  exact form_msg _ _
theorem form_barrierRewrite (s : State) {x0} {x1} {x2}  : MeaningForm s (exec (.barrierRewrite x0 x1 x2) s) := by
  show MeaningForm s (execBarrierRewrite x0 x1 x2 s)
  unfold execBarrierRewrite
  exact .write _ _ _
theorem form_barrierArrival (s : State) {x0} {x1}  : MeaningForm s (exec (.barrierArrival x0 x1) s) := by
  show MeaningForm s (execBarrierArrival x0 x1 s)
  unfold execBarrierArrival rqRow
  exact form_msg _ _
theorem form_barrierTimeout (s : State) {x0}  : MeaningForm s (exec (.barrierTimeout x0) s) := by
  show MeaningForm s (execBarrierTimeout x0 s)
  unfold execBarrierTimeout
  exact .gated _
theorem form_sidebandUpdateReceive (s : State) {x0} {x1} {x2}  : MeaningForm s (exec (.sidebandUpdateReceive x0 x1 x2) s) := by
  show MeaningForm s (execSidebandUpdateReceive x0 x1 x2 s)
  unfold execSidebandUpdateReceive
  exact .gated _
theorem form_sidebandResend (s : State) : MeaningForm s (exec (.sidebandResend) s) := by
  show MeaningForm s (execSidebandResend s)
  unfold execSidebandResend
  exact .gated _
theorem form_sidebandLoss (s : State) {x0}  : MeaningForm s (exec (.sidebandLoss x0) s) := by
  show MeaningForm s (execSidebandLoss x0 s)
  unfold execSidebandLoss
  exact .gated _
theorem form_dormancyNow (s : State) {x0}  : MeaningForm s (exec (.dormancyNow x0) s) := by
  show MeaningForm s (execDormancyNow x0 s)
  unfold execDormancyNow
  exact .write _ _ _
theorem form_dormancyWakeWrite (s : State) {x0}  : MeaningForm s (exec (.dormancyWakeWrite x0) s) := by
  show MeaningForm s (execDormancyWakeWrite x0 s)
  unfold execDormancyWakeWrite
  exact .write _ _ _
theorem form_dormancyIdleExpiry (s : State) : MeaningForm s (exec (.dormancyIdleExpiry) s) := by
  show MeaningForm s (execDormancyIdleExpiry s)
  unfold execDormancyIdleExpiry
  exact .gated _
theorem form_dormancyProposeReceive (s : State) {x0}  : MeaningForm s (exec (.dormancyProposeReceive x0) s) := by
  show MeaningForm s (execDormancyProposeReceive x0 s)
  unfold execDormancyProposeReceive
  exact .gated _
theorem form_dormancyVote (s : State) {x0} {x1} {x2}  : MeaningForm s (exec (.dormancyVote x0 x1 x2) s) := by
  show MeaningForm s (execDormancyVote x0 x1 x2 s)
  unfold execDormancyVote
  exact .gated _
theorem form_dormancyVoteTimeout (s : State) : MeaningForm s (exec (.dormancyVoteTimeout) s) := by
  show MeaningForm s (execDormancyVoteTimeout s)
  unfold execDormancyVoteTimeout
  exact .gated _
theorem form_dormancyCommit (s : State) {x0}  : MeaningForm s (exec (.dormancyCommit x0) s) := by
  show MeaningForm s (execDormancyCommit x0 s)
  unfold execDormancyCommit
  exact .gated _
theorem form_dormancyEntryComplete (s : State) : MeaningForm s (exec (.dormancyEntryComplete) s) := by
  show MeaningForm s (execDormancyEntryComplete s)
  unfold execDormancyEntryComplete
  exact .gated _
theorem form_dormancyExitStart (s : State) : MeaningForm s (exec (.dormancyExitStart) s) := by
  show MeaningForm s (execDormancyExitStart s)
  unfold execDormancyExitStart
  exact .gated _
theorem form_dormancyExitComplete (s : State) : MeaningForm s (exec (.dormancyExitComplete) s) := by
  show MeaningForm s (execDormancyExitComplete s)
  unfold execDormancyExitComplete
  exact form_msg _ _
theorem form_corePortDesc (s : State) {x0} {x1}  : MeaningForm s (exec (.corePortDesc x0 x1) s) := by
  show MeaningForm s (execCorePortDesc x0 x1 s)
  unfold execCorePortDesc rqRow
  exact form_msg _ _
theorem form_corePortWrite (s : State) {x0} {x1}  : MeaningForm s (exec (.corePortWrite x0 x1) s) := by
  show MeaningForm s (execCorePortWrite x0 x1 s)
  unfold execCorePortWrite rqRow
  exact form_msg _ _
theorem form_corePortRead (s : State) {x0} {x1}  : MeaningForm s (exec (.corePortRead x0 x1) s) := by
  show MeaningForm s (execCorePortRead x0 x1 s)
  unfold execCorePortRead rqRow
  exact form_msg _ _
theorem form_corePortAtomic (s : State) {x0} {x1}  : MeaningForm s (exec (.corePortAtomic x0 x1) s) := by
  show MeaningForm s (execCorePortAtomic x0 x1 s)
  unfold execCorePortAtomic rqRow
  exact form_msg _ _
theorem form_corePortSignal (s : State) {x0} {x1}  : MeaningForm s (exec (.corePortSignal x0 x1) s) := by
  show MeaningForm s (execCorePortSignal x0 x1 s)
  unfold execCorePortSignal rqRow
  exact form_msg _ _
theorem form_corePortReduce (s : State) {x0} {x1}  : MeaningForm s (exec (.corePortReduce x0 x1) s) := by
  show MeaningForm s (execCorePortReduce x0 x1 s)
  unfold execCorePortReduce rqRow
  exact form_msg _ _
theorem form_wakeAck (s : State) {x0}  : MeaningForm s (exec (.wakeAck x0) s) := by
  show MeaningForm s (execWakeAck x0 s)
  unfold execWakeAck
  exact .gated _
theorem form_targetRequestReceive (s : State) {x0} {x1}  : MeaningForm s (exec (.targetRequestReceive x0 x1) s) := by
  show MeaningForm s (execTargetRequestReceive x0 x1 s)
  unfold execTargetRequestReceive
  exact form_msg _ _
theorem form_trAnswer (s : State) {x0} {x1} {x2} {x3}  : MeaningForm s (exec (.trAnswer x0 x1 x2 x3) s) := by
  show MeaningForm s (execTrAnswer x0 x1 x2 x3 s)
  unfold execTrAnswer
  exact .gated _
theorem form_hangDetect (s : State) {x0} {x1}  : MeaningForm s (exec (.hangDetect x0 x1) s) := by
  show MeaningForm s (execHangDetect x0 x1 s)
  unfold execHangDetect
  exact .gated _
theorem form_coreResetAssert (s : State) {x0}  : MeaningForm s (exec (.coreResetAssert x0) s) := by
  show MeaningForm s (execCoreResetAssert x0 s)
  unfold execCoreResetAssert
  exact .pin _ _
theorem form_coreResetRelease (s : State) {x0}  : MeaningForm s (exec (.coreResetRelease x0) s) := by
  show MeaningForm s (execCoreResetRelease x0 s)
  unfold execCoreResetRelease
  exact .pin _ _
theorem form_portFabricReset (s : State) {x0} {x1}  : MeaningForm s (exec (.portFabricReset x0 x1) s) := by
  show MeaningForm s (execPortFabricReset x0 x1 s)
  unfold execPortFabricReset
  exact .write _ _ _
theorem form_resyncAck (s : State) {x0}  : MeaningForm s (exec (.resyncAck x0) s) := by
  show MeaningForm s (execResyncAck x0 s)
  unfold execResyncAck
  exact form_msg _ _
theorem form_resyncTimeout (s : State) {x0}  : MeaningForm s (exec (.resyncTimeout x0) s) := by
  show MeaningForm s (execResyncTimeout x0 s)
  unfold execResyncTimeout
  exact .gated _
theorem form_edgeRetrain (s : State) {x0} {x1}  : MeaningForm s (exec (.edgeRetrain x0 x1) s) := by
  show MeaningForm s (execEdgeRetrain x0 x1 s)
  unfold execEdgeRetrain
  exact .write _ _ _
theorem form_modulePhyUp (s : State) {x0} {x1} {x2}  : MeaningForm s (exec (.modulePhyUp x0 x1 x2) s) := by
  show MeaningForm s (execModulePhyUp x0 x1 x2 s)
  unfold execModulePhyUp
  exact .gated _
theorem form_moduleTrainFail (s : State) {x0} {x1}  : MeaningForm s (exec (.moduleTrainFail x0 x1) s) := by
  show MeaningForm s (execModuleTrainFail x0 x1 s)
  unfold execModuleTrainFail
  exact .gated _
theorem form_moduleTrainRetry (s : State) {x0} {x1}  : MeaningForm s (exec (.moduleTrainRetry x0 x1) s) := by
  show MeaningForm s (execModuleTrainRetry x0 x1 s)
  unfold execModuleTrainRetry
  exact .gated _
theorem form_helloSend (s : State) {x0} {x1}  : MeaningForm s (exec (.helloSend x0 x1) s) := by
  show MeaningForm s (execHelloSend x0 x1 s)
  unfold execHelloSend
  exact .gated _
theorem form_helloReceive (s : State) {x0} {x1} {x2}  : MeaningForm s (exec (.helloReceive x0 x1 x2) s) := by
  show MeaningForm s (execHelloReceive x0 x1 x2 s)
  unfold execHelloReceive
  exact .gated _
theorem form_helloTimeout (s : State) {x0} {x1}  : MeaningForm s (exec (.helloTimeout x0 x1) s) := by
  show MeaningForm s (execHelloTimeout x0 x1 s)
  unfold execHelloTimeout
  exact .gated _
theorem form_moduleRecalStart (s : State) {x0} {x1}  : MeaningForm s (exec (.moduleRecalStart x0 x1) s) := by
  show MeaningForm s (execModuleRecalStart x0 x1 s)
  unfold execModuleRecalStart
  exact .gated _
theorem form_moduleRecalDone (s : State) {x0} {x1}  : MeaningForm s (exec (.moduleRecalDone x0 x1) s) := by
  show MeaningForm s (execModuleRecalDone x0 x1 s)
  unfold execModuleRecalDone
  exact .gated _
theorem form_moduleRecalTimeout (s : State) {x0} {x1}  : MeaningForm s (exec (.moduleRecalTimeout x0 x1) s) := by
  show MeaningForm s (execModuleRecalTimeout x0 x1 s)
  unfold execModuleRecalTimeout
  exact .gated _
theorem form_bridgeSlotReceive (s : State) {x0} {x1} {x2}  : MeaningForm s (exec (.bridgeSlotReceive x0 x1 x2) s) := by
  show MeaningForm s (execBridgeSlotReceive x0 x1 x2 s)
  unfold execBridgeSlotReceive
  exact form_msg _ _
theorem form_bridgeAuditReceive (s : State) {x0} {x1} {x2}  : MeaningForm s (exec (.bridgeAuditReceive x0 x1 x2) s) := by
  show MeaningForm s (execBridgeAuditReceive x0 x1 x2 s)
  unfold execBridgeAuditReceive
  exact .gated _
theorem form_hallLinkUp (s : State) {x0}  : MeaningForm s (exec (.hallLinkUp x0) s) := by
  show MeaningForm s (execHallLinkUp x0 s)
  unfold execHallLinkUp
  exact .pin _ _
theorem form_hallLinkDown (s : State) {x0}  : MeaningForm s (exec (.hallLinkDown x0) s) := by
  show MeaningForm s (execHallLinkDown x0 s)
  unfold execHallLinkDown
  exact .pin _ _
theorem form_hallPortEnableWrite (s : State) {x0} {x1}  : MeaningForm s (exec (.hallPortEnableWrite x0 x1) s) := by
  show MeaningForm s (execHallPortEnableWrite x0 x1 s)
  unfold execHallPortEnableWrite
  exact .write _ _ _
theorem form_hallOpen (s : State) {x0} {x1}  : MeaningForm s (exec (.hallOpen x0 x1) s) := by
  show MeaningForm s (execHallOpen x0 x1 s)
  unfold execHallOpen
  exact .gated _
theorem form_hallOpenAck (s : State) {x0} {x1}  : MeaningForm s (exec (.hallOpenAck x0 x1) s) := by
  show MeaningForm s (execHallOpenAck x0 x1 s)
  unfold execHallOpenAck
  exact .gated _
theorem form_hallData (s : State) {x0} {x1}  : MeaningForm s (exec (.hallData x0 x1) s) := by
  show MeaningForm s (execHallData x0 x1 s)
  unfold execHallData
  exact form_msg _ _
theorem form_hallAck (s : State) {x0} {x1}  : MeaningForm s (exec (.hallAck x0 x1) s) := by
  show MeaningForm s (execHallAck x0 x1 s)
  unfold execHallAck
  exact .gated _
theorem form_hallRefuse (s : State) {x0} {x1}  : MeaningForm s (exec (.hallRefuse x0 x1) s) := by
  show MeaningForm s (execHallRefuse x0 x1 s)
  unfold execHallRefuse
  exact .gated _
theorem form_hallSkip (s : State) {x0} {x1}  : MeaningForm s (exec (.hallSkip x0 x1) s) := by
  show MeaningForm s (execHallSkip x0 x1 s)
  unfold execHallSkip
  exact form_msg _ _
theorem form_hallContextOpen (s : State) {x0} {x1}  : MeaningForm s (exec (.hallContextOpen x0 x1) s) := by
  show MeaningForm s (execHallContextOpen x0 x1 s)
  unfold execHallContextOpen
  exact .gated _
theorem form_hallOpenTimeout (s : State) {x0} {x1}  : MeaningForm s (exec (.hallOpenTimeout x0 x1) s) := by
  show MeaningForm s (execHallOpenTimeout x0 x1 s)
  unfold execHallOpenTimeout
  exact .gated _
theorem form_hallContextIdle (s : State) {x0} {x1}  : MeaningForm s (exec (.hallContextIdle x0 x1) s) := by
  show MeaningForm s (execHallContextIdle x0 x1 s)
  unfold execHallContextIdle
  exact .gated _
theorem form_hallUnseqRetry (s : State) {x0} {x1}  : MeaningForm s (exec (.hallUnseqRetry x0 x1) s) := by
  show MeaningForm s (execHallUnseqRetry x0 x1 s)
  unfold execHallUnseqRetry
  exact .gated _
theorem form_hallRetransmitTimeout (s : State) {x0} {x1} {x2}  : MeaningForm s (exec (.hallRetransmitTimeout x0 x1 x2) s) := by
  show MeaningForm s (execHallRetransmitTimeout x0 x1 x2 s)
  unfold execHallRetransmitTimeout
  exact .gated _
theorem form_hallSkipResend (s : State) {x0} {x1}  : MeaningForm s (exec (.hallSkipResend x0 x1) s) := by
  show MeaningForm s (execHallSkipResend x0 x1 s)
  unfold execHallSkipResend
  exact .gated _
theorem form_hallAckTimer (s : State) {x0} {x1}  : MeaningForm s (exec (.hallAckTimer x0 x1) s) := by
  show MeaningForm s (execHallAckTimer x0 x1 s)
  unfold execHallAckTimer
  exact .gated _
theorem form_faultEvent (s : State) {x0}  : MeaningForm s (exec (.faultEvent x0) s) := by
  show MeaningForm s (execFaultEvent x0 s)
  unfold execFaultEvent
  exact form_msg _ _
theorem form_mergeWindowClose (s : State) {x0} {x1} {x2} {x3}  : MeaningForm s (exec (.mergeWindowClose x0 x1 x2 x3) s) := by
  show MeaningForm s (execMergeWindowClose x0 x1 x2 x3 s)
  unfold execMergeWindowClose
  exact .gated _
theorem form_eventRingWrite (s : State) : MeaningForm s (exec (.eventRingWrite) s) := by
  show MeaningForm s (execEventRingWrite s)
  unfold execEventRingWrite
  exact .gated _
theorem form_eventPop (s : State) : MeaningForm s (exec (.eventPop) s) := by
  show MeaningForm s (execEventPop s)
  unfold execEventPop
  exact .load 0x41E
theorem form_eventRingEnable (s : State) {x0}  : MeaningForm s (exec (.eventRingEnable x0) s) := by
  show MeaningForm s (execEventRingEnable x0 s)
  unfold execEventRingEnable
  exact .write _ _ _
theorem form_eventRingHeadWrite (s : State) {x0}  : MeaningForm s (exec (.eventRingHeadWrite x0) s) := by
  show MeaningForm s (execEventRingHeadWrite x0 s)
  unfold execEventRingHeadWrite
  exact .write _ _ _
theorem form_faultClassWrite (s : State) {x0} {x1} {x2}  : MeaningForm s (exec (.faultClassWrite x0 x1 x2) s) := by
  show MeaningForm s (execFaultClassWrite x0 x1 x2 s)
  unfold execFaultClassWrite
  exact .write _ _ _
theorem form_girdle (s : State) {x0} {x1}  : MeaningForm s (exec (.girdle x0 x1) s) := by
  show MeaningForm s (execGirdle x0 x1 s)
  unfold execGirdle
  exact .write _ _ _
theorem form_girdleRelease (s : State) {x0} {x1}  : MeaningForm s (exec (.girdleRelease x0 x1) s) := by
  show MeaningForm s (execGirdleRelease x0 x1 s)
  unfold execGirdleRelease
  exact .write _ _ _
theorem form_girdleApply (s : State) {x0} {x1}  : MeaningForm s (exec (.girdleApply x0 x1) s) := by
  show MeaningForm s (execGirdleApply x0 x1 s)
  unfold execGirdleApply
  exact form_msg _ _
theorem form_standRetestComplete (s : State) {x0} {x1} {x2}  : MeaningForm s (exec (.standRetestComplete x0 x1 x2) s) := by
  show MeaningForm s (execStandRetestComplete x0 x1 x2 s)
  unfold execStandRetestComplete
  exact form_msg _ _
theorem form_livenessMessage (s : State) {x0} {x1}  : MeaningForm s (exec (.livenessMessage x0 x1) s) := by
  show MeaningForm s (execLivenessMessage x0 x1 s)
  unfold execLivenessMessage
  exact .gated _
theorem form_nodeLinkSilence (s : State) {x0} {x1}  : MeaningForm s (exec (.nodeLinkSilence x0 x1) s) := by
  show MeaningForm s (execNodeLinkSilence x0 x1 s)
  unfold execNodeLinkSilence
  exact .gated _
theorem form_reroute (s : State) : MeaningForm s (exec (.reroute) s) := by
  show MeaningForm s (execReroute s)
  unfold execReroute
  exact .gated _
theorem form_twinConfirm (s : State) {x0}  : MeaningForm s (exec (.twinConfirm x0) s) := by
  show MeaningForm s (execTwinConfirm x0 s)
  unfold execTwinConfirm
  exact .gated _
theorem form_contingencyDataWrite (s : State) {x0}  : MeaningForm s (exec (.contingencyDataWrite x0) s) := by
  show MeaningForm s (execContingencyDataWrite x0 s)
  unfold execContingencyDataWrite
  exact .write _ _ _
theorem form_contingencyKeyWrite (s : State) {x0} {x1}  : MeaningForm s (exec (.contingencyKeyWrite x0 x1) s) := by
  show MeaningForm s (execContingencyKeyWrite x0 x1 s)
  unfold execContingencyKeyWrite
  exact .write _ _ _
theorem form_heartbeatTick (s : State) : MeaningForm s (exec (.heartbeatTick) s) := by
  show MeaningForm s (execHeartbeatTick s)
  unfold execHeartbeatTick
  exact .gated _
theorem form_cruisePatternSend (s : State) {x0} {x1}  : MeaningForm s (exec (.cruisePatternSend x0 x1) s) := by
  show MeaningForm s (execCruisePatternSend x0 x1 s)
  unfold execCruisePatternSend
  exact .gated _
theorem form_cruisePatternReceive (s : State) {x0} {x1} {x2}  : MeaningForm s (exec (.cruisePatternReceive x0 x1 x2) s) := by
  show MeaningForm s (execCruisePatternReceive x0 x1 x2 s)
  unfold execCruisePatternReceive
  exact .gated _
theorem form_reducerSelfcheck (s : State) {x0} {x1}  : MeaningForm s (exec (.reducerSelfcheck x0 x1) s) := by
  show MeaningForm s (execReducerSelfcheck x0 x1 s)
  unfold execReducerSelfcheck
  exact .gated _
theorem form_paceStep (s : State) {x0}  : MeaningForm s (exec (.paceStep x0) s) := by
  show MeaningForm s (execPaceStep x0 s)
  unfold execPaceStep
  exact .gated _
theorem form_pwrDroopWarnAssert (s : State) : MeaningForm s (exec (.pwrDroopWarnAssert) s) := by
  show MeaningForm s (execPwrDroopWarnAssert s)
  unfold execPwrDroopWarnAssert
  exact .pin _ _
theorem form_droopHandlingEnd (s : State) : MeaningForm s (exec (.droopHandlingEnd) s) := by
  show MeaningForm s (execDroopHandlingEnd s)
  unfold execDroopHandlingEnd
  exact .gated _
theorem form_thermalThreshold (s : State) {x0} {x1}  : MeaningForm s (exec (.thermalThreshold x0 x1) s) := by
  show MeaningForm s (execThermalThreshold x0 x1 s)
  unfold execThermalThreshold
  exact .gated _
theorem form_brownout (s : State) {x0}  : MeaningForm s (exec (.brownout x0) s) := by
  show MeaningForm s (execBrownout x0 s)
  unfold execBrownout
  exact .gated _
theorem form_tableWrite (s : State) {x0} {x1}  : MeaningForm s (exec (.tableWrite x0 x1) s) := by
  show MeaningForm s (execTableWrite x0 x1 s)
  unfold execTableWrite tblStep
  exact .write _ _ _
theorem form_tableRead (s : State) {x0} {x1}  : MeaningForm s (exec (.tableRead x0 x1) s) := by
  show MeaningForm s (execTableRead x0 x1 s)
  unfold execTableRead tblStep
  exact .write _ _ _
theorem form_tableVerify (s : State) {x0}  : MeaningForm s (exec (.tableVerify x0) s) := by
  show MeaningForm s (execTableVerify x0 s)
  unfold execTableVerify tblStep
  exact .write _ _ _
theorem form_tableActivate (s : State) {x0}  : MeaningForm s (exec (.tableActivate x0) s) := by
  show MeaningForm s (execTableActivate x0 s)
  unfold execTableActivate tblStep
  exact .write _ _ _
theorem form_tableConfirm (s : State) {x0}  : MeaningForm s (exec (.tableConfirm x0) s) := by
  show MeaningForm s (execTableConfirm x0 s)
  unfold execTableConfirm tblStep
  exact .write _ _ _
theorem form_tableErase (s : State) {x0}  : MeaningForm s (exec (.tableErase x0) s) := by
  show MeaningForm s (execTableErase x0 s)
  unfold execTableErase tblStep
  exact .write _ _ _
theorem form_secAck (s : State) {x0} {x1} {x2}  : MeaningForm s (exec (.secAck x0 x1 x2) s) := by
  show MeaningForm s (execSecAck x0 x1 x2 s)
  unfold execSecAck
  exact .gated _
theorem form_tallySnapshot (s : State) {x0}  : MeaningForm s (exec (.tallySnapshot x0) s) := by
  show MeaningForm s (execTallySnapshot x0 s)
  unfold execTallySnapshot
  exact .write _ _ _
theorem form_traceEnable (s : State) {x0}  : MeaningForm s (exec (.traceEnable x0) s) := by
  show MeaningForm s (execTraceEnable x0 s)
  unfold execTraceEnable
  exact .write _ _ _
theorem form_traceReadPointerWrite (s : State) {x0}  : MeaningForm s (exec (.traceReadPointerWrite x0) s) := by
  show MeaningForm s (execTraceReadPointerWrite x0 s)
  unfold execTraceReadPointerWrite
  exact .write _ _ _
theorem form_traceRecordReceive (s : State) {x0}  : MeaningForm s (exec (.traceRecordReceive x0) s) := by
  show MeaningForm s (execTraceRecordReceive x0 s)
  unfold execTraceRecordReceive
  exact .gated _
theorem form_traceStagingFlush (s : State) : MeaningForm s (exec (.traceStagingFlush) s) := by
  show MeaningForm s (execTraceStagingFlush s)
  unfold execTraceStagingFlush
  exact .gated _
theorem form_dumpGo (s : State) {x0}  : MeaningForm s (exec (.dumpGo x0) s) := by
  show MeaningForm s (execDumpGo x0 s)
  unfold execDumpGo
  exact .write _ _ _
theorem form_dumpFreeze (s : State) {x0}  : MeaningForm s (exec (.dumpFreeze x0) s) := by
  show MeaningForm s (execDumpFreeze x0 s)
  unfold execDumpFreeze
  exact .gated _
theorem form_dumpCaptureComplete (s : State) : MeaningForm s (exec (.dumpCaptureComplete) s) := by
  show MeaningForm s (execDumpCaptureComplete s)
  unfold execDumpCaptureComplete
  exact .gated _
theorem form_dumpDataRead (s : State) : MeaningForm s (exec (.dumpDataRead) s) := by
  show MeaningForm s (execDumpDataRead s)
  unfold execDumpDataRead
  exact .load 0x30222
theorem form_mgRstNRelease (s : State) : MeaningForm s (exec (.mgRstNRelease) s) := by
  show MeaningForm s (execMgRstNRelease s)
  unfold execMgRstNRelease
  exact .mgHigh
theorem form_pwrDroopWarnDeassert (s : State) : MeaningForm s (exec (.pwrDroopWarnDeassert) s) := by
  show MeaningForm s (execPwrDroopWarnDeassert s)
  unfold execPwrDroopWarnDeassert
  exact .pin _ _
theorem form_hostMemoryReadCompletion (s : State) {x0} {x1}  : MeaningForm s (exec (.hostMemoryReadCompletion x0 x1) s) := by
  show MeaningForm s (execHostMemoryReadCompletion x0 x1 s)
  unfold execHostMemoryReadCompletion
  exact form_msg _ _
theorem form_dlMessageTaken (s : State) {x0}  : MeaningForm s (exec (.dlMessageTaken x0) s) := by
  show MeaningForm s (execDlMessageTaken x0 s)
  unfold execDlMessageTaken
  exact form_msg _ _
theorem form_memoryTestMarchComplete (s : State) : MeaningForm s (exec (.memoryTestMarchComplete) s) := by
  show MeaningForm s (execMemoryTestMarchComplete s)
  unfold execMemoryTestMarchComplete
  exact .gated _
theorem form_livenessSend (s : State) {x0}  : MeaningForm s (exec (.livenessSend x0) s) := by
  show MeaningForm s (execLivenessSend x0 s)
  unfold execLivenessSend
  exact .gated _

/-- Every command's meaning has one of the forms. -/
theorem exec_form (c : Instr) (s : State) : MeaningForm s (exec c s) := by
  cases c
  case registerWrite => exact form_registerWrite s
  case lowWordRead => exact form_lowWordRead s
  case rcRegisterRead => exact form_rcRegisterRead s
  case mgRstNAssert => exact form_mgRstNAssert s
  case fabPorstNAssert => exact form_fabPorstNAssert s
  case fabPorstNRelease => exact form_fabPorstNRelease s
  case bringupStageReport => exact form_bringupStageReport s
  case s1LivenessDeadline => exact form_s1LivenessDeadline s
  case memoryTestTierReport => exact form_memoryTestTierReport s
  case memoryTestRetentionPauseEnd => exact form_memoryTestRetentionPauseEnd s
  case bupNotifyEnable => exact form_bupNotifyEnable s
  case glbSelfWrite => exact form_glbSelfWrite s
  case tierMapStagedWrite => exact form_tierMapStagedWrite s
  case coppiceWrite => exact form_coppiceWrite s
  case rehomeCommandReceive => exact form_rehomeCommandReceive s
  case frondReceive => exact form_frondReceive s
  case creditAuditCounts => exact form_creditAuditCounts s
  case creditReturn => exact form_creditReturn s
  case outputArbitrate => exact form_outputArbitrate s
  case stdRouteWrite => exact form_stdRouteWrite s
  case glbExitWrite => exact form_glbExitWrite s
  case stallDetect => exact form_stallDetect s
  case epochSwitchRequest => exact form_epochSwitchRequest s
  case flipReceive => exact form_flipReceive s
  case flipAck => exact form_flipAck s
  case epochDrainComplete => exact form_epochDrainComplete s
  case epochDrainTimeout => exact form_epochDrainTimeout s
  case epochCopyComplete => exact form_epochCopyComplete s
  case messageArrival => exact form_messageArrival s
  case ackTimer => exact form_ackTimer s
  case transportAckReceive => exact form_transportAckReceive s
  case responseReceive => exact form_responseReceive s
  case retransmitTimeout => exact form_retransmitTimeout s
  case messageTimeout => exact form_messageTimeout s
  case implicitSlotFree => exact form_implicitSlotFree s
  case tenantAdmit => exact form_tenantAdmit s
  case tenantRetire => exact form_tenantRetire s
  case tenantPeek => exact form_tenantPeek s
  case tenantShapeWrite => exact form_tenantShapeWrite s
  case tenantPoliceWrite => exact form_tenantPoliceWrite s
  case corePortBindWrite => exact form_corePortBindWrite s
  case dpZeroComplete => exact form_dpZeroComplete s
  case shareMapWrite => exact form_shareMapWrite s
  case shaperDispatch => exact form_shaperDispatch s
  case sqTailDoorbell => exact form_sqTailDoorbell s
  case cqHeadDoorbell => exact form_cqHeadDoorbell s
  case doorbellBaseWrite => exact form_doorbellBaseWrite s
  case descriptorFetch => exact form_descriptorFetch s
  case descriptorAccept => exact form_descriptorAccept s
  case copy => exact form_copy s
  case fill => exact form_fill s
  case send => exact form_send s
  case mcast => exact form_mcast s
  case allsum => exact form_allsum s
  case signal => exact form_signal s
  case wait => exact form_wait s
  case mark => exact form_mark s
  case atomic => exact form_atomic s
  case fence => exact form_fence s
  case group => exact form_group s
  case arm => exact form_arm s
  case armDisarm => exact form_armDisarm s
  case fenceRelease => exact form_fenceRelease s
  case groupRunResume => exact form_groupRunResume s
  case workItemReceive => exact form_workItemReceive s
  case holdingRecordWrite => exact form_holdingRecordWrite s
  case ringOpen => exact form_ringOpen s
  case ringClose => exact form_ringClose s
  case ringPeek => exact form_ringPeek s
  case channelSlotWrite => exact form_channelSlotWrite s
  case releaseWordAccess => exact form_releaseWordAccess s
  case chainWrite => exact form_chainWrite s
  case memberSlotWrite => exact form_memberSlotWrite s
  case mcastDispatch => exact form_mcastDispatch s
  case mcastReceive => exact form_mcastReceive s
  case mcastReportReceive => exact form_mcastReportReceive s
  case mcastReportTimeout => exact form_mcastReportTimeout s
  case combiningQueueWrite => exact form_combiningQueueWrite s
  case contributionReceive => exact form_contributionReceive s
  case landingWriteComplete => exact form_landingWriteComplete s
  case combiningTimeout => exact form_combiningTimeout s
  case reducerTestArm => exact form_reducerTestArm s
  case tileReceive => exact form_tileReceive s
  case triggerReceive => exact form_triggerReceive s
  case stageMessageReceive => exact form_stageMessageReceive s
  case allsumLossWaitExpiry => exact form_allsumLossWaitExpiry s
  case allsumResultAbandon => exact form_allsumResultAbandon s
  case nearPortAccess => exact form_nearPortAccess s
  case bankHandover => exact form_bankHandover s
  case bankRetWrite => exact form_bankRetWrite s
  case bankWipeComplete => exact form_bankWipeComplete s
  case bankRetentionEntered => exact form_bankRetentionEntered s
  case bankWakeComplete => exact form_bankWakeComplete s
  case twinFillComplete => exact form_twinFillComplete s
  case scrubRead => exact form_scrubRead s
  case sliceModeWrite => exact form_sliceModeWrite s
  case rawRead => exact form_rawRead s
  case rawWrite => exact form_rawWrite s
  case syncObjectWrite => exact form_syncObjectWrite s
  case syncControlWrite => exact form_syncControlWrite s
  case signalApply => exact form_signalApply s
  case watchRegister => exact form_watchRegister s
  case watchReport => exact form_watchReport s
  case watchRelease => exact form_watchRelease s
  case waitTimeout => exact form_waitTimeout s
  case waitPoll => exact form_waitPoll s
  case barrierRewrite => exact form_barrierRewrite s
  case barrierArrival => exact form_barrierArrival s
  case barrierTimeout => exact form_barrierTimeout s
  case sidebandUpdateReceive => exact form_sidebandUpdateReceive s
  case sidebandResend => exact form_sidebandResend s
  case sidebandLoss => exact form_sidebandLoss s
  case dormancyNow => exact form_dormancyNow s
  case dormancyWakeWrite => exact form_dormancyWakeWrite s
  case dormancyIdleExpiry => exact form_dormancyIdleExpiry s
  case dormancyProposeReceive => exact form_dormancyProposeReceive s
  case dormancyVote => exact form_dormancyVote s
  case dormancyVoteTimeout => exact form_dormancyVoteTimeout s
  case dormancyCommit => exact form_dormancyCommit s
  case dormancyEntryComplete => exact form_dormancyEntryComplete s
  case dormancyExitStart => exact form_dormancyExitStart s
  case dormancyExitComplete => exact form_dormancyExitComplete s
  case corePortDesc => exact form_corePortDesc s
  case corePortWrite => exact form_corePortWrite s
  case corePortRead => exact form_corePortRead s
  case corePortAtomic => exact form_corePortAtomic s
  case corePortSignal => exact form_corePortSignal s
  case corePortReduce => exact form_corePortReduce s
  case wakeAck => exact form_wakeAck s
  case targetRequestReceive => exact form_targetRequestReceive s
  case trAnswer => exact form_trAnswer s
  case hangDetect => exact form_hangDetect s
  case coreResetAssert => exact form_coreResetAssert s
  case coreResetRelease => exact form_coreResetRelease s
  case portFabricReset => exact form_portFabricReset s
  case resyncAck => exact form_resyncAck s
  case resyncTimeout => exact form_resyncTimeout s
  case edgeRetrain => exact form_edgeRetrain s
  case modulePhyUp => exact form_modulePhyUp s
  case moduleTrainFail => exact form_moduleTrainFail s
  case moduleTrainRetry => exact form_moduleTrainRetry s
  case helloSend => exact form_helloSend s
  case helloReceive => exact form_helloReceive s
  case helloTimeout => exact form_helloTimeout s
  case moduleRecalStart => exact form_moduleRecalStart s
  case moduleRecalDone => exact form_moduleRecalDone s
  case moduleRecalTimeout => exact form_moduleRecalTimeout s
  case bridgeSlotReceive => exact form_bridgeSlotReceive s
  case bridgeAuditReceive => exact form_bridgeAuditReceive s
  case hallLinkUp => exact form_hallLinkUp s
  case hallLinkDown => exact form_hallLinkDown s
  case hallPortEnableWrite => exact form_hallPortEnableWrite s
  case hallOpen => exact form_hallOpen s
  case hallOpenAck => exact form_hallOpenAck s
  case hallData => exact form_hallData s
  case hallAck => exact form_hallAck s
  case hallRefuse => exact form_hallRefuse s
  case hallSkip => exact form_hallSkip s
  case hallContextOpen => exact form_hallContextOpen s
  case hallOpenTimeout => exact form_hallOpenTimeout s
  case hallContextIdle => exact form_hallContextIdle s
  case hallUnseqRetry => exact form_hallUnseqRetry s
  case hallRetransmitTimeout => exact form_hallRetransmitTimeout s
  case hallSkipResend => exact form_hallSkipResend s
  case hallAckTimer => exact form_hallAckTimer s
  case faultEvent => exact form_faultEvent s
  case mergeWindowClose => exact form_mergeWindowClose s
  case eventRingWrite => exact form_eventRingWrite s
  case eventPop => exact form_eventPop s
  case eventRingEnable => exact form_eventRingEnable s
  case eventRingHeadWrite => exact form_eventRingHeadWrite s
  case faultClassWrite => exact form_faultClassWrite s
  case girdle => exact form_girdle s
  case girdleRelease => exact form_girdleRelease s
  case girdleApply => exact form_girdleApply s
  case standRetestComplete => exact form_standRetestComplete s
  case livenessMessage => exact form_livenessMessage s
  case nodeLinkSilence => exact form_nodeLinkSilence s
  case reroute => exact form_reroute s
  case twinConfirm => exact form_twinConfirm s
  case contingencyDataWrite => exact form_contingencyDataWrite s
  case contingencyKeyWrite => exact form_contingencyKeyWrite s
  case heartbeatTick => exact form_heartbeatTick s
  case cruisePatternSend => exact form_cruisePatternSend s
  case cruisePatternReceive => exact form_cruisePatternReceive s
  case reducerSelfcheck => exact form_reducerSelfcheck s
  case paceStep => exact form_paceStep s
  case pwrDroopWarnAssert => exact form_pwrDroopWarnAssert s
  case droopHandlingEnd => exact form_droopHandlingEnd s
  case thermalThreshold => exact form_thermalThreshold s
  case brownout => exact form_brownout s
  case tableWrite => exact form_tableWrite s
  case tableRead => exact form_tableRead s
  case tableVerify => exact form_tableVerify s
  case tableActivate => exact form_tableActivate s
  case tableConfirm => exact form_tableConfirm s
  case tableErase => exact form_tableErase s
  case secAck => exact form_secAck s
  case tallySnapshot => exact form_tallySnapshot s
  case traceEnable => exact form_traceEnable s
  case traceReadPointerWrite => exact form_traceReadPointerWrite s
  case traceRecordReceive => exact form_traceRecordReceive s
  case traceStagingFlush => exact form_traceStagingFlush s
  case dumpGo => exact form_dumpGo s
  case dumpFreeze => exact form_dumpFreeze s
  case dumpCaptureComplete => exact form_dumpCaptureComplete s
  case dumpDataRead => exact form_dumpDataRead s
  case mgRstNRelease => exact form_mgRstNRelease s
  case pwrDroopWarnDeassert => exact form_pwrDroopWarnDeassert s
  case hostMemoryReadCompletion => exact form_hostMemoryReadCompletion s
  case dlMessageTaken => exact form_dlMessageTaken s
  case memoryTestMarchComplete => exact form_memoryTestMarchComplete s
  case livenessSend => exact form_livenessSend s

end Sys2Proof.Machine
end

