-- ==== Sys2Proof/Laws/Memory.lean ====
section
/-! SUPPORT. Laws of the slice memory: every memory operation keeps the canonical form, a byte reads as it was last stored, and a
store leaves every other byte alone. -/

namespace Sys2Proof.Machine

/-- The memory of the state is in its canonical form. -/
def MemOk (s : State) : Prop := Memory.wf s.slice.mem = true

theorem memOk_reset : MemOk State.reset := rfl

theorem memOk_of_slice {s t : State} (e : t.slice = s.slice) (h : MemOk s) : MemOk t := by unfold MemOk; rw [e]; exact h

theorem wf_memStore (m : Tbl Byte) (key : Nat) (l : List Byte) (h : Memory.wf m = true) : Memory.wf (memStore m key l) = true := by
  induction l generalizing m key with
  | nil => exact h
  | cons b r ih => exact ih _ _ (twf_tset unwritten m key b h)

/-- A store from `key` upward: the bytes stored read back, every other byte as before. -/
theorem tget_memStore (m : Tbl Byte) (key : Nat) (l : List Byte) (k : Nat) :
    tget unwritten (memStore m key l) k =
      if key ≤ k ∧ k < key + l.length then l.getD (k - key) 0 else tget unwritten m k := by
  induction l generalizing m key with
  | nil =>
    rw [if_neg (by simp only [List.length_nil]; omega)]; rfl
  | cons b r ih =>
    rw [memStore, ih, tget_tset]
    by_cases h0 : k = key
    · subst h0
      rw [if_neg (by omega), if_pos rfl, if_pos (by simp)]; simp
    · by_cases h1 : key + 1 ≤ k ∧ k < key + 1 + r.length
      · have h2 : key ≤ k ∧ k < key + (r.length + 1) := by omega
        have h3 : k - key = (k - (key + 1)) + 1 := by omega
        simp [h1, h2, h3]
      · have h2 : ¬ (key ≤ k ∧ k < key + (r.length + 1)) := by omega
        rw [if_neg h1, if_neg h0, if_neg (show ¬ (key ≤ k ∧ k < key + (b :: r).length) from h2)]

theorem memOk_putBytes (s : State) (st bank byte : Nat) (l : List Byte) (h : MemOk s) : MemOk (putBytes s st bank byte l) :=
  wf_memStore _ _ _ h

/-- A store into one bank: the bytes stored read back, and no other byte of that bank changes. -/
theorem memByte_putBytes (s : State) (st bank byte : Nat) (l : List Byte) (b : Nat) :
    memByte (putBytes s st bank byte l) st bank b =
      if byte ≤ b ∧ b < byte + l.length then l.getD (b - byte) 0 else memByte s st bank b := by
  unfold memByte putBytes memKey
  dsimp only
  rw [tget_memStore]
  have e : bankNo st bank * 2 ^ 21 + b - (bankNo st bank * 2 ^ 21 + byte) = b - byte := by omega
  rw [e]
  by_cases h : byte ≤ b ∧ b < byte + l.length
  · rw [if_pos h, if_pos (by omega)]
  · rw [if_neg h, if_neg (by omega)]

theorem memOk_setWordSt (s : State) (st bank w : Nat) (x : WordSt) (h : MemOk s) : MemOk (setWordSt s st bank w x) := h

theorem memOk_storeWord (s : State) (st bank w : Nat) (l : List Byte) (h : MemOk s) : MemOk (storeWord s st bank w l) :=
  memOk_setWordSt _ _ _ _ _ (memOk_putBytes _ _ _ _ _ h)

theorem memOk_regSet (s : State) (off : Nat) (v : Word) (h : MemOk s) : MemOk (regSet s off v) := h

theorem memOk_regCount (s : State) (off lo len n : Nat) (h : MemOk s) : MemOk (regCount s off lo len n) := h

theorem memOk_raise (s : State) (c : Cause) (loc sub : Nat) (d : Word) (h : MemOk s) : MemOk (raise s c loc sub d) := h

theorem memOk_elog (s : State) (st : StandId) (unc twin : Bool) (how : How) (bank lane w : Nat) (h : MemOk s) :
    MemOk (elog s st unc twin how bank lane w) := by
  unfold elog; split
  · exact h
  · exact memOk_regSet _ _ _ h

theorem memOk_onFixed (s : State) (st : StandId) (bank w : Nat) (data : List Byte) (lane : Nat) (how : How) (h : MemOk s) :
    MemOk (onFixed s st bank w data lane how) := by
  have h1 := memOk_elog _ st false false how bank lane w (memOk_storeWord s st.val bank w data h)
  unfold onFixed; dsimp only; split
  · exact memOk_raise _ _ _ _ _ h1
  · exact memOk_raise _ _ _ _ _ (memOk_regCount _ _ _ _ _ h1)

theorem memOk_onUnc (s : State) (st : StandId) (bank w : Nat) (how : How) (h : MemOk s) : MemOk (onUnc s st bank w how) := by
  have h1 := memOk_elog _ st true false how bank 0 w (memOk_setWordSt s st.val bank w .poison h)
  unfold onUnc; dsimp only; split
  · exact memOk_raise _ _ _ _ _ h1
  · exact memOk_raise _ _ _ _ _ (memOk_regCount _ _ _ _ _ h1)

theorem memOk_bankTouch (s : State) (st bank : Nat) (inn : Bool) (h : MemOk s) : MemOk (bankTouch s st bank inn).2 := by
  unfold bankTouch; split <;> exact h

theorem memOk_twinWord (s : State) (st bank w : Nat) (h : MemOk s) : MemOk (twinWord s st bank w).2 := by
  unfold twinWord
  split
  · exact h
  · dsimp only
    split
    · split <;> exact memOk_bankTouch _ _ _ _ h
    · exact h

theorem memOk_readWord (s : State) (st : StandId) (bank w : Nat) (how : How) (h : MemOk s) :
    MemOk (readWord s st bank w how).2 := by
  unfold readWord
  split
  · exact h
  · exact memOk_onFixed _ _ _ _ _ _ _ h
  · exact h
  · have h1 : MemOk (if bank < dpBank ∧ how ≠ .raw then twinWord s st.val bank w else (none, s)).2 := by
      split
      · exact memOk_twinWord _ _ _ _ h
      · exact h
    split
    · next _ _ e => rw [e] at h1; exact memOk_raise _ _ _ _ _ (memOk_regCount _ _ _ _ _ (memOk_elog _ _ _ _ _ _ _ _ (memOk_storeWord _ _ _ _ _ h1)))
    · next _ e => rw [e] at h1; exact memOk_onUnc _ _ _ _ _ h1

theorem memOk_readWords (n : Nat) (s : State) (st : StandId) (bank w : Nat) (how : How) (h : MemOk s) :
    MemOk (readWords s st bank w how n).2 := by
  induction n generalizing s w with
  | zero => exact h
  | succ n ih => exact ih _ _ (memOk_readWord s st bank w how h)

theorem memOk_readBank (s : State) (st : StandId) (bank byte n : Nat) (how : How) (h : MemOk s) :
    MemOk (readBank s st bank byte n how).2 := memOk_readWords _ _ _ _ _ _ h

theorem memOk_writeWord (s : State) (st : StandId) (bank w lo : Nat) (data : List Byte) (h : MemOk s) :
    MemOk (writeWord s st bank w lo data).2 := by
  unfold writeWord
  split
  · exact memOk_storeWord _ _ _ _ _ h
  · have h1 := memOk_readWord s st bank w .merge h
    dsimp only
    split
    · exact h1
    · exact memOk_storeWord _ _ _ _ _ h1

theorem memOk_writeWords (n : Nat) (s : State) (st : StandId) (bank byte : Nat) (data : List Byte) (h : MemOk s) :
    MemOk (writeWords s st bank byte data n).2 := by
  induction n generalizing s byte data with
  | zero => exact h
  | succ n ih => exact ih _ _ _ (memOk_writeWord _ _ _ _ _ _ h)

theorem memOk_writeBank (s : State) (st : StandId) (bank byte : Nat) (data : List Byte) (h : MemOk s) :
    MemOk (writeBank s st bank byte data).2 := memOk_writeWords _ _ _ _ _ _ h

theorem memOk_rmwBank (s : State) (st : StandId) (bank byte n : Nat) (f : List Byte → List Byte) (h : MemOk s) :
    MemOk (rmwBank s st bank byte n f).2 := by
  have h1 := memOk_readWords (wordSpan byte n) s st bank (byte / 32) .merge h
  unfold rmwBank; dsimp only
  split
  · exact h1
  · exact memOk_writeWords _ _ _ _ _ _ h1

theorem memOk_wipeBank (s : State) (st bank : Nat) (h : MemOk s) : MemOk (wipeBank s st bank) := twf_tclear _ _ _ _ h

theorem memOk_zeroDp (s : State) (st byte n : Nat) (h : MemOk s) : MemOk (zeroDp s st byte n) := twf_tclear _ _ _ _ h

/-- A wiped bank reads 0 throughout. -/
theorem memByte_wipeBank (s : State) (st bank b : Nat) (hb : b < 2 ^ 21) : memByte (wipeBank s st bank) st bank b = 0 := by
  unfold memByte wipeBank memKey
  dsimp only
  rw [tget_tclear, if_pos (by omega)]; rfl

end Sys2Proof.Machine
end

