-- ==== Sys2Proof/Tests/Slice0.lean ====
section
/-! SUPPORT. Tests on fixed values, by evaluation: ill-formed commands are refused by `Instr.wf`; for every statement of
Sys2Proof/Certificates/Slice0/Obligations.lean with hypotheses, states and operands that meet them (`meets_<statement>`, clause by clause,
with values at the bounds of a range); and single steps whose result the rules give. -/

namespace Sys2Proof.Tests
open Sys2Proof.Machine

-- one proof after the other, so that their evaluations do not pile up threads
set_option Elab.async false

/-- The state after one command. -/
def after (c : Instr) (s : State) : State := match exec c s with | .next t => t | _ => s

/-- The state after reset. -/
def on : State := State.reset

/-- A message of 32 bytes to an address, from stand 1 of die 0, fresh and whole. -/
def msg (op : BitVec 4) (dest : Word) (data : List Byte) : Msg :=
  { plane := 0, shape := shapeOf data.length, vc := 0, colour := 0, express := false, tenant := 5, dest := dest, src := 1, op := op, chan := 3,
    seq := 9, len := BitVec.ofNat 13 data.length, unit := 1, delivered := false, impl := true, replay := false, openFl := true, pstand := 0,
    exit := 0, w := 0, data := data, broken := false }

/-- A request message of a core port. -/
def rq (kind : BitVec 8) : RqMsg :=
  { kind := kind, deliv := false, plane := 0, opx := 0, rkind := 0, len := 0, rid := 0, bar := 0, rlen := 0, addr := 0, resv := false,
    express := false, beats := 1, nbytes := 32, data := [] }

/-- A frame of a hall port. -/
def frame (l : List Byte) : Frame := { bytes := l, trueLen := l.length + 4, fcsOk := true }

-- well-formed commands: an ill-formed term for each check

def item : WorkItem :=
  { desc := 0, off := 0, len := 64, total := 64, src := 0, dst := 0, fill := none, tenant := 5, express := false, deliv := false, yellow := false }
def reading : Canary := ⟨180, 70, 70, 60⟩

theorem test_wf_lists : Instr.wf (.memoryTestTierReport [(0, 1), (0, 1)]) = false ∧ Instr.wf (.memoryTestTierReport [(0, 1), (0, 2)]) = true ∧
    Instr.wf (.standRetestComplete 3 none [4, 4]) = false ∧ Instr.wf (.paceStep [(3, reading), (3, reading)]) = false ∧
    Instr.wf (.paceStep [(3, reading), (4, reading)]) = true := by decide +kernel
theorem test_wf_bounds : Instr.wf (.tierMapStagedWrite 0 4 0) = false ∧ Instr.wf (.tierMapStagedWrite 0 3 0) = true ∧
    Instr.wf (.tierMapStagedWrite 3 1023 0) = true ∧ Instr.wf (.allsumLossWaitExpiry 0 0 0 0 0) = false ∧
    Instr.wf (.traceRecordReceive 49) = false ∧ Instr.wf (.traceRecordReceive 48) = true ∧
    Instr.wf (.secAck 0 (List.replicate 1025 0) ⟨1, true, true, 0, 0, 0, 0, 0, 0⟩) = false ∧ Instr.wf (.hostMemoryReadCompletion 0 (List.replicate 4097 0)) = false := by decide +kernel
theorem test_wf_modules : Instr.wf (.modulePhyUp 1 12 true) = false ∧ Instr.wf (.modulePhyUp 1 11 true) = true ∧ Instr.wf (.modulePhyUp 0 15 true) = true ∧
    Instr.wf (.moduleTrainFail 3 12) = false ∧ Instr.wf (.moduleTrainRetry 3 12) = false ∧ Instr.wf (.helloSend 3 12) = false ∧
    Instr.wf (.helloTimeout 3 12) = false ∧ Instr.wf (.moduleRecalStart 3 12) = false ∧ Instr.wf (.moduleRecalDone 3 12) = false ∧
    Instr.wf (.moduleRecalTimeout 3 12) = false ∧ Instr.wf (.bridgeSlotReceive 3 12 ⟨0, 0, 0⟩) = false ∧
    Instr.wf (.helloReceive 0 0 [1]) = false ∧ Instr.wf (.bridgeAuditReceive 0 0 [1]) = false ∧
    Instr.wf (.helloReceive 0 0 (List.replicate 64 0)) = true := by decide +kernel
theorem test_wf_messages : let bad := { msg 2 0 [1, 2] with len := 3 }
    Instr.wf (.messageArrival 0 bad) = false ∧ Instr.wf (.messageArrival 0 { bad with broken := true }) = true ∧ Instr.wf (.responseReceive .trace bad) = false ∧
    Instr.wf (.mcastReceive 0 bad) = false ∧ Instr.wf (.contributionReceive 0 bad) = false ∧ Instr.wf (.tileReceive 0 bad) = false ∧
    Instr.wf (.stageMessageReceive 0 bad) = false ∧ Instr.wf (.nearPortAccess 0 ⟨false, 0, 0, 0⟩ (.msg bad)) = false ∧
    Instr.wf (.targetRequestReceive 0 bad) = false := by decide +kernel
theorem test_wf_requests : let bad := { rq 1 with beats := 0 }
    Instr.wf (.corePortDesc 0 bad) = false ∧ Instr.wf (.corePortWrite 0 bad) = false ∧ Instr.wf (.corePortRead 0 bad) = false ∧
    Instr.wf (.corePortAtomic 0 bad) = false ∧ Instr.wf (.corePortSignal 0 bad) = false ∧ Instr.wf (.corePortReduce 0 bad) = false ∧
    Instr.wf (.barrierArrival 0 bad) = false ∧ Instr.wf (.barrierArrival 0 (rq 6)) = true ∧ Instr.wf (.trAnswer 0 32 0 []) = false ∧
    Instr.wf (.trAnswer 0 31 0 []) = true := by decide +kernel
theorem test_wf_rest : let bad : Frame := { frame [1, 2] with trueLen := 1 }
    Instr.wf (.sqTailDoorbell (.ha 0 3 0)) = false ∧ Instr.wf (.cqHeadDoorbell (.fabric 0 0 0 5 0)) = false ∧ Instr.wf (.sqTailDoorbell (.ha 0 4 0)) = true ∧
    Instr.wf (.workItemReceive (.mover 0) { item with off := 1 }) = false ∧ Instr.wf (.workItemReceive (.mover 0) item) = true ∧
    Instr.wf (.hallOpen 0 bad) = false ∧ Instr.wf (.hallOpenAck 0 bad) = false ∧ Instr.wf (.hallData 0 bad) = false ∧ Instr.wf (.hallAck 0 bad) = false ∧
    Instr.wf (.hallRefuse 0 bad) = false ∧ Instr.wf (.hallSkip 0 bad) = false ∧ Instr.wf (.hallOpen 0 (frame [1, 2])) = true := by decide +kernel

-- the management port, the resets, bring-up, addresses, epochs

def held (off : Nat) (w : BitVec 32) : State := { on with mg := { held := some (off, w) } }
def stage (n : Nat) : State := { on with bup := { reported := n } }
def s5 (b : BupState) : State := { on with bup := { b with reported := 5 } }
def ep (e : EpochState) : State := { on with epoch := e }

theorem meets_ResetInputs : ({ on with mg := { rstN := false } } : State).mg.porst = true ∧ (after .fabPorstNAssert on).mg.porst = false ∧
    (after .fabPorstNRelease (after .fabPorstNAssert on)).mg.porst = true := by decide +kernel
theorem meets_RegisterWordAccesses : MgServed on (wordReg 0x280) ∧ wordReg 0x280 = 0xA00 ∧ wordHigh 0x280 = false ∧ wordHigh 0x281 = true ∧
    (regInfo 0xA00).map RegInfo.rc = some 0 ∧ (held 0xA00 7).mg.held = some (wordReg 0x281, 7) ∧ on.mg.held = none ∧ on.mg.snap = none ∧
    ({ on with mg := { snap := some (0xA00, 5) } } : State).mg.snap = some (wordReg 0x281, 5) ∧
    MgServed on (wordReg 0x3000C) ∧ wordHigh 0x3000C = false ∧ (regInfo (wordReg 0x3000C)).map (fun i => decide (i.rc ≠ 0)) = some true ∧
    wordReg 0x400 = 0x1000 ∧ wordReg 0x408 = 0x1020 := by decide +kernel
theorem test_register_write : (after (.registerWrite 0x281 0x80000001) (held 0xA00 0xFFFFFFFF)).mg.held = none ∧
    (after (.registerWrite 0x2011 1) (held 0x8040 5)).mg.err = false := by decide +kernel
theorem meets_NoRegisterStandsThere : MgServed on (wordReg 0x3C000) ∧ regInfo (wordReg 0x3C000) = none ∧
    MgServed on (wordReg 0x3FFFFF) ∧ regInfo (wordReg 0x3FFFFF) = none := by decide +kernel
theorem meets_BringUp : Up on ∧ regBit on 0x2100 63 = false ∧ on.bup.reported = 0 ∧ on.bup.halted = false ∧ ({} : StageReport).railBad = none ∧
    ({ railBad := some 47 } : StageReport).railBad = some 47 ∧ (stage 1).bup.reported = 1 ∧ ({} : StageReport).manuf = none ∧ (stage 7).bup.reported = 7 ∧
    stageRuns (stage 1) 1 = true ∧ stageRuns on 1 = false ∧ stageRuns (s5 {}) 5 = true ∧ (s5 {}).bup.sphase = 0 ∧ (s5 {}).pwr.warnPin = false ∧
    (s5 { sphase := 1, passes := 1 }).bup.passes = 1 ∧ (s5 { sphase := 2, tier := 1 }).map.gstand = 0 ∧ (s5 { sphase := 2, tier := 1 }).bup.waiting = [] := by decide +kernel
theorem test_stage0 : (after (.bringupStageReport {}) on).bup.reported = 1 ∧
    (after (.bringupStageReport { railBad := some 47 }) on).bup.hloc = 47 := by decide +kernel
/-- With stand 2 alone in service. -/
def lone (s : State) : State := { s with map := { s.map with gstand := 0xFFFFFFFFFFFB } }
theorem test_march : (after .memoryTestMarchComplete (lone (s5 {}))).bup.pauseEnd = 88000000000 ∧
    (after .memoryTestMarchComplete (lone (s5 { quick := true }))).bup.pauseEnd = 9500000000 := by decide +kernel
theorem test_pauses : (after .memoryTestRetentionPauseEnd (s5 { sphase := 1 })).bup.passes = 1 ∧
    (after .memoryTestRetentionPauseEnd (s5 { sphase := 1, passes := 1 })).bup.sphase = 2 := by decide +kernel
theorem meets_SelfNotifyAndCoppice : Up on ∧ on.mg.rstN = true ∧ regBit on 0x10 63 = false ∧ regBit (regSet on 0x10 (mkBit 63 true)) 0x10 63 = true ∧
    bitAt (0 : Word) 63 = false ∧ (inS5 on || coppiceBad on 1535 (mk 33 2 1 ||| mk 0 6 48)) = true ∧
    (inS5 on || coppiceBad on 1535 (mk 33 2 1 ||| mk 0 6 47 ||| mk 8 6 33)) = false ∧ (inS5 (s5 {}) || coppiceBad (s5 {}) 0 0) = true ∧
    oget on.map.rehomes 1535 = none ∧ girdled on 47 = false := by decide +kernel
theorem test_coppice : coppice (after (.coppiceWrite 0 (mk 33 2 1 ||| mk 0 6 47 ||| mk 8 6 33)) on) 0 = mk 33 2 1 ||| mk 0 6 47 ||| mk 8 6 33 ∧
    (after (.coppiceWrite 0 (mk 33 2 3)) on).flt.inbox.length = 1 := by decide +kernel
theorem test_self_once : regFld (after (.glbSelfWrite 5) (after (.glbSelfWrite 0x8000000000000003) on)) 0x10 0 20 = 3 := by decide +kernel
theorem meets_StagedTables : Up on ∧ on.epoch.phase = .idle ∧ 3 < tierSize 0 ∧ 1023 < tierSize 3 ∧ girdled on 0 = false ∧ regBit on (stdOff 0 0) 0 = false ∧
    (∀ p, p < 4 → fld (0x7777 : Word) (p * 4) 3 ≠ 5 ∧ fld (0x7777 : Word) (p * 4) 3 ≠ 6) ∧ (fld (0x6000 : Word) (3 * 4) 3 = 6) ∧
    fld (0x400 : Word) 10 2 = 1 ∧ fld (0 : Word) 10 2 = 0 ∧ fld (0x800 : Word) 10 2 = 2 ∧ fld (0xC00 : Word) 10 2 = 3 := by decide +kernel
theorem meets_StagedWritesOutsideIdle : (ep { phase := .copying }).epoch.phase ≠ .idle ∧ (ep { phase := .flipping }).epoch.phase ≠ .idle ∧
    standWindow (wordReg 0x8200) = some (0, 0x800) ∧ standWindow (wordReg 0x83FE) = some (0, 0xFF8) := by decide +kernel
theorem meets_EpochSwitch : bitAt (1 : Word) 0 = true ∧ (ep { phase := .flipping }).epoch.taken = [] ∧ girdled (ep { phase := .flipping }) 47 = false ∧
    (47 : StandId) ∈ (ep { phase := .flipping, taken := [47] }).epoch.taken ∧ (drainSums (ep { phase := .draining })).1 = 0 ∧
    (drainSums (ep { phase := .draining })).2 = 0 ∧ (drainSums (ep { phase := .draining, inj := [(192, 3)] })).1 = 3 ∧
    (ep { phase := .draining, stuck := true }).epoch.stuck = true ∧ (ep { phase := .copying, pending := true }).epoch.pending = true ∧
    (ep { phase := .copying }).epoch.pending = false := by decide +kernel
theorem test_epoch_request : (after (.epochSwitchRequest 1) on).epoch.epoch = 1 ∧ (after (.epochSwitchRequest 0) on).epoch.epoch = 0 ∧
    (after (.epochSwitchRequest 1) (ep { phase := .draining })).epoch.pending = true := by decide +kernel
theorem test_drain : (after .epochDrainComplete (ep { phase := .draining, inj := [(192, 3)] })).epoch.phase = .draining ∧
    (after .epochDrainComplete (ep { phase := .draining, inj := [(192, 3)], ej := [(195, 3)] })).epoch.phase = .copying := by decide +kernel
theorem test_drain_timeout : (after .epochDrainTimeout (ep { phase := .draining, reqAt := 7 })).time = 150007 := by decide +kernel

-- planes and transport

/-- In service, after bring-up. -/
def live : State := { on with bup := { reported := 8 } }
/-- With a tenant entry. -/
def tenants (l : List (Nat × Tenant)) (s : State) : State := { s with tnt := { s.tnt with entries := l.map (fun p => (p.1, some p.2)) } }
/-- With a core port bound to an entry under a tag. -/
def bound (st : StandId) (n tag : Nat) (s : State) : State := regSet s (stdOff st 0x1C0) (mkBit 63 true ||| mk 16 16 tag ||| mk 0 12 n)
def dpAddr (st byte : Nat) : Word := mk 34 6 st ||| mkBit 26 true ||| mk 0 19 byte
def bytes32 : List Byte := (List.range 32).map (fun i => BitVec.ofNat 8 (i + 1))
def dpMsg : Msg := msg opWrite (dpAddr 2 0x100) bytes32
def dpState : State := bound 2 1 5 (tenants [(1, { tag := 5 })] live)
def entry (m : Msg) (n : Nat) : RecvEntry := ⟨keyOf m, m.seq, 0, 0, none, n, 70, none⟩
def hearing (n : Nat) : State := { live with trans := { recv := [(2, [entry dpMsg n])] } }
/-- `dpMsg` to stand 9 as its one frond, and the same with EXPRESS. -/
def dpFrond : Frond :=
  ⟨0x00000140000002010000400000001078, 0x201f1e1d1c1b1a191817161514131211100f0e0d0c0b0a0908070605040302010009a20200009003, 0x5121⟩
def exFrond : Frond := { dpFrond with stem := 0x00400140000002010000400000001097 }
def queued (vc : Nat) (f : Frond) : State := setInVc on 9 0 0 vc { q := [⟨f, 4, false⟩] }
def key : Nat := flowKey (.mover 2) true 3
def sentCopy : Copy := ⟨dpMsg, 2, 100, 200, false, .none_⟩
def flowing (f : Flow) : State := { live with trans := { flows := [(key, f)] } }
def waiter : Waiting := ⟨dpMsg, 2, .none_⟩
def waiting : State := { live with trans := { noSlot := [(unitNo (.mover 2), [waiter])] } }

theorem crc_step {f : Nat → Byte → Nat} {l : List Byte} {c d r : Nat} (n : Nat) (h : (l.take n).foldl f c = d) (g : (l.drop n).foldl f d = r) :
    l.foldl f c = r := by rw [← List.take_append_drop n l, List.foldl_append, h, g]
theorem crc_dp : crc16 (payloadBytes dpFrond) = 0x5121 :=
  crc_step 16 (d := 20212) (by decide +kernel) (crc_step 16 (d := 47140) (by decide +kernel) (crc_step 16 (d := 15688) (by decide +kernel) (by decide +kernel)))
theorem meets_PlaneInputs : inputDead on 9 0 0 = false ∧ frozenAt on 9 = false ∧ auditing on 9 0 0 = false ∧ checkOk ⟨0, 0, 0⟩ = false ∧
    checkOk dpFrond = true ∧ reservedStem dpFrond = false ∧ startsMsg dpFrond.stem = true ∧ (inVc on 9 0 0 (stVc dpFrond.stem)).q.length = 0 ∧
    (inVc on 9 0 0 (stVc dpFrond.stem)).opened = none ∧ outwardEdge 9 0 = none ∧
    (match routeOf on 9 0 0 dpFrond with | .goes _ => true | _ => false) = true := by decide +kernel
theorem meets_PlaneInputsPayload : pcheckOk dpFrond = true ∧ pcheckOk { dpFrond with pcheck := 0 } = false := by
  unfold pcheckOk; rw [crc_dp, show crc16 (payloadBytes { dpFrond with pcheck := 0 }) = 0x5121 from crc_dp]; decide
theorem test_frond_check : auditing (after (.frondReceive 9 0 0 ⟨0, 0, 0⟩) on) 9 0 0 = true ∧
    (after (.frondReceive 9 0 0 ⟨0, 0, 0⟩) on).mesh.inv = [] := by decide +kernel
theorem meets_Credits : outwardEdge 0 0 = some 0 ∧ outwardEdge 47 1 = some 1 ∧ outwardEdge 9 5 = none ∧ auditing (setAudit on 9 0 0 true) 9 0 0 = true ∧
    auditDiff (setAudit on 9 0 0 true) 9 0 0 0x10 = [(1, 1)] ∧ (auditDiff (setAudit on 9 0 0 true) 9 0 0 0x11).length = 2 ∧
    (inVc (queued 7 dpFrond) 9 0 0 7).q ≠ [] ∧ (inVc (queued 7 dpFrond) 9 0 0 7).stalled = false ∧
    (inVc (setInVc on 9 0 0 7 { q := [⟨dpFrond, 4, false⟩], stalled := true }) 9 0 0 7).stalled = true := by decide +kernel
theorem test_credit : (outPort (after (.creditReturn 9 0 1 3) (setOutPort on 9 0 1 { credits := List.replicate 8 4 })) 9 0 1).credits = [4, 4, 4, 5, 4, 4, 4, 4] ∧
    (outPort (after (.creditReturn 9 0 1 3) on) 9 0 1).credits = List.replicate 8 8 := by decide +kernel
theorem meets_Outputs : (expressPick (queued 0 exFrond) 9 0 4 = some (0, 0)) ∧ (inVc (queued 0 exFrond) 9 0 0 0).q = [⟨exFrond, 4, false⟩] ∧
    expressPick (queued 2 dpFrond) 9 0 4 = none ∧ pickInput (skidAccrue (queued 2 dpFrond) 9 0 4) 9 0 4 2 (skidReady (skidAccrue (queued 2 dpFrond) 9 0 4) 9 0 4) = some 0 ∧
    girdled (queued 2 dpFrond) 9 = false ∧ frozenAt (queued 2 dpFrond) 9 = false ∧ outwardEdge 9 0 = none ∧
    (∀ h, tapHall 9 = some h → (hallAt (queued 2 dpFrond) h.val).later = []) ∧ outwardEdge 0 0 = some 0 ∧ moduleOf (edgePos 0 0) 1 = 0 ∧
    (modAt { live with brg := { mods := [(0, { state := .up })] } } 0 0).state = .up ∧ fatalLatched live = false ∧
    (inVc (queued 2 dpFrond) 9 0 0 2).q = [⟨dpFrond, 4, false⟩] := by decide +kernel
theorem meets_OutputsIdle : ∀ inp vc, headFor on 9 0 inp vc 4 = none := fun _ _ => rfl
theorem test_arbitrate : (after (.outputArbitrate 9 0 4) (queued 2 dpFrond)).out.drop 1 = [.frond 9 0 4 2 dpFrond, .credit 9 0 0 2] := by decide +kernel
theorem meets_MessagesAreTaken : girdled dpState 2 = false ∧ dormHeld dpState = false ∧ frozenAt dpState 2 = false ∧ dpMsg.vc ≠ vcSpill ∧ dpMsg.vc ≠ vcBackground ∧ namesThisDie dpState dpMsg.dest = true ∧ isFresh dpState dpMsg = true ∧
    lengthBad dpMsg = none ∧ aSpace dpMsg.dest = 0 ∧ aDp dpMsg.dest = true ∧ aAlias dpMsg.dest = 0 ∧ addrFormOk dpMsg.dest = true ∧
    directRangeOk dpMsg.dest 32 = true ∧ aDpByte dpMsg.dest % 32 = 0 ∧ serveHome 2 true dpState dpMsg.dest = .dp 2 ∧
    dpRefuse dpState 2 5 0x100 32 = none ∧ findEntry dpState 2 (keyOf dpMsg) = none ∧ ((recvTable dpState 2).filter (entryLive dpState)).length = 0 ∧
    findEntry (hearing 3) 2 (keyOf dpMsg) = some (entry dpMsg 3) ∧ findEntry (hearing 0) 2 (keyOf dpMsg) = some (entry dpMsg 0) := by decide +kernel
theorem test_message_stored : memBytes (after (.messageArrival 2 dpMsg) dpState) 2 dpBank 0x100 32 = bytes32 ∧
    (recvTable (after (.messageArrival 2 dpMsg) dpState) 2).map RecvEntry.e = [10] := by decide +kernel
theorem test_message_no_flow : memBytes (after (.messageArrival 2 { dpMsg with openFl := false }) dpState) 2 dpBank 0x100 32 = List.replicate 32 0 := by decide +kernel
theorem test_ack_timer : (after (.ackTimer 2 (keyOf dpMsg)) (hearing 3)).time = 270 ∧ (after (.ackTimer 2 (keyOf dpMsg)) (hearing 0)).time = 0 := by decide +kernel
theorem meets_SourceUnits : (flowAt (flowing { win := [sentCopy] }) key).wait = [] ∧ (flowAt (flowing { win := [sentCopy] }) key).win = [sentCopy] ∧
    (flowAt (flowing { win := [sentCopy] }) key).win.find? (fun c => c.m.seq == dpMsg.seq) = some sentCopy ∧ sentCopy.m.op ≠ opReadReq ∧ dpMsg.broken = false ∧ ({ dpMsg with broken := true } : Msg).broken = true ∧
    (∀ c ∈ (flowAt (flowing { win := [sentCopy] }) key).win, c.m.seq ≠ 8) ∧ (flowAt live key).win = [] ∧
    (match targetOf (advanceTo (flowing { win := [sentCopy] }) (200 + retransNs (flowing { win := [sentCopy] }) dpMsg.dest)) 2 dpMsg with
      | .ok _ => true | .error _ => false) = true ∧
    cget [] waiting.trans.noSlot (unitNo (.mover 2)) = [waiter] ∧ (findSlot waiting (.mover 2) (destKey waiting 2 dpMsg, 0)).map Prod.snd = some true ∧
    unitStand waiting (.mover 2) = 2 ∧ windowCount (flowAt waiting (flowKey (.mover 2) true 0)) < 32 ∧ isFinalTile dpMsg = false ∧ dpMsg.op ≠ opAtomic ∧
    (∀ x ∈ waiting.trans.late, x.1 ≠ key) ∧ dpMsg.op ≠ opCtrl ∧
    (match targetOf waiting 2 dpMsg with | .ok x => some x | .error _ => none) =
      (match targetOf waiting 2 { dpMsg with impl := true, chan := 0 } with | .ok x => some x | .error _ => none) ∧
    cget [] live.trans.noSlot (unitNo (.mover 2)) = [] := by decide +kernel
theorem test_timeout : (flowAt (after (.messageTimeout (.mover 2) true 3) (flowing { win := [sentCopy] })) key).win = [] ∧
    (after (.messageTimeout (.mover 2) true 3) (flowing { win := [sentCopy] })).time = 1000100 := by decide +kernel
theorem test_ack_clears : (flowAt (after (.transportAckReceive (.mover 2) ⟨true, 3, 10, 0, 0⟩) (flowing { win := [sentCopy] })) key).win.length = 0 := by decide +kernel
theorem test_slot_taken : (after (.implicitSlotFree (.mover 2)) waiting).trans.noSlot = [] := by decide +kernel

-- tenants, rings, channels

def ctx : RingCtx := { sq := 0x10004, cq := 0x20004, hwin := 0x100000, hsize := 0x4000, isOpen := true }
def rings (n : Nat) (c : RingCtx) (s : State) : State := ctxPut s n c
def t5 : Tenant := { tag := 5 }
def one : State := tenants [(1, t5)] live
def ringed (c : RingCtx) : State := rings 1 c one
def atS8 (s : State) : State := { s with bup := { reported := 8 } }

theorem get_run (v : Nat → Option Tenant) (n a k : Nat) (h : a ≤ k) (g : k < a + n) :
    oget ((List.range' a n).map (fun i => (i, v i))) k = v k := by
  induction n generalizing a with
  | zero => omega
  | succ n ih =>
    simp only [List.range'_succ, List.map_cons, oget, tget]
    split
    · next e => rw [e]
    · next e => exact ih (a + 1) (by omega) (by omega)
theorem find_run (tag : BitVec 16) (n a : Nat) (h : ∀ k, a ≤ k → k < a + n → BitVec.ofNat 16 (k + 1) ≠ tag) :
    ((List.range' a n).map (fun i => (i, some ({ tag := BitVec.ofNat 16 (i + 1) } : Tenant)))).findSome?
      (fun (n, t) => t.bind (fun t => if t.tag = tag then some (n, t) else none)) = none := by
  induction n generalizing a with
  | zero => rfl
  | succ n ih =>
    simp only [List.range'_succ, List.map_cons, List.findSome?_cons, Option.bind_some, if_neg (h a (by omega) (by omega))]
    exact ih (a + 1) (fun k l r => h k (by omega) (by omega))
/-- Every entry in use, under the tags 1 to 4,096. -/
def fullHouse : State :=
  { live with tnt := { entries := (List.range' 0 4096).map (fun i => (i, some ({ tag := BitVec.ofNat 16 (i + 1) } : Tenant))) } }
theorem meets_TenantFull : (5000 : BitVec 16) ≠ 0 ∧ tenantOf fullHouse 5000 = none ∧ ∀ m, m < 4096 → (tenantAt fullHouse m).isSome = true :=
  ⟨by decide, find_run 5000 4096 0 (fun k _ h e => by
      have := congrArg BitVec.toNat e
      rw [BitVec.toNat_ofNat, show (5000 : BitVec 16).toNat = 5000 from rfl] at this
      omega),
    fun m h => by
      rw [show tenantAt fullHouse m = some _ from get_run (fun i => some { tag := BitVec.ofNat 16 (i + 1) }) 4096 0 m (by omega) (by omega)]; rfl⟩
theorem meets_TenantCommands : MgServed one 0x4100 ∧ cmdDone one one.tnt.result = true ∧
    cmdDone one { one.tnt.result with till := one.time + 1 } = false ∧ (7 : BitVec 16) ≠ 0 ∧ tenantOf one 5 = some (1, t5) ∧
    tenantOf one 7 = none ∧ tenantAt one 0 = none ∧ (∀ m, m < 0 → (tenantAt one m).isSome = true) ∧ tenantAt one 4095 = none ∧
    tenantAt one 1 = some t5 ∧ portBound (bound 2 1 5 one) 1 = true ∧ MgServed (bound 2 1 5 one) 0x4100 ∧ portBound one 1 = false ∧ bankOwned one 5 = false ∧
    unfetched one 1 = false ∧ incomplete one 1 = false ∧ incompleteTag one 5 = false := by decide +kernel
theorem test_admit : (after (.tenantAdmit 0) one).tnt.result.status = .badDesc ∧ (fun r => (r.overrun, r.flag, r.index, r.status)) (after (.tenantAdmit 5) one).tnt.result = (false, true, 1, .ok) ∧
    (after (.tenantAdmit 7) one).tnt.result.index = 0 ∧ (tenantAt (after (.tenantAdmit 7) one) 0).map Tenant.tag = some 7 := by decide +kernel
theorem test_overrun : let s := { one with tnt := { one.tnt with result := { one.tnt.result with till := one.time + 1 } } }
    (after (.tenantAdmit 7) s).tnt.result.overrun = true ∧ tenantAt (after (.tenantAdmit 7) s) 0 = none := by decide +kernel
theorem test_retire : (after (.tenantRetire 1) (bound 2 1 5 one)).tnt.result.status = .notReady ∧ tenantAt (after (.tenantRetire 1) one) 1 = none ∧
    (after (.tenantPeek 4095) one).tnt.result.status = .addrRange := by decide +kernel
theorem meets_TenantRates : MgServed one (0xA0000 + 1 * 16) ∧ MgServed one (0xA0000 + 1 * 16 + 8) ∧ MgServed one (0xA0000 + 4095 * 16 + 8) ∧
    tenantAt one 0 = none ∧ tenantAt one 1 = some t5 ∧ bitAt (mkBit 63 true) 63 = true ∧ bitAt t5.police 63 = false ∧ bitAt (0 : Word) 63 = false ∧
    MgServed one 0x100 := by decide +kernel
theorem test_shape : (tenantAt (after (.tenantShapeWrite 1 0x4000000100000064) one) 1).map (fun t => (t.expOk, t.burst, t.rate)) = some (true, 0x1000, 100) := by decide +kernel
theorem meets_CorePortBinding : MgServed one (stdOff 2 0x1C0) ∧ MgServed one (stdOff 47 0x1C0) ∧ bitAt (mkBit 63 true) 63 = true ∧
    tenantAt one (fld (mkBit 63 true) 0 12) = none ∧ tenantAt one (fld (mkBit 63 true ||| 1) 0 12) = some t5 ∧
    boundEntry one 2 ≠ some 1 ∧ boundTag one 2 ≠ some 5 ∧ boundEntry (bound 2 1 5 one) 2 = some 1 ∧ boundTag (bound 2 1 5 one) 2 = some 5 ∧
    cget false (after (.corePortBindWrite 2 (mkBit 63 true ||| 1)) one).slice.zeroing 2 = true ∧
    Up (after (.corePortBindWrite 2 (mkBit 63 true ||| 1)) one) ∧ cget false one.slice.zeroing 2 = false := by decide +kernel
theorem test_bind : boundTag (after (.corePortBindWrite 2 (mkBit 63 true ||| 1)) one) 2 = some 5 ∧
    boundTag (after (.corePortBindWrite 2 (mkBit 63 true)) one) 2 = none := by decide +kernel
theorem meets_RingCommands : MgServed one 0x4040 ∧ cmdDone one one.host.ringRes = true ∧
    cmdDone one { one.host.ringRes with till := one.time + 1 } = false ∧ afterS4 one = true ∧ regBit one 0x2100 63 = false ∧
    girdled one (ctxPlace one 1 0).1 = false ∧ tenantAt one 0 = none ∧ ringsOpen one 1 = false ∧ ringsOpen (ringed ctx) 1 = true ∧
    kOk (regGet one 0x4020) = false ∧ kOk (regGet (regSet one 0x4020 16) 0x4020) = true ∧ kOk (regGet (regSet one 0x4020 17) 0x4020) = false ∧
    kOk (regGet (regSet one 0x4028 4) 0x4028) = true ∧ kOk (regGet (regSet one 0x4028 3) 0x4028) = false ∧
    regFld (regSet one 0x4038 (mk 12 29 (2 ^ 28))) 0x4038 12 29 = 2 ^ 28 ∧ 2 ^ 28 < regFld (regSet one 0x4038 (mk 12 29 (2 ^ 28 + 1))) 0x4038 12 29 ∧
    ctxGet (ringed ctx) 1 = some ctx ∧ ctx.isOpen = true ∧ MgServed (ringed ctx) 0x4040 ∧ unfetched (ringed { ctx with sqTail := 1 }) 1 = true ∧
    unfetched (ringed ctx) 1 = false ∧ incomplete (ringed ctx) 1 = false ∧ incompleteTag (ringed ctx) 5 = false ∧ portBound (ringed ctx) 1 = false ∧
    bankOwned (ringed ctx) 5 = false ∧ tenantAt (ringed ctx) 1 = some t5 ∧
    doorbellOf one (.fabric 1 0 5 8 3) = some (1, 0, 8, 3) ∧ one.dorm.phase = .service := by decide +kernel
theorem test_ring_open : let s := regSet (regSet one 0x4020 0x10004) 0x4028 0x20004
    ctxGet (after (.ringOpen 1) s) 1 = some { sq := 0x10004, cq := 0x20004, isOpen := true } ∧ (after (.ringOpen 0) s).host.ringRes.status = .addrRange ∧
    (after (.ringOpen 1) (regSet s 0x4028 3)).host.ringRes.status = .lenRange := by decide +kernel
theorem test_ring_close : (after (.ringClose 1) (ringed { ctx with sqTail := 1 })).host.ringRes.status = .notReady ∧
    ringsOpen (after (.ringClose 1) (ringed ctx)) 1 = false := by decide +kernel
theorem meets_Doorbells : Up (ringed ctx) ∧ (ringed ctx).dorm.phase = .service ∧ doorbellOf (ringed ctx) (.fabric 1 0 5 4 16) = some (1, 0, 4, 16) ∧
    doorbellOf (ringed ctx) (.fabric 1 8 5 8 0) = some (1, 8, 8, 0) ∧ girdled (ringed ctx) (ctxPlace (ringed ctx) 1 0).1 = false ∧
    idxDiff (fld (16 : Word) 0 32) ctx.sqTail ≤ 2 ^ sqK ctx ∧ idxDiff (fld (16 : Word) 0 32) ctx.sqHead ≤ 2 ^ sqK ctx ∧
    2 ^ sqK ctx < idxDiff (fld (17 : Word) 0 32) ctx.sqTail ∧ ringRoom ctx = true ∧ (ringed ctx).host.holding = [] ∧ lostOf (ringed ctx) 1 = 0 ∧
    idxDiff (fld (0 : Word) 0 32) ctx.cqHead ≤ idxDiff ctx.cqTail ctx.cqHead ∧ doorbellOf (ringed ctx) (.fabric 1 0 6 4 16) = none ∧
    doorbellOf (ringed ctx) (.ha 0 8 16) = none ∧ doorbellOf one (.fabric 1 0 5 2 16) = some (1, 0, 2, 16) ∧ ringsOpen one 1 = false ∧
    one.mg.rstN = true := by decide +kernel
theorem test_doorbell : (ctxGet (after (.sqTailDoorbell (.fabric 1 0 5 4 16)) (ringed ctx)) 1).map RingCtx.sqTail = some 16 ∧
    (ctxGet (after (.sqTailDoorbell (.fabric 1 0 5 4 17)) (ringed ctx)) 1).map (fun c => (c.sqTail, c.cqTail)) = some (0, 1) := by decide +kernel
theorem meets_Fetch : Up (ringed { ctx with sqTail := 12, sqHead := 2 }) ∧ ctxGet (ringed { ctx with sqTail := 12, sqHead := 2 }) 1 = some { ctx with sqTail := 12, sqHead := 2 } ∧
    workHeld (ringed ctx) = false ∧ fatalLatched (ringed ctx) = false ∧ fetching (ringed ctx) 1 = false ∧ idxDiff ctx.cqTail ctx.cqHead + ctx.resv + 1 + heldBack ctx ≤ 2 ^ cqK ctx ∧
    ctx.sqTail = ctx.sqHead ∧ oget (ringed ctx).host.reads 0 = none ∧ descAt (ringed ctx) (ringed ctx).host.nextId = none ∧
    idxDiff ctx.cqTail ctx.cqHead + ctx.resv + 2 * 6 + heldBack ctx ≤ 2 ^ cqK ctx := by decide +kernel
theorem test_fetch : (after (.descriptorFetch 1) (ringed { ctx with sqTail := 12, sqHead := 2 })).out = [.hostRead 0 0x10080 512] ∧
    oget (after (.descriptorFetch 1) (ringed { ctx with sqTail := 12, sqHead := 2 })).host.reads 0 = some (.fetch 1 2 8) := by decide +kernel
def fetched : State := { ringed { ctx with sqTail := 1 } with host := { reads := [(0, some (.fetch 1 0 1))], nextTag := 1 } }
theorem meets_FetchData : ctxGet fetched 1 = some { ctx with sqTail := 1 } ∧ tenantAt fetched 1 = some t5 ∧ oget fetched.host.reads 0 = some (.fetch 1 ctx.sqHead 1) ∧
    descAt fetched fetched.host.nextId = none ∧ fetching fetched 1 = true ∧ oget fetched.host.reads 1 = none := by decide +kernel
theorem test_fetch_data : queueOf (after (.hostMemoryReadCompletion 0 (List.replicate 64 7)) fetched) (.ring 1) = [0] ∧
    (ctxGet (after (.hostMemoryReadCompletion 0 (List.replicate 64 7)) fetched) 1).map RingCtx.sqHead = some 1 := by decide +kernel
def holdOne (c : RingCtx) : State := { ringed c with host := { holding := [(1, none, List.replicate 32 0)] } }
theorem meets_HeldRecords : Up (holdOne ctx) ∧ ctxGet (holdOne ctx) 1 = some ctx ∧ ringRoom ctx = true ∧ girdled (holdOne ctx) (ctxPlace (holdOne ctx) 1 0).1 = false ∧
    lostOf (holdOne ctx) 1 = 0 ∧ ringRoom { ctx with cqTail := 16 } = false ∧ ringRoom { ctx with cqTail := 15 } = true ∧
    ctxGet (holdOne { ctx with cqTail := 16 }) 1 = some { ctx with cqTail := 16 } := by decide +kernel
theorem test_held : (after .holdingRecordWrite (holdOne ctx)).host.holding = [] ∧ (after .holdingRecordWrite (holdOne { ctx with cqTail := 16 })).out = [] := by decide +kernel

/-- Descriptor 7 at the head of an acceptor's queue. -/
def queuing (a : Acceptor) (d : DescSt) (s : State) : State := { s with host := { s.host with descs := [(7, some d)], queues := [(accNo a, [7])] } }
def policed : State := tenants [(1, { t5 with rate := 100, bucket := { t := -1000, last := 0 } })] live
def rawOf (op flags tag : Nat) (src dst : Word) (len handle : Nat) (tail : List Byte) : List Byte :=
  leBytes 1 op ++ leBytes 1 flags ++ leBytes 2 0 ++ leBytes 4 tag ++ leBytes 8 src.toNat ++ leBytes 8 dst.toNat ++ leBytes 8 len ++ leBytes 4 0 ++
  leBytes 4 handle ++ tail ++ List.replicate (24 - tail.length) 0
def signalD : DescSt := { acc := .ring 1, idx := 0, raw := rawOf opSignalD 0 9 0 (mk 60 4 2 ||| mk 40 20 1) 0 0 [], tag16 := 5, phase := .held, colour := some 0 }
theorem meets_ShaperDispatch : Up (queuing (.ring 1) signalD policed) ∧ workHeld (queuing (.ring 1) signalD policed) = false ∧
    nextDesc (queuing (.ring 1) signalD policed) (.ring 1) = some (7, signalD) ∧ signalD.items = [] ∧ (0 : BitVec 2) ≠ red ∧
    descCharge (queuing (.ring 1) signalD policed) signalD.raw = some 64 ∧
    tenantAt (queuing (.ring 1) signalD policed) 1 = some { t5 with rate := 100, bucket := { t := -1000, last := 0 } } ∧ nextDesc policed (.ring 1) = none := by decide +kernel
theorem test_shaper : (after (.shaperDispatch (.ring 1)) (queuing (.ring 1) signalD policed)).time = 10 ∧
    (tenantAt (after (.shaperDispatch (.ring 1)) (queuing (.ring 1) signalD policed)) 1).map (fun x => x.bucket.t) = some (-64000) := by decide +kernel

theorem slot_info (st : StandId) (i : Fin 128) : stdReg st.val (0x1000 + i.val * 32) = stdReg 0 (0x1000 + i.val * 32) := by
  have h : inArray (0x1000 + i.val * 32) 0x200 48 8 = false := by
    revert i; decide +kernel
  unfold stdReg; simp only [h]; rfl
theorem slot_zero : ∀ i : Fin 128, ((stdReg 0 (0x1000 + i.val * 32)).map RegInfo.reset).getD 0 = 0 := by decide +kernel
theorem slot_reset (st : StandId) (i : Nat) (h : i < 128) : regReset (stdOff st (0x1000 + i * 32)) = 0 := by
  have e : standWindow (stdOff st (0x1000 + i * 32)) = some (st, 0x1000 + i * 32) := by
    unfold standWindow stdOff stdBase
    split
    · refine congrArg some (Prod.ext (Fin.ext ?_) ?_) <;> simp only [standOf] <;> omega
    · next n => exact absurd ⟨by omega, by omega⟩ n
  unfold regReset regInfo
  rw [e]
  simp only [slot_info st ⟨i, h⟩]
  exact slot_zero ⟨i, h⟩
theorem no_clash (s : State) (st : StandId) (j : Nat) (w0 x w : Word) (h : s.regs = [(stdOff 2 0x1010, w)]) (l : chLand w0 = false) :
    chanClash s st j w0 x = false := by
  have z : ∀ (t : StandId) i, i < 128 → chanWord s t.val i 0 = 0 := fun t i g => by
    unfold chanWord regGet; rw [h]
    have e : stdOff 2 0x1010 ≠ stdOff (standOf t.val) (0x1000 + i * 32) := by
      simp only [stdOff, stdBase, standOf]; have := t.isLt; rw [Nat.mod_eq_of_lt this]; show 0x20000 + 2 * 0x2000 + 0x1010 ≠ _; omega
    simpa [tget, e] using slot_reset (standOf t.val) i g
  unfold chanClash
  rw [l]
  simp only [Bool.and_eq_false_iff, Bool.false_eq_true, if_false, List.any_eq_false, List.mem_range, Bool.not_eq_true]
  right
  intro t _ i g
  rw [z t i g]
  exact .inl (.inl (.inr (by decide)))
def slot0 (valid land : Bool) : Word := mkBit 63 valid ||| mkBit 62 land ||| mk 32 16 5 ||| mk 0 12 9
def channel (land : Bool) (w2 : Word) : State :=
  regSet (regSet live (stdOff 2 0x1000) (slot0 true land)) (stdOff 2 0x1010) w2
def landing (n : Nat) : State := { channel true (mk 11 13 8) with chan := [(chanKey 2 0, { occ := n })] }
def badSlot (s : State) (word : Nat) (old0 new w0 x y : Word) : Bool :=
  chanBad word w0 new x y || chanClash s 2 0 w0 x ||
    (chLand old0 && (decide ((chanCnt s 2 0).occ ≠ 0) || !(chanCnt s 2 0).spill.isEmpty) && decide (new ≠ chanWord s 2 0 word))
theorem meets_ChannelSlots : MgServed live (stdOff 2 (0x1000 + 0 * 32 + 0 * 8)) ∧ MgServed live (stdOff 47 (0x1000 + 127 * 32 + 3 * 8)) ∧
    chanWord live 2 0 0 = 0 ∧ badSlot live 0 0 (slot0 true true) (slot0 true true) 0 0 = true ∧
    badSlot (channel true (mk 11 13 8)) 2 (slot0 true true) (mk 11 13 4096) (slot0 true true) (mk 11 13 4096) 0 = false ∧
    badSlot (channel true (mk 11 13 8)) 2 (slot0 true true) (mk 11 13 4097) (slot0 true true) (mk 11 13 4097) 0 = true ∧
    chValid (slot0 true false) = true ∧ chLand (slot0 true false) = false := by decide +kernel
def sized : State := regSet live (stdOff 2 0x1010) 64
theorem sized_regs : sized.regs = [(stdOff 2 0x1010, 64)] := by decide +kernel
theorem meets_SendSlot : MgServed sized (stdOff 2 0x1000) ∧ chanWord sized 2 0 2 = 64 ∧ badSlot sized 0 0 (slot0 true false) (slot0 true false) 64 0 = false := by
  refine ⟨by decide +kernel, by decide +kernel, ?_⟩
  unfold badSlot; rewrite [no_clash sized 2 0 _ _ _ sized_regs (by decide)]; decide +kernel
theorem test_slot_write : chanWord (after (.channelSlotWrite 2 0 0 (slot0 true true)) live) 2 0 0 = 0 := by decide +kernel
theorem meets_ReleaseWord : Up (landing 3) ∧ girdled (landing 3) 2 = false ∧ inService (landing 3) 2 = true ∧ chValid (chanWord (landing 3) 2 0 0) = true ∧
    chLand (chanWord (landing 3) 2 0 0) = true ∧ (5 : BitVec 16) = chTag (chanWord (landing 3) 2 0 0) ∧ (chanCnt (landing 3) 2 0).spill = [] ∧
    (6 : BitVec 16) ≠ chTag (chanWord (landing 3) 2 0 0) := by decide +kernel
theorem test_release : (chanCnt (after (.releaseWordAccess 2 0 5 (.add 2)) (landing 3)) 2 0).occ = 1 ∧
    (chanCnt (after (.releaseWordAccess 2 0 5 (.add 4)) (landing 3)) 2 0).released = 3 ∧
    (after (.releaseWordAccess 2 0 5 (.add 4)) (landing 3)).flt.inbox.length = 1 := by decide +kernel

-- descriptors and groups

def portDie : State := bound 2 1 5 one
def pdesc (op : Nat) (src dst : Word) (len handle : Nat) (tail : List Byte) : DescSt :=
  { acc := .port 2, idx := 0, raw := rawOf op 0 9 src dst len handle tail, tag16 := 5, phase := .ready }
def rdesc (op : Nat) (src dst : Word) (len handle : Nat) (tail : List Byte) : DescSt :=
  { acc := .ring 1, idx := 0, raw := rawOf op 0 9 src dst len handle tail, tag16 := 5, phase := .ready }
/-- A MARK with its CRC. -/
def markD : DescSt := { pdesc opMark 0 0 0 0 ((List.replicate 20 0) ++ [0x06, 0x55, 0x4f, 0x82]) with phase := .queued }
def onPort (d : DescSt) : State := queuing (.port 2) d portDie
def onRing (d : DescSt) : State := queuing (.ring 1) d (ringed ctx)
def sends (s : State) (u : SrcUnit) (m : Msg) (i : Nat) (p : BitVec 6) (e : BitVec 2) : Bool :=
  let goes (m : Msg) : Bool := match targetOf s (unitStand s u) m with | .ok x => x == (p, e) | .error _ => false
  goes m && goes { m with impl := true, chan := BitVec.ofNat 12 i } && findSlot s u (destKey s (unitStand s u) m, m.plane) == some (i, true) && decide (i < 256) &&
  (flowAt s (flowKey u true i)).win.isEmpty && (flowAt s (flowKey u true i)).wait.isEmpty && (cget [] s.trans.noSlot (unitNo u)).isEmpty && !finalHeld s u m
theorem sends_at {s u m i p e} (h : sends s u m i p e = true) : SendsAt s u m i p e := by
  simp only [sends, Bool.and_eq_true, decide_eq_true_eq, beq_iff_eq, List.isEmpty_iff, Bool.not_eq_true'] at h
  obtain ⟨⟨⟨⟨⟨⟨⟨a, b⟩, c⟩, d⟩, g⟩, k⟩, l⟩, q⟩ := h
  refine ⟨?_, ?_, c, d, g, k, l, q⟩
  · revert a; split <;> simp_all
  · revert b; split <;> simp_all

theorem meets_DescriptorsAreChecked : Up (onPort markD) ∧ nextDesc (onPort markD) (.port 2) = some (7, markD) ∧ markD.phase = .queued ∧ FreshDesc markD ∧
    markD.acc = .port 2 ∧ regBit (onPort markD) 0xC0000 63 = false ∧ portLossy (onPort markD) 2 = false ∧ workHeld (onPort markD) = false ∧
    dTally markD.raw = false ∧ csSv markD.raw = false ∧ fatalLatched (onPort markD) = false ∧ afterS4 (onPort markD) = true ∧
    descCheck (onPort markD) markD = none ∧ descCharge (onPort markD) markD.raw = none ∧
    descCheck (onPort { markD with raw := rawOf opMark 0 9 0 0 0 0 [] }) { markD with raw := rawOf opMark 0 9 0 0 0 0 [] } = some .badDesc ∧
    workHeld { onPort markD with dorm := { phase := .dormant } } = true ∧ fatalLatched { onPort markD with flt := { fatal := some ⟨0, 0, 0, 0⟩ } } = true := by decide +kernel
theorem test_accept : (descAt (after (.descriptorAccept (.port 2)) (onPort markD)) 7).map DescSt.phase = some .ready ∧
    descAt (after (.descriptorAccept (.port 2)) (onPort { markD with tag16 := 6 })) 7 = none := by decide +kernel

def freeGo (rate : Nat) : State := tenants [(1, { t5 with rate := rate })] (ringed ctx)
def fillD (len : Nat) : DescSt := rdesc opFill 0 (dpAddr 2 0x100) len 0 [7]
def fillW : WorkItem := { desc := 7, off := 0, len := 64, total := 64, src := 0, dst := dpAddr 2 0x100, fill := some 7, tenant := 5, express := false, deliv := false, yellow := false }
def copyD (len : Nat) : DescSt := rdesc opCopy 0x1000 (dpAddr 2 0x100) len 0 []
def fillGo (rate : Nat) (d : DescSt) : State := queuing (.ring 1) d (freeGo rate)
theorem meets_CopyFill : Up (fillGo 0xFFFFF (fillD 64)) ∧ readyDesc (fillGo 0xFFFFF (fillD 64)) (.ring 1) opFill = some (7, fillD 64) ∧ FreshDesc (fillD 64) ∧
    (fillD 64).acc = .ring 1 ∧ (fillD 64).colour = none ∧ regBit (fillGo 0xFFFFF (fillD 64)) 0xC0000 63 = false ∧
    tenantAt (fillGo 0xFFFFF (fillD 64)) 1 = some { t5 with rate := 0xFFFFF } ∧ bitAt t5.police 63 = false ∧ workHeld (fillGo 0xFFFFF (fillD 64)) = false ∧
    dLen (fillD 64).raw = 64 ∧ dSrc (fillGo 0 (fillD 64)) (fillD 64).raw = 0 ∧ dDst (fillGo 0 (fillD 64)) (fillD 64).raw = dpAddr 2 0x100 ∧
    dPattern (fillD 64).raw = 7 ∧ cutItems { fillW with len := 0 } 64 (itemBound 64) = [fillW] ∧
    (match executorOf (fillGo 0xFFFFF (fillD 64)) fillW with | .ok x => decide (x = some (.mover 2)) | .error _ => false) = true ∧
    sends (fillGo 0xFFFFF (fillD 64)) .hostAgent (newMsg (fillGo 0xFFFFF (fillD 64)) .hostAgent (planeOf 0) opCtrl vcReq 5 fillW.dst (itemBytes fillW) 0 0 false false) 0 2 0 = true ∧
    readyDesc (fillGo 0 (copyD 65536)) (.ring 1) opCopy = some (7, copyD 65536) ∧ tenantAt (fillGo 0 (copyD 65536)) 1 = some { t5 with rate := 0 } ∧
    (cutItems { fillW with len := 0, src := 0x1000, fill := none, total := 65536 } 65536 (itemBound 65536)).map WorkItem.len = [65536] ∧
    readyDesc (fillGo 0 (fillD 0)) (.ring 1) opFill = some (7, fillD 0) ∧ dLen (fillD 0).raw = 0 ∧ dTally (fillD 0).raw = false ∧ csSv (fillD 0).raw = false ∧
    ctxGet (fillGo 0 (fillD 0)) 1 = some ctx ∧ lostOf (fillGo 0 (fillD 0)) 1 = 0 := by decide +kernel
theorem test_fill : (descAt (after (.fill (.ring 1)) (fillGo 0xFFFFF (fillD 64))) 7).map (fun d => (d.phase, d.todo)) = some (.running, 1) ∧
    (descAt (after (.fill (.ring 1)) (fillGo 0 (fillD 64))) 7).map DescSt.phase = some .held ∧
    descAt (after (.fill (.ring 1)) (fillGo 0 (fillD 0))) 7 = none := by decide +kernel
def itemX : ItemSt := { w := fillW, ex := .mover 2, todo := 1, unack := 1 }
def handed (x : ItemSt) : State := { one with host := { items := [(3, some x)] } }
theorem meets_WorkItem : Up (handed itemX) ∧ fillW.fill = some 7 ∧ 0 < fillW.len ∧ fillW.len ≤ 4096 ∧ fillW.yellow = false ∧
    (handed itemX).host.items.find? (fun (_, x) => match x with | some x => !x.started && decide (x.ex = SrcUnit.mover 2) && decide (x.w = fillW) | none => false) = some (3, some itemX) ∧
    itemAt (handed itemX) 3 = some itemX ∧ itemX.ctrl = none ∧ itemX.todo = 1 ∧ itemX.unack = 1 ∧ itemX.status = .ok ∧ itemX.ended = false ∧
    sends (handed itemX) (.mover 2) (newMsg (handed itemX) (.mover 2) (planeOf 0) opWrite vcReq 5 (addrPlus fillW.dst 0) (fillBytes 7 (addrPlus fillW.dst 0) 64) 0 0 false false) 0 2 0 = true ∧
    (handed { itemX with started := true }).host.items = [(3, some { itemX with started := true })] := by decide +kernel
theorem meets_WorkItemNone : ∀ i x, (i, some x) ∈ (handed { itemX with started := true }).host.items → x.started = true ∨ x.ex ≠ .mover 2 ∨ x.w ≠ fillW := by
  intro i x h
  simp only [handed, List.mem_singleton, Prod.mk.injEq, Option.some.injEq] at h
  exact .inl (by rw [h.2])
theorem test_item : ((flowAt (after (.workItemReceive (.mover 2) fillW) (handed itemX)) (flowKey (.mover 2) true 0)).win.map (fun z => z.m.data.take 9)) =
    [[7, 0, 0, 0, 0, 0, 0, 0, 7]] := by decide +kernel

def sigAddr : Word := mk 60 4 2 ||| mk 4 12 2
def sigD : DescSt := pdesc opSignalD 0 sigAddr 0 0 [3]
def atomD : DescSt := pdesc opAtomicD 0 (dpAddr 2 0x108) 8 0 [3]
def sendDie (d : DescSt) : State :=
  let s := regSet (regSet (onPort d) (stdOff 2 0x1000) (mkBit 63 true ||| mk 32 16 5 ||| mk 0 12 9)) (stdOff 2 0x1008) (dpAddr 2 0x200)
  { s with host := { s.host with dir := [(9, some 2)] } }
def sendD : DescSt := pdesc opSend 0 0 0 9 []
theorem meets_SingleMessages : Up (onPort sigD) ∧ FreshDesc sigD ∧ sigD.acc = .port 2 ∧ sigD.colour.getD 0 = 0 ∧ regBit (onPort sigD) 0xC0000 63 = false ∧
    portLossy (onPort sigD) 2 = false ∧ dTally sigD.raw = false ∧ csSv sigD.raw = false ∧ dDelivered sigD.raw = false ∧ dExpress sigD.raw = false ∧
    readyDesc (onPort sigD) (.port 2) opSignalD = some (7, sigD) ∧
    sends (onPort sigD) (.port 2) (newMsg (onPort sigD) (.port 2) (planeOf 0) opSignal vcReq 5 (dDst (onPort sigD) sigD.raw)
      (leBytes 4 (dIncrement sigD.raw).toNat) 0 0 false false) 0 2 0 = true ∧
    readyDesc (onPort atomD) (.port 2) opAtomicD = some (7, atomD) ∧
    sends (onPort atomD) (.port 2) (newMsg (onPort atomD) (.port 2) (planeOf 0) opAtomic vcReq 5 (dDst (onPort atomD) atomD.raw)
      (leBytes (dLen atomD.raw) (dPattern atomD.raw).toNat) (dOpx atomD.raw) 0 false false) 0 2 0 = true ∧
    readyDesc (sendDie sendD) (.port 2) opSend = some (7, sendD) ∧ dLen sendD.raw = 0 ∧ sendSlotOf (sendDie sendD) (dHandle sendD.raw) = some (2, 0) ∧
    unsent (sendDie sendD) (.port 2) (dHandle sendD.raw) = none ∧ (flowAt (sendDie sendD) (flowKey (.port 2) false 9)).win = [] ∧ (flowAt (sendDie sendD) (flowKey (.port 2) false 9)).wait = [] ∧
    (match targetOf (sendDie sendD) 2 { newMsg (sendDie sendD) (.port 2) (planeOf (chPlane (chanWord (sendDie sendD) 2 0 0))) opWrite vcReq 5 (chanWord (sendDie sendD) 2 0 1) [] 0 0 false false
        with impl := false, chan := 9 } with | .ok x => x == (2, 0) | .error _ => false) = true := by decide +kernel
theorem test_signal : ((flowAt (after (.signal (.port 2)) (onPort sigD)) (flowKey (.port 2) true 0)).win.map (fun z => z.m.data)) = [[3, 0, 0, 0]] ∧
    (descAt (after (.atomic (.port 2)) (onPort atomD)) 7).map DescSt.phase = some .running := by decide +kernel

def traceOn (d : DescSt) : State := regSet (regSet (regSet (onPort d) 0xC0000 (mkBit 63 true ||| mk 56 2 3)) 0xC0020 (mk 56 8 2)) 0xC0400 2
def fenceD : DescSt := pdesc opFence 0 0 0 0 []
def fenced2 (e : DescSt) (ph : DPhase) : State :=
  { portDie with host := { descs := [(6, some e), (7, some { fenceD with phase := ph })], queues := [(accNo (.port 2), [6, 7])] } }
def goneD : DescSt := { sigD with phase := .complete, unack := 1 }
def waitD : DescSt := pdesc opWait sigAddr 0 0 0 [4]
def mcD : DescSt := pdesc opMcastD 0x1000 (mkBit 63 true) 64 3 []
theorem meets_MarkFenceWait : readyDesc (onPort { markD with phase := .ready }) (.port 2) opMark = some (7, { markD with phase := .ready }) ∧
    FreshDesc fenceD ∧ fenceD.acc = .port 2 ∧ dTally fenceD.raw = false ∧ csSv fenceD.raw = false ∧ portLossy (onPort fenceD) 2 = false ∧
    readyDesc (onPort fenceD) (.port 2) opFence = some (7, fenceD) ∧ regBit (onPort fenceD) 0xC0000 63 = false ∧ fenceClear (onPort fenceD) (.port 2) 7 fenceD = true ∧
    readyDesc (fenced2 goneD .ready) (.port 2) opFence = some (7, fenceD) ∧ fenceClear (fenced2 goneD .ready) (.port 2) 7 fenceD = false ∧
    fenceClear (fenced2 { goneD with unack := 0 } .waiting) (.port 2) 7 { fenceD with phase := .waiting } = true ∧
    nextDesc (fenced2 goneD .waiting) (.port 2) = some (7, { fenceD with phase := .waiting }) ∧ dOp fenceD.raw = opFence ∧
    readyDesc (onPort waitD) (.port 2) opWait = some (7, waitD) ∧ FreshDesc waitD ∧ readyDesc (onPort mcD) (.port 2) opMcastD = some (7, mcD) ∧ FreshDesc mcD := by decide +kernel
theorem meets_MarkTraced : let s := traceOn { markD with phase := .ready }
    traced s (accEntry s (.port 2)) 1 = true ∧ traced s (accEntry s (.port 2)) 0 = false ∧ regFld s 0xC0000 56 2 ≠ 0 ∧ (cget [] s.obs.hold 2).length < 16 ∧
    (cget {} s.obs.srcDrop 2).n = 0 := by decide +kernel
theorem test_fence : descAt (after (.fence (.port 2)) (onPort fenceD)) 7 = none ∧
    (descAt (after (.fence (.port 2)) (fenced2 goneD .ready)) 7).map DescSt.phase = some .waiting ∧
    descAt (after (.fenceRelease (.port 2)) (fenced2 { goneD with unack := 0 } .waiting)) 7 = none := by decide +kernel
/-- A group record with the one member stand 2 of die 0 of package 0, GEPOCH `e`. -/
def record0 (e : Nat) : List Byte :=
  (leBytes 2 2 ++ leBytes 2 1 ++ leBytes 4 1) ++ ((List.range 5).map (fun _ => leBytes 2 0 ++ leBytes 2 1 ++ leBytes 4 1)).flatten ++ leBytes 8 e ++
  leBytes 8 4 ++ [1, 1, 0, 0] ++ leBytes 4 1 ++ List.replicate 56 0 ++ leBytes 128 1
def groupD (len : Nat) : DescSt := rdesc opGroup (if len = 0 then 0 else mk 60 4 4) 0 len 0 []
def grouped (g : Group) (s : State) : State := { s with all := { s.all with groups := [(0, g)] } }
def gOld : Group := { valid := true, tag := 5, record := record0 1 }
def waitsFor (d : DescSt) (s : State) : State := queuing (.ring 1) d { s with host := { s.host with reads := [(3, some (.source 7))], nextTag := 4 } }
theorem meets_Groups : Up (onRing (groupD 256)) ∧ (groupD 256).acc = .ring 1 ∧ (groupD 256).chain = none ∧ regBit (onRing (groupD 256)) 0xC0000 63 = false ∧
    dOp (groupD 256).raw = opGroup ∧ readyDesc (onRing (groupD 256)) (.ring 1) opGroup = some (7, groupD 256) ∧ dLen (groupD 256).raw = 256 ∧
    aSpace (dSrc (onRing (groupD 256)) (groupD 256).raw) = 4 ∧
    (match hostAddr (onRing (groupD 256)) (some 1) (aHostOff (dSrc (onRing (groupD 256)) (groupD 256).raw)) 256 with | .ok b => b == 0x100000 | .error _ => false) = true ∧
    dSrc (onRing (groupD 256)) (groupD 256).raw = mk 60 4 4 := by decide +kernel
theorem meets_GroupData : let d := { groupD 256 with phase := .waiting }
    let s := waitsFor d (grouped gOld (ringed ctx))
    descAt s 7 = some d ∧ oget s.host.reads 3 = some (.source 7) ∧ groupRecordOk s (sub (record0 2) 0 256) = true ∧ (groupAt s (aGroup d.raw)).valid = true ∧
    grEpoch (groupAt s (aGroup d.raw)).record ≠ grEpoch (sub (record0 2) 0 256) ∧ (groupAt s (aGroup d.raw)).armed = false ∧
    (groupAt s (aGroup d.raw)).run = false ∧ groupRecordOk s (record0 2 ++ [0]) = false := by decide +kernel
theorem meets_GroupDissolve : readyDesc (grouped gOld (onRing (groupD 0))) (.ring 1) opGroup = some (7, groupD 0) ∧ dLen (groupD 0).raw = 0 ∧
    (groupAt (grouped gOld (onRing (groupD 0))) (aGroup (groupD 0).raw)).valid = true ∧
    runWaiter (grouped gOld (onRing { groupD 0 with phase := .waiting, since := 1 })) 0 = some (7, { groupD 0 with phase := .waiting, since := 1 }) ∧
    descAt (grouped gOld (onRing { groupD 0 with phase := .waiting, since := 1 })) 7 = some { groupD 0 with phase := .waiting, since := 1 } ∧
    aGroup (groupD 0).raw = 0 := by decide +kernel
theorem test_group : (groupAt (after (.hostMemoryReadCompletion 3 (record0 2)) (waitsFor { groupD 256 with phase := .waiting } (grouped gOld (ringed ctx)))) 0).record = record0 2 ∧
    (groupAt (after (.group (.ring 1)) (grouped gOld (onRing (groupD 0)))) 0).valid = false ∧
    (descAt (after (.group (.ring 1)) (grouped { gOld with run := true } (onRing (groupD 0)))) 7).map (fun d => (d.phase, d.since)) = some (.waiting, 1) := by decide +kernel

/-- An ALLSUM or ARM of group 0: segments of 32 elements, an object as trigger and another as MOBJ. -/
def allD (op len : Nat) (tail : List Byte) : DescSt := rdesc op 0 (mkBit 63 true) len 0 tail
def sumD (len : Nat) : DescSt := allD opAllsum len [0, 0, 1, 0]
def armD (len : Nat) : DescSt := allD opArm len ([0, 0, 1, 0, 0, 0, 0, 0] ++ leBytes 4 3 ++ leBytes 4 5)
def pushing (s : State) : State := storeWord s 2 dpBank (0xF800 / 32) (leBytes 8 (mkBit 63 true ||| mk 59 4 15).toNat ++ List.replicate 24 0)
def owned3 (s : State) : State := regSet s (stdOff 2 0x680) (mk 52 4 3 ||| mk 0 16 5)
def collD (d : DescSt) : State := owned3 (pushing (grouped gOld (onRing d)))
theorem meets_Allsum : Up (collD (sumD 64)) ∧ FreshDesc (sumD 64) ∧ regBit (collD (sumD 64)) 0xC0000 63 = false ∧ workHeld (collD (sumD 64)) = false ∧
    readyDesc (collD (sumD 64)) (.ring 1) opAllsum = some (7, sumD 64) ∧ (groupAt (collD (sumD 64)) (aGroup (sumD 64).raw)).run = false ∧
    allsumCheck (collD (sumD 64)) 5 (sumD 64).raw = none ∧ dLen (sumD 64).raw ≠ 0 ∧ groupGirdled (collD (sumD 64)) 0 = false ∧
    groupStands (groupAt (collD (sumD 64)) 0) = [2] ∧ (declWord (collD (sumD 64)) 2 0).1 = some (mkBit 63 true ||| mk 59 4 15) ∧
    bitAt (mkBit 63 true ||| mk 59 4 15) 63 = true ∧ fld (mkBit 63 true ||| mk 59 4 15) 59 4 = 15 ∧ fld (mkBit 63 true ||| mk 59 4 15) 40 19 = 0 ∧ shareCount (groupAt (collD (sumD 64)) 0).record ≠ 0 ∧
    readyDesc (collD (sumD 0)) (.ring 1) opAllsum = some (7, sumD 0) ∧ allsumCheck (collD (sumD 0)) 5 (sumD 0).raw = none := by decide +kernel
def alloc (s : State) : State := { s with sync := { s.sync with objs := [(5, { alloc := true })] } }
def disD : DescSt := allD opArm 0 ([0, 0, 0, 0, 0, 0, 0, 0, 0, 0, 0, 0] ++ leBytes 2 (2 ^ 15))
def armedDie : State :=
  { grouped { gOld with armed := true } (onRing disD) with all := { groups := [(0, { gOld with armed := true })], ops := [(0, some { desc := 6, raw := (armD 64).raw, opseq := 1 })] } }
theorem meets_Arm : readyDesc (alloc (collD (armD 64))) (.ring 1) opArm = some (7, armD 64) ∧ aDisarm (armD 64).raw = false ∧
    allsumCheck (alloc (collD (armD 64))) 5 (armD 64).raw = none ∧ objLost (alloc (collD (armD 64))) (aTobj (armD 64).raw) = false ∧
    (syncObj (alloc (collD (armD 64))) (aTobj (armD 64).raw)).alloc = true ∧ dLen (armD 64).raw ≠ 0 ∧
    waitHolds (syncObj (alloc (collD (armD 64))) (aTobj (armD 64).raw)) (aTarget (armD 64).raw) = false ∧
    readyDesc armedDie (.ring 1) opArm = some (7, disD) ∧ aDisarm disD.raw = true ∧ (groupAt armedDie (aGroup disD.raw)).armed = true ∧
    (opAt armedDie 0).map OpSt.desc = some 6 := by decide +kernel
def firedOp : OpSt := { desc := 6, raw := (armD 64).raw, opseq := 1, fired := true }
def fired (m : MemSt) : State :=
  { live with all := { groups := [(0, { gOld with run := true })], ops := [(0, some firedOp)], mems := [(2 * 64, some m)] } }
def member0 : MemSt := { push := true, ifmt := 15, ncount := 0 }
theorem meets_Trigger : Up (fired member0) ∧ opAt (fired member0) 0 = some firedOp ∧ firedOp.fired = true ∧ memAt (fired member0) 2 0 = some member0 ∧
    member0.started = false ∧ (2 : StandId) ∈ groupStands (groupAt (fired member0) 0) ∧ dormHeld (fired member0) = false ∧
    shareCount (groupAt (fired member0) 0).record ≠ 0 ∧ member0.lost = [] ∧ segAt member0 member0.open0 = {} ∧ segAt member0 member0.open1 = {} ∧ member0.push = true ∧ member0.final = false ∧ member0.cannot = false ∧ groupGirdled (fired member0) 0 = false ∧
    (segAt member0 member0.open0).own = false ∧ (segAt member0 member0.open1).own = false ∧ regBit (fired member0) 0xC0000 63 = false := by decide +kernel
theorem test_allsum : (groupAt (after (.allsum (.ring 1)) (collD (sumD 64))) 0).run = true ∧ (memAt (after (.allsum (.ring 1)) (collD (sumD 64))) 2 0).map MemSt.started = some true ∧
    (groupAt (after (.arm (.ring 1)) (alloc (collD (armD 64)))) 0).armed = true ∧ (groupAt (after (.armDisarm (.ring 1)) armedDie) 0).armed = false ∧
    (memAt (after (.triggerReceive 2 0) (fired member0)) 2 0).map MemSt.started = some true := by decide +kernel

-- multicast, combining, ALLSUM

def busyChain : State := regSet one (chainOff 3) (mkBit 63 true ||| mkBit 62 true ||| mk 50 8 2 ||| mk 16 16 5)
def chained (s : State) : State := regSet s (chainOff 3) (mkBit 63 true ||| mk 58 4 1 ||| mk 50 8 2 ||| mk 16 16 5)
def memberDie (s : State) : State :=
  regSet (regSet s (mcOff 2 0 0) (mkBit 63 true ||| mkBit 62 true ||| mk 56 6 3)) (mcOff 2 0 1) (mk 16 16 5)
def cmbA : Word := mkBit 63 true ||| mk 33 15 4 ||| mk 21 12 2 ||| mk 0 16 5
def cmbB : Word := mk 21 16 2 ||| mk 5 16 10
def cmbDie (q : CmbQ) : State := let s := regSet (regSet one (cmbOff 2 1 0) cmbA) (cmbOff 2 1 2) cmbB; { s with red := { cmb := [(2 * 8 + 1, q)] } }
theorem meets_CollectiveRegisters : Up one ∧ one.mg.rstN = true ∧ girdled one 2 = false ∧ ccBusy (chainReg busyChain 3) = true ∧ ccBusy (chainReg one 3) = false ∧
    msValid (mcWord (memberDie one) 2 0 0) = true ∧ msChain (mcWord (memberDie one) 2 0 0) = 3 ∧
    regNext one allBits (mcOff 2 1 0) (mkBit 63 true ||| mk 56 6 3) = mkBit 63 true ||| mk 56 6 3 ∧ msChain (mkBit 63 true ||| mk 56 6 3) = 3 ∧
    otherPackage one (msUpper (mk 29 20 4)) = true ∧ otherPackage one (msUpper (mk 29 20 3)) = false ∧ 48 ≤ msStand (mk 23 6 48) ∧ ¬ 48 ≤ msStand (mk 23 6 47) ∧
    (memberAt one 2 3).isSome = false ∧ openCnt (cmbAt one 2 1) = 0 ∧ openCnt (cmbAt (cmbDie { pos := [(0, { held := true })] }) 2 1) ≠ 0 ∧
    regNext one allBits (cmbOff 2 1 0) cmbA = cmbA ∧ cbIfmt cmbA ≤ 10 ∧ cbOfmt cmbA ≤ 10 ∧ cbElems cmbA ≠ 0 ∧ cbNcontrib cmbA ≠ 0 ∧ isMx (cbIfmt cmbA) = false ∧
    isMx (cbOfmt cmbA) = false ∧ (cmbRange cmbA cmbB).1 + (cmbRange cmbA cmbB).2 ≤ 16384 ∧ 64 + resultSize (cbOfmt cmbA) (cbElems cmbA) ≤ cbStride cmbB * 64 ∧
    cbValid (cmbWord one 2 1 0) = false ∧ cbValid cmbA = true ∧ cmbWord (regSet one (cmbOff 2 1 2) cmbB) 2 1 2 = cmbB ∧
    (∀ i : Fin 8, cbValid (cmbWord (regSet one (cmbOff 2 1 2) cmbB) 2 i.val 0) = false) ∧ bitAt (mkBit 63 true) 63 = true := by decide +kernel
theorem test_chain : chainReg (after (.chainWrite 3 (mkBit 63 true ||| mk 58 4 1)) one) 3 = mkBit 63 true ||| mk 58 4 1 ∧
    mcWord (after (.memberSlotWrite 2 1 0 (mkBit 63 true ||| mk 56 6 3)) (memberDie one)) 2 1 0 = 0 ∧
    cmbWord (after (.combiningQueueWrite 2 1 0 cmbA) (regSet one (cmbOff 2 1 2) cmbB)) 2 1 0 = cmbA ∧
    oget (after (.reducerTestArm 2 (mkBit 63 true ||| mk 16 2 3 ||| 5)) one).red.test 2 = some (3, 5) := by decide +kernel

def mcRing : DescSt := { rdesc opMcastD (mk 60 4 4) (mkBit 63 true) 64 3 [] with phase := .waiting }
def mcMsg : Msg := { msg opMcast (mk 34 6 2 ||| 0x1000) bytes32 with vc := vcBcastDown }
def bankDie (s : State) : State := regSet s (stdOff 2 0x680) (mkBit 63 true ||| mk 52 4 1 ||| mk 0 16 5)
def mcExecDie (closed : Option Nat) : State :=
  let s := chained (onPort { mcD with phase := .running, todo := 1, unack := 0 })
  { s with mc := { execs := [(3, some { desc := 7, unit := .mover 2, opid := 0, closed := closed })] } }
def memDie (m : McMember) : State := { memberDie one with mc := { members := [(2 * 64 + 3, some m)] } }
theorem meets_McastDispatch : Up (chained (onRing mcRing)) ∧ regBit (chained (onRing mcRing)) 0xC0000 63 = false ∧ workHeld (chained (onRing mcRing)) = false ∧
    fatalLatched (chained (onRing mcRing)) = false ∧ ccBusy (chainReg (chained (onRing mcRing)) 3) = false ∧ ccValid (chainReg (chained (onRing mcRing)) 3) = true ∧
    girdled (chained (onRing mcRing)) (ccRstand (chainReg (chained (onRing mcRing)) 3)) = false ∧ mcastWaiting (chained (onRing mcRing)) 3 = some (7, mcRing) ∧
    descAt (chained (onRing mcRing)) 7 = some mcRing ∧ dLen mcRing.raw ≠ 0 ∧ aSpace (dSrc (chained (onRing mcRing)) mcRing.raw) = 4 ∧
    (match hostAddr (chained (onRing mcRing)) (accEntry (chained (onRing mcRing)) mcRing.acc) (aHostOff (dSrc (chained (onRing mcRing)) mcRing.raw)) 64 with
      | .ok a => a == 0x100000 | .error _ => false) = true := by decide +kernel
theorem meets_McastReceive : let s := bankDie (memberDie one)
    Arrives s 2 mcMsg ∧ mcMsg.op = opMcast ∧ mcMsg.chan.toNat % 64 = 3 ∧ aAlias mcMsg.dest ≠ 3 ∧ memberSlot s 2 3 = some 0 ∧ mcMsg.tenant = msTag (mcWord s 2 0 1) ∧
    msLast (mcWord s 2 0 0) = true ∧ memberAt s 2 3 = none ∧
    (msgPieces mcMsg.dest mcMsg.data.length).all (fun p => match hubResolve 2 true s p.addr with | .bank b _ => b == 2 | _ => false) = true ∧
    decide ((memWrite s mcMsg.tenant true (hubResolve 2 true) mcMsg.dest mcMsg.data).1 = .ok []) = true ∧ memberSlot one 2 3 = none ∧ Arrives one 2 mcMsg := by decide +kernel
theorem meets_McastReports : execAt (mcExecDie (some 5)) 3 = some { desc := 7, unit := .mover 2, opid := 0, closed := some 5 } ∧
    descAt (mcExecDie (some 5)) 7 = some { mcD with phase := .running, todo := 1, unack := 0 } ∧ mcD.acc = .port 2 ∧ ({ mcD with phase := .running, todo := 1, unack := 0 } : DescSt).phase ≠ .complete ∧
    ({ desc := 7, unit := .mover 2, opid := 0, closed := some 5 } : McExec).poison = false ∧ mcD.chain = none ∧ mcD.unknown = false ∧
    mcD.dead = false ∧ dTally mcD.raw = false ∧ csSv mcD.raw = false ∧
    portLossy (mcExecDie (some 5)) 2 = false ∧ ccMembers (chainReg (mcExecDie (some 5)) 3) = 2 ∧ Up (mcExecDie (some 5)) ∧
    memberAt (memDie { opid := 0, await := true, closes := 1, planes := 1 }) 2 3 = some { opid := 0, await := true, closes := 1, planes := 1 } ∧
    ((1 : BitVec 4) &&& ~~~(1 : BitVec 4)) = 0 ∧ ((3 : BitVec 4) &&& ~~~(1 : BitVec 4)) ≠ 0 := by decide +kernel
theorem test_mcast : (execAt (after (.mcastDispatch 3) (chained (onRing mcRing))) 3).map McExec.desc = some 7 ∧
    memBytes (after (.mcastReceive 2 mcMsg) (bankDie (memberDie one))) 2 0 0x1000 32 = bytes32 ∧
    execAt (after (.mcastReportReceive none 3 3) (mcExecDie (some 5))) 3 = none ∧
    (after (.mcastReportTimeout none 3) (mcExecDie (some 5))).time = 100005 ∧
    memberAt (after (.mcastReportReceive (some 2) 3 1) (memDie { opid := 0, await := true, closes := 1, planes := 1 })) 2 3 = none := by decide +kernel

/-- A contribution of four elements to position 0 of queue 1. -/
def contrib : Msg := { msg opReduce (mk 60 4 0 ||| mk 31 3 1) (leBytes 4 0x3F800000 ++ leBytes 4 0 ++ leBytes 4 0 ++ leBytes 4 0) with w := 1, vc := vcReduceUp }
theorem meets_Combining : Up (cmbDie {}) ∧ Arrives (cmbDie {}) 2 contrib ∧ contrib.op = opReduce ∧ msgLow contrib < 2 ∧ ceQueue contrib.dest = 1 ∧
    cmbJudge (cmbDie {}) 2 contrib = .take ∧ ceLseq contrib.dest = (cmbAt (cmbDie {}) 2 1).next ∧ 0 + 1 < cbNcontrib (cmbWord (cmbDie {}) 2 1 0) ∧
    cmbJudge (cmbDie {}) 2 { contrib with tenant := 6 } = .refuse .owner ∧ Arrives (cmbDie {}) 2 { contrib with tenant := 6 } ∧
    (cmbAt (cmbDie { next := 1, del := some { status := .ok, finals := 2, tail := true } }) 2 1).del = some { status := .ok, finals := 2, tail := true } ∧
    ({ status := .ok, finals := 2, tail := true } : CmbDel).todo = 0 ∧
    (cget {} (cmbAt (cmbDie { next := 1, del := some { status := .ok, finals := 2, tail := true } }) 2 1).pos (cmbPosOf (cmbWord (cmbDie {}) 2 1 0) 1)).held = false ∧
    (cmbAt (cmbDie {}) 2 1).del = none ∧ (cmbAt (cmbDie { timer := some 4 }) 2 1).timer = some 4 ∧ cbTmo (cmbWord (cmbDie {}) 2 1 2) = 10 ∧
    (cmbDie {}).dorm.phase = .service ∧ (cmbAt (cmbDie {}) 2 1).timer = none := by decide +kernel
theorem test_combining : (cget {} (cmbAt (after (.contributionReceive 2 contrib) (cmbDie {})) 2 1).pos 0) = { held := true, finals := 1 } ∧
    accAt (after (.contributionReceive 2 contrib) (cmbDie {})) 2 0 ≠ {} ∧ accAt (after (.contributionReceive 2 contrib) (cmbDie {})) 2 4 = {} ∧
    (cmbAt (after (.landingWriteComplete 2 1) (cmbDie { next := 1, del := some { status := .ok, finals := 2, tail := true } })) 2 1).del = none ∧
    (cmbAt (after (.combiningTimeout 2 1) (cmbDie { timer := some 4, pos := [(0, { held := true, finals := 1 })] })) 2 1).short = 1 ∧
    (after (.combiningTimeout 2 1) (cmbDie { timer := some 4, pos := [(0, { held := true, finals := 1 })] })).time = 10004 := by decide +kernel

/-- A group of the stands 2 and 3, and its operation of two shares in one segment. -/
def record2 : List Byte :=
  (leBytes 2 2 ++ leBytes 2 2 ++ leBytes 4 1) ++ ((List.range 5).map (fun _ => leBytes 2 0 ++ leBytes 2 1 ++ leBytes 4 1)).flatten ++ leBytes 8 1 ++
  leBytes 8 12 ++ [1, 1, 0, 0] ++ leBytes 4 1 ++ List.replicate 56 0 ++ leBytes 128 1
def opX : OpSt := { desc := 6, raw := (allD opAllsum 64 [0, 0, 2, 0]).raw, opseq := 1, fired := true }
def mem2 : MemSt := { push := true, ifmt := 15, ncount := 0, started := true }
def group2 : Group := { valid := true, run := true, tag := 5, opseq := 1, record := record2 }
def summing (o : OpSt) (y : MemSt) : State :=
  { live with all := { groups := [(0, group2)], ops := [(0, some o)], mems := [(2 * 64, some y)] } }
/-- A tile of four elements at element 0 of group 0, from stand 1. -/
def tile : Msg := { msg opReduce (mk 34 26 1 ||| mk 26 2 1) (leBytes 4 0x3F800000 ++ List.replicate 12 0) with w := 2, vc := vcReduceUp }
/-- Stage 1 of share 0 from stand 3: 32 carriers of 0, LAST, one member. -/
def upMsg : Msg := { msg opReduce (mk 34 26 3) ([0, 0x11] ++ leBytes 2 1 ++ leBytes 2 1 ++ leBytes 4 0 ++ leBytes 2 0 ++ leBytes 2 0 ++ leBytes 2 32 ++ leBytes 2 0 ++ leBytes 2 0 ++
  leBytes 4 1 ++ List.replicate 256 0) with w := 3, src := 3, vc := vcReduceUp }
theorem meets_AllsumTiles : Up (summing opX mem2) ∧ opAt (summing opX mem2) 0 = some opX ∧ memAt (summing opX mem2) 2 0 = some mem2 ∧ mem2.push = true ∧
    mem2.final = false ∧ mem2.cannot = false ∧ (segAt mem2 mem2.open0).own = false ∧ (segAt mem2 mem2.open1).own = false ∧ Arrives (summing opX mem2) 2 tile ∧
    tile.op = opReduce ∧ msgLow tile = 2 ∧ tiGroup tile.dest = 0 ∧ tileJudge (summing opX mem2) 2 tile = .take ∧ tiFinal tile.dest = false := by decide +kernel
theorem meets_AllsumTileData : (fmtOf (memFmt opX.raw mem2)).isSome = true ∧ tiElement tile.dest / segLen opX.raw = 0 ∧ segOpen opX.raw mem2 0 = true ∧
    (∀ f ∈ fmtOf (memFmt opX.raw mem2), tileParts opX.raw f (tiElement tile.dest) tile.data 4096 = [(tiElement tile.dest, tile.data)] ∧ (decodeData f tile.data).isSome = true) ∧ mem2.lost = [] ∧ (segAt mem2 mem2.open0).landed = [] ∧ (segAt mem2 mem2.open1).landed = [] ∧ shareCount (groupAt (summing opX mem2) 0).record ≠ 0 ∧
    tileJudge (summing opX mem2) 2 { tile with tenant := 6 } = .refuse .owner ∧ Arrives (summing opX mem2) 2 { tile with tenant := 6 } := by decide +kernel
theorem meets_AllsumStages : Arrives (summing opX mem2) 2 upMsg ∧ upMsg.op = opReduce ∧ msgLow upMsg = 3 ∧ tiGroup upMsg.dest = 0 ∧
    stageJudge (summing opX mem2) 2 upMsg = .take ∧ (hdrOf upMsg.data).phase = 0 ∧ (hdrOf upMsg.data).stage = 1 ∧ (hdrOf upMsg.data).last = true ∧
    senderRank (summing opX mem2) 0 (hdrOf upMsg.data) upMsg = some 1 ∧ (hdrOf upMsg.data).seg = mem2.open0 := by decide +kernel
def heard1 : MemSt := { mem2 with segs := [(0, { shares := [(1, { since := some 7 })] })] }
def sumSent : MemSt := { mem2 with sum := { sent := true, sentAt := 9 } }
theorem meets_AllsumWaits : memAt (summing opX heard1) 2 0 = some heard1 ∧ 0 ≠ segCount opX.raw ∧ segOpen opX.raw heard1 0 = true ∧
    isNode (summing opX heard1) record2 0 2 0 1 = true ∧ (shAt (segAt heard1 0) 0 1).done = false ∧ (shAt (segAt heard1 0) 0 1).since = some 7 ∧
    (segAt heard1 heard1.open0).own = false ∧ memAt (summing opX sumSent) 2 0 = some sumSent ∧ sumSent.sum.sent = true ∧
    holderOf (groupAt (summing opX sumSent) 0).record 0 = 2 ∧ opX.totals = none ∧ (∃ u ∈ stageUnits (summing opX sumSent) record2 0 1, u ∉ opX.landed) := by decide +kernel
theorem test_tile : (memAt (after (.tileReceive 2 tile) (summing opX mem2)) 2 0).map MemSt.dropped = some 0 ∧
    accAt (after (.tileReceive 2 tile) (summing opX mem2)) 2 0 ≠ {} ∧ (after (.tileReceive 2 { tile with tenant := 6 }) (summing opX mem2)).red = {} := by decide +kernel
theorem test_stage : (memAt (after (.stageMessageReceive 2 upMsg) (summing opX mem2)) 2 0).map (fun y => (shAt (segAt y 0) 0 1).last) = some [1] := by decide +kernel
theorem test_waits : (memAt (after (.allsumLossWaitExpiry 2 0 0 0 1) (summing opX heard1)) 2 0).map MemSt.lost = some [⟨0, 0, 1, 1⟩, ⟨0, 0, 1, 0⟩] ∧
    (after (.allsumLossWaitExpiry 2 0 0 0 1) (summing opX heard1)).time = 40007 ∧
    (opAt (after (.allsumResultAbandon 2 0 1) (summing opX sumSent)) 0).map OpSt.lost = some true := by decide +kernel

-- slices and sync objects

def portUp (s : State) : State := { s with port := { s.port with xst := [(2, .up)] } }
def np (we : Bool) (a : Nat) : NpReq := ⟨we, BitVec.ofNat 14 a, allOnes32, 0x0102⟩
  where allOnes32 : BitVec 32 := 0xFFFFFFFF
def nearDie : State := portUp dpState
theorem meets_NearPort : Up nearDie ∧ nearShut live 2 = true ∧ nearShut nearDie 2 = false ∧ popcount (np true 8).be = 32 ∧
    nearRelease ((np true 8).addr.toNat * 32) = false ∧ nearReadOnly nearDie 2 ((np true 8).addr.toNat * 32) = false ∧
    wordSt nearDie 2 dpBank (np false 8).addr.toNat = .clean ∧ nearRelease ((np false 0x7E0).addr.toNat * 32) = true ∧ nearRelease ((np false 0x7FF).addr.toNat * 32) = true ∧
    nearRelease ((np false 0x7DF).addr.toNat * 32) = false ∧ nearReadOnly nearDie 2 ((np true 0x7DF).addr.toNat * 32) = false ∧
    wordSt (setWordSt nearDie 2 dpBank 8 .poison) 2 dpBank (np false 8).addr.toNat = .poison ∧ dpMsg.op = opWrite ∧ meetsWord nearDie 2 dpMsg (np false 8).addr.toNat = true := by decide +kernel
theorem test_near : memBytes (after (.nearPortAccess 2 (np true 8) .none) nearDie) 2 dpBank 0x100 3 = [2, 1, 0] ∧
    cget [] (after (.nearPortAccess 2 (np false 0x7E0) .none) nearDie).port.np 2 = [⟨List.replicate 32 0, false, false⟩] ∧
    (after (.nearPortAccess 2 (np false 8) .none) (setWordSt nearDie 2 dpBank 8 .poison)).free = 32 := by decide +kernel

def bankAt (w : Word) : State := regSet live (stdOff 2 (0x680 + 32 * 8)) w
def own (kind tag more : Nat) : Word := mkBit 63 true ||| mk 52 4 kind ||| mk 0 16 tag ||| BitVec.ofNat 64 more
def retB : Nat := 2 ^ 57
theorem meets_BankHandover : MgServed (bankAt (own 1 5 0)) (stdOff 2 (0x680 + 32 * 8)) ∧ ownReg (bankAt (own 1 5 0)) 2 32 = own 1 5 0 ∧
    entryOfPrimary (bankAt (own 1 5 0)) 2 32 = none ∧ ownRefuse (bankAt (own 1 5 0)) 2 32 (own 8 0 0) = true ∧ ownRefuse (bankAt (own 1 5 0)) 2 32 (own 1 6 0) = false ∧
    merge (mask 57 1 ||| mask 52 4 ||| mask 0 16) (own 1 5 0) (own 1 6 0) = own 1 6 0 ∧ ownTag (own 1 6 0) ≠ ownTag (own 1 5 0) ∧ ownKind (own 1 6 0) ≠ 0 ∧
    bitAt (own 1 6 0) 56 = false ∧ ownRstate (own 1 5 0) = 0 ∧ ownRefuse (bankAt (own 1 5 0)) 2 32 (own 0 0 0) = false ∧ ownKind (own 0 0 0) = 0 := by decide +kernel
theorem meets_BankRet : ownRefuse (bankAt (own 1 5 0)) 2 32 (own 1 5 retB) = false ∧ ownRet (own 1 5 0) = false ∧ ownRet (own 1 5 retB) = true ∧
    ownRstate (own 1 5 (retB + 2 ^ 58)) = 1 ∧ ownRstate (own 1 5 (retB + 2 ^ 59)) = 2 ∧ ownRet (own 1 5 (retB + 2 ^ 58)) = true ∧ ownBusy (own 1 5 (2 ^ 62)) = true ∧
    ownRstate (own 1 5 (2 ^ 62)) = 0 ∧ ownRstate (own 1 5 (2 ^ 58 + 2 ^ 59)) = 3 ∧ ownRet (own 1 5 (2 ^ 58 + 2 ^ 59)) = false ∧
    ownReg (bankAt (own 1 5 (2 ^ 62))) 2 32 = own 1 5 (2 ^ 62) ∧ Up (bankAt (own 1 5 (2 ^ 62))) ∧ ownBusy (own 1 5 0) = false := by decide +kernel
theorem test_handover : ownBusy (ownReg (after (.bankHandover 2 32 (own 1 6 0)) (bankAt (own 1 5 0))) 2 32) = true ∧
    ownRstate (ownReg (after (.bankRetWrite 2 32 (own 1 5 retB)) (bankAt (own 1 5 0))) 2 32) = 1 := by decide +kernel
theorem test_banks : ownBusy (ownReg (after (.bankWipeComplete 2 32) (bankAt (own 1 5 (2 ^ 62)))) 2 32) = false ∧
    ownRstate (ownReg (after (.bankRetentionEntered 2 32) (bankAt (own 1 5 (retB + 2 ^ 58)))) 2 32) = 2 ∧
    ownRstate (ownReg (after (.bankWakeComplete 2 32) (bankAt (own 1 5 (2 ^ 58 + 2 ^ 59)))) 2 32) = 0 := by decide +kernel

/-- Entry 64, bank 0 of stand 2, with its twin in bank 33 of stand 3, which is being filled. -/
def twinC : Word := coppiceReset 64 ||| mkBit 32 true ||| mk 24 6 33 ||| mk 16 6 3
def filling : State := regSet { putBytes live 2 0 0x40 [9] with map := { coppice := [(64, twinC)] } } (stdOff 3 (0x680 + 33 * 8)) (own 1 5 (2 ^ 61))
theorem meets_TwinFill : Up filling ∧ coppice filling 64 = twinC ∧ copState twinC = 1 ∧ copTwin twinC = true ∧ copPStand twinC = 2 ∧ copPBank twinC = 0 ∧
    copTStand twinC = 3 ∧ copTBank twinC = 33 ∧ ownTsync (ownReg filling 3 33) = true ∧ girdled filling 2 = false ∧ girdled filling 3 = false ∧
    oget filling.map.rehomes 64 = none := by decide +kernel
theorem meets_TwinClean : ∀ w, w < 65536 → wordSt filling 2 0 w = .clean := fun _ _ => rfl
def scrubbing (p : Nat) : State := { live with slice := { scrub := [(2, p)] } }
theorem meets_Scrub : Up (scrubbing 5) ∧ regBit (scrubbing 5) (stdOff 2 0x7B8) 63 = true ∧ girdled (scrubbing 5) 2 = false ∧ frozenAt (scrubbing 5) 2 = false ∧
    standDormant (scrubbing 5) 2 = false ∧ cget 0 (scrubbing 5).slice.scrub 2 = 5 ∧ 34 ≤ (scrubTotal - 1) / 65536 ∧
    cget 0 (scrubbing (scrubTotal - 1)).slice.scrub 2 = scrubTotal - 1 ∧ scrubTotal - 1 + 1 = scrubTotal ∧
    wordSt (scrubbing (scrubTotal - 1)) 2 ((scrubTotal - 1) / 65536) ((scrubTotal - 1) % 65536) = .clean ∧
    scrubBank (regSet (scrubbing 5) (stdOff 2 0x680) (own 1 5 0)) 2 (5 / 65536) = true ∧ regBit (regSet live (stdOff 2 0x7B8) 0) (stdOff 2 0x7B8) 63 = false := by decide +kernel
def rawDie : State :=
  regSet (regSet (regSet { live with map := { gstand := 4 } } (stdOff 2 0x7A0) 1) (stdOff 2 0x680) (own 1 5 0)) (stdOff 2 0x7D0) 0x1122
theorem meets_Raw : Up rawDie ∧ rawDie.mg.rstN = true ∧ girdled rawDie 2 = true ∧ girdled live 2 = false ∧ fld (1 : Word) 0 2 = 1 ∧ fld (3 : Word) 0 2 = 3 ∧
    inService live 2 = true ∧ inService rawDie 2 = false ∧ bitAt (mkBit 57 true ||| mkBit 58 true) 57 = true ∧ bitAt (mkBit 57 true) 58 = false ∧
    bitAt (mkBit 57 true) 59 = false ∧ fld (mkBit 57 true) 51 6 < 34 ∧ fld (mkBit 57 true) 0 21 % 32 = 0 ∧ rawDie.bup.reported ≠ 5 ∧ ownKind (ownReg rawDie 2 0) ≠ 0 ∧
    wordSt rawDie 2 0 0 = .clean ∧ rawDone rawDie 2 = true ∧
    rawDone { rawDie with slice := { rawDie.slice with raw := [(2, rawDie.time + 1)] } } 2 = false := by decide +kernel
theorem test_raw : memBytes (after (.rawWrite 2 (mkBit 57 true ||| mkBit 58 true)) rawDie) 2 0 0 2 = [0x22, 0x11] ∧
    regBit (after (.rawRead 2 (mkBit 57 true)) live) (stdOff 2 0x7C0) 60 = true ∧
    regFld (after (.sliceModeWrite 2 1) live) (stdOff 2 0x7A0) 0 2 = 0 ∧ cget 0 (after (.scrubRead 2) (scrubbing (scrubTotal - 1))).slice.scrub 2 = 0 := by decide +kernel
theorem test_pass_waits : (after (.scrubRead 2) live).time = live.time ∧ oget (after (.scrubRead 2) live).slice.scrubAt 2 = some live.time ∧
    (after (.scrubRead 2) { live with slice := { scrubAt := [(2, some 5)] } }).time = 60000000005 := by decide +kernel
theorem test_twin_partial : let r := (bankWrite (setWordSt (regSet filling (stdOff 2 0x680) (own 1 5 0)) 2 0 2 .poison) 2 0 5 false 0x50 (List.replicate 40 7) 0).2
    memByte r 2 0 0x60 = 7 ∧ memByte r 3 33 0x60 = 7 ∧ memByte r 3 33 0x50 = 0 ∧ ownTstale (ownReg r 3 33) = false := by decide +kernel
theorem test_twin : ownTsync (ownReg (after (.twinFillComplete 64) filling) 3 33) = false ∧ memByte (after (.twinFillComplete 64) filling) 3 33 0x40 = 9 := by decide +kernel

def objs (o : SyncObj) : State := { live with sync := { objs := [(5, o)] } }
theorem meets_SyncObjects : Up (objs { alloc := true, count := 3 }) ∧ objLost (objs { alloc := true, count := 3 }) 5 = false ∧ (syncObj (objs { alloc := true, count := 3 }) 5).alloc = true ∧
    objLost { live with map := { gstand := 32 } } 5 = true ∧ live.mg.rstN = true ∧ (syncObj live 5).alloc = false ∧ shadowShut live (5 % 48) = false ∧
    0 ≤ ((3 : BitVec 32).toNat : Int) + (0xFFFFFFFD : BitVec 32).toInt ∧ ((3 : BitVec 32).toNat : Int) + (0xFFFFFFFC : BitVec 32).toInt < 0 ∧
    ((0xFFFFFFFE : BitVec 32).toNat : Int) + (1 : BitVec 32).toInt < 2 ^ 32 ∧ 2 ^ 32 ≤ ((0xFFFFFFFE : BitVec 32).toNat : Int) + (2 : BitVec 32).toInt ∧
    bitAt (mkBit 63 true) 63 = true ∧ bitAt (0 : Word) 63 = false := by decide +kernel
theorem test_sync : (syncObj (after (.signalApply 5 0xFFFFFFFD) (objs { alloc := true, count := 3 })) 5).count = 0 ∧
    (syncObj (after (.signalApply 5 0xFFFFFFFC) (objs { alloc := true, count := 3 })) 5).unf = true ∧
    (syncObj (after (.signalApply 5 2) (objs { alloc := true, count := 0xFFFFFFFE })) 5) = { alloc := true, count := 0xFFFFFFFF, ovf := true } ∧
    memBytes (after (.signalApply 5 2) (objs { alloc := true, count := 3 })) 5 dpBank 0x10000 1 = [5] := by decide +kernel
theorem test_sync_control : syncObj (after (.syncControlWrite 5 0) (objs { alloc := true, count := 3 })) 5 = { count := 3, misuse := true } ∧
    syncObj (after (.syncObjectWrite 5 0x700000009) (objs { alloc := true })) 5 = { alloc := true, count := 9, target := 7 } := by decide +kernel

/-- A WAIT of port 2 for object 2 of this die. -/
def waitW : DescSt := { pdesc opWait (mk 60 4 2 ||| mk 4 12 2) 0 0 0 [4] with phase := .waiting }
def waitX (m : WaitMode) : WaitSt := { desc := 7, addr := mk 60 4 2 ||| mk 4 12 2, target := 4, tmo := 10, start := 5, mode := m }
def waitDie (m : WaitMode) (o : SyncObj) (n : Nat) : State :=
  { onPort waitW with sync := { objs := [(2, o)], waits := [(4098, some (waitX m))], watches := [(2, List.replicate n { obj := 50, target := 1, acc := .ring 0, desc := 0 })] } }
theorem meets_Waits : let s := waitDie .asking { alloc := true } 127
    Up s ∧ oget s.sync.waits 4098 = some (waitX .asking) ∧ (waitX .asking).mode = .asking ∧ namesThisDie s (waitX .asking).addr = true ∧
    objLost s (aObject (waitX .asking).addr) = false ∧ (syncObj s (aObject (waitX .asking).addr)).alloc = true ∧ waitHolds (syncObj s 2) 4 = false ∧
    waitHolds { alloc := true, count := 4 } 4 = true ∧ waitHolds { alloc := true, count := 3 } 4 = false ∧ (watchesOf s (aObject (waitX .asking).addr)).length < 128 ∧
    128 ≤ (watchesOf (waitDie .asking { alloc := true } 128) 2).length ∧ descAt s 7 = some waitW ∧ waitW.phase = .waiting ∧ FreshDesc waitW ∧ waitW.acc = .port 2 ∧
    portLossy s 2 = false ∧ fenced s 2 = false ∧ dTally waitW.raw = false ∧ csSv waitW.raw = false ∧ regBit s 0xC0000 63 = false ∧ workHeld s = false ∧
    (waitX (.reported .ok)).mode = .reported .ok ∧ (waitX .asking).tmo ≠ 0 ∧ s.dorm.phase = .service := by decide +kernel
/-- A wait that asks its object again, at a port whose shaper lets a read go. -/
def pollDie : State := tenants [(1, { t5 with rate := 0xFFFFF })] (waitDie .polling { alloc := true } 0)
theorem meets_Poll : oget pollDie.sync.waits 4098 = some (waitX .polling) ∧ Up pollDie ∧ workHeld pollDie = false ∧ (waitX .polling).colour = none ∧
    descAt pollDie 7 = some waitW ∧ bitAt (portPolice pollDie 2) 63 = false ∧ (boundEntry pollDie 2).bind (tenantAt pollDie) = some { t5 with rate := 0xFFFFF } ∧
    (mayDispatch (cget {} pollDie.tnt.portBkt 2) 0xFFFFF t5.burst (chargeOf 2) pollDie.time).1 = true ∧ (waitX .polling).mode = .polling ∧ (waitX .polling).target ≠ 0 ∧
    sends pollDie (.port 2) (readMsg pollDie (.port 2) (planeOf 0) waitW.tag16 ((waitX .polling).addr + BitVec.ofNat 64 0) 4 false) 0 2 0 = true := by decide +kernel
theorem test_waits_end : (oget (after (.watchRegister (.port 2)) (waitDie .asking { alloc := true } 128)).sync.waits 4098).map WaitSt.mode = some .polling ∧
    (watchesOf (after (.watchRegister (.port 2)) (waitDie .asking { alloc := true } 127)) 2).length = 128 ∧
    cget false (after (.watchReport (.port 2)) (waitDie (.reported .ok) { alloc := true } 0)).port.wake 2 = true ∧
    (after (.waitTimeout (.port 2)) (waitDie .watched { alloc := true } 0)).time = 10005 := by decide +kernel
theorem test_poll : ((flowAt (after (.waitPoll (.port 2)) pollDie) (flowKey (.port 2) true 0)).win.map (fun z => (z.m.op, z.m.len, z.m.data))) = [(opReadReq, 2, [4, 0])] := by decide +kernel

-- barriers, sidebands, dormancy

def barDie (b : Bar) : State := { portUp portDie with sync := { bars := [(3, b)] } }
def bar0 : Bar := { mask := 4, en := true, tag := 5, tmo := 20 }
theorem meets_BarrierRewrite : MgServed (barDie bar0) (0x90000 + 3 * 32 + 1 * 8) ∧ MgServed (barDie bar0) (0x90000 + 63 * 32) ∧ barAt (barDie bar0) 3 = bar0 ∧
    (bar0.en && !bar0.broken && bar0.arrived != 0) = false ∧ (({ bar0 with arrived := 4 } : Bar).en && !bar0.broken && ({ bar0 with arrived := 4 } : Bar).arrived != 0) = true ∧
    bitAt (mkBit 62 true) 62 = true ∧ bitAt (mkBit 62 true) (58 + pdie (barDie bar0)) = false ∧ bitAt (mkBit 62 true ||| mkBit 58 true) (58 + pdie (barDie bar0)) = true ∧
    bitAt (mkBit 63 true) 62 = false ∧ bar0.mask ≠ 0 ∧ fld (0 : Word) 0 48 = 0 ∧ bar0.pkg = false ∧ portLossy (barDie bar0) 2 = false ∧ (barAt live 3).en = false := by decide +kernel
theorem meets_MembersPresent : MembersPresent (barDie bar0) 4 ∧ dormHeld (barDie bar0) = false ∧
    dormHeld { barDie { bar0 with arrived := 4, first := some 7 } with dorm := { phase := .entering } } = true ∧
    MgServed { barDie { bar0 with arrived := 4 } with dorm := { phase := .entering } } (0x90000 + 3 * 32 + 1 * 8) := by decide +kernel
theorem test_barrier_write : barAt (after (.barrierRewrite 3 1 0) (barDie { bar0 with arrived := 4 })) 3 = { mask := 4 } ∧
    barAt (after (.barrierRewrite 3 0 1) (barDie { bar0 with arrived := 4 })) 3 = { bar0 with arrived := 4 } := by decide +kernel
def arriving : RqMsg := { rq 6 with bar := 3 }
theorem meets_BarrierArrival : PortOpen (barDie bar0) 2 ∧ arriving.kind = 6 ∧ rqFormOk arriving = true ∧ arriving.bar.toNat = 3 ∧ bitAt bar0.mask 2 = true ∧
    boundTag (barDie bar0) 2 = some bar0.tag ∧ boundTag (barDie { bar0 with tag := 6 }) 2 ≠ some 6 ∧ (barAt (barDie bar0) 4).en = false ∧
    bar0.mask &&& ~~~(setBit bar0.arrived 2 true) = 0 ∧ (0xC : BitVec 48) &&& ~~~(setBit (0 : BitVec 48) 2 true) ≠ 0 ∧ bitAt ({ bar0 with arrived := 4 } : Bar).arrived 2 = true := by decide +kernel
theorem meets_BarrierTimeout : barAt (barDie { bar0 with first := some 7, mask := 12, arrived := 4 }) 3 = { bar0 with first := some 7, mask := 12, arrived := 4 } ∧
    Up (barDie bar0) ∧ (barDie bar0).dorm.phase = .service ∧ bar0.broken = false ∧ bar0.tmo ≠ 0 ∧ bar0.first = none := by decide +kernel
theorem test_arrival : barAt (after (.barrierArrival 2 arriving) (barDie bar0)) 3 = { bar0 with phase := true } ∧
    cget false (after (.barrierArrival 2 arriving) (barDie bar0)).port.wake 2 = true ∧
    (barAt (after (.barrierArrival 2 arriving) (barDie { bar0 with mask := 12 })) 3).arrived = 4 := by decide +kernel
theorem test_bar_timeout : (barAt (after (.barrierTimeout 3) (barDie { bar0 with first := some 7, mask := 12, arrived := 4 })) 3).broken = true ∧
    (after (.barrierTimeout 3) (barDie { bar0 with first := some 7, mask := 12, arrived := 4 })).time = 20007 ∧
    (after (.barrierTimeout 3) { barDie { bar0 with first := some 7, mask := 12, arrived := 4 } with dorm := { phase := .entering } }).sync.rels = [(2, 3, .timeout)] := by decide +kernel

def pkgBar : Bar := { mask := 4, en := true, pkg := true, dmask := 3, tag := 5 }
def edged (b : Bar) : State := { barDie b with brg := { mods := [(0, { state := .up })], sb := [(0, { up := true })] } }
def update (n : Nat) (b : Bar) : Byte × Byte := sbBytes n (b.phase, b.vec)
theorem meets_Sidebands : Up (edged pkgBar) ∧ bitAt (update 3 { pkgBar with vec := 2 }).1 7 = true ∧ bitAt (update 3 { pkgBar with vec := 2 }).2 7 = false ∧
    fld (update 3 { pkgBar with vec := 2 }).2 0 3 = crc3 (fld (update 3 { pkgBar with vec := 2 }).1 0 7) (update 3 { pkgBar with vec := 2 }).2.toNat ∧
    fld (update 3 { pkgBar with vec := 2 }).1 0 6 = 3 ∧ pkgBar.phase = bitAt (update 3 { pkgBar with vec := 2 }).1 6 ∧ dormHeld (edged pkgBar) = false ∧
    barLoss (setSb (edged pkgBar) 0 ⟨true, (edged pkgBar).time⟩) pkgBar = none ∧ barOwn pkgBar = false ∧ barOwn { pkgBar with arrived := 4 } = true ∧
    pkgBar.dmask &&& ~~~(setBit ((0 : BitVec 4) ||| BitVec.ofNat 4 (fld (update 3 { pkgBar with vec := 2 }).2 3 4)) (pdie (edged pkgBar)) true) = 0 ∧
    (sbAt (edged pkgBar) 0).up = true ∧ (sbAt (edged pkgBar) 1).up = false ∧
    (barLoss (setSb (edged pkgBar) 0 { sbAt (edged pkgBar) 0 with up := false }) pkgBar).isSome = true ∧
    pkgBar.phase ≠ bitAt (update 3 { pkgBar with phase := true }).1 6 := by decide +kernel
theorem meets_SidebandBad : ∀ a : Byte, (some 0 : Option Byte) = some a → bitAt a 7 = false ∨ bitAt (0 : Byte) 7 = true ∨ fld (0 : Byte) 0 3 ≠ crc3 (fld a 0 7) (0 : Byte).toNat :=
  fun a h => by cases h; exact .inl (by decide)
theorem test_sideband : (barAt (after (.sidebandUpdateReceive 0 (some (update 3 { pkgBar with vec := 2 }).1) (update 3 { pkgBar with vec := 2 }).2) (edged pkgBar)) 3).vec = 2 ∧
    (barAt (after (.sidebandUpdateReceive 0 (some (update 3 { pkgBar with vec := 2 }).1) (update 3 { pkgBar with vec := 2 }).2) (edged { pkgBar with arrived := 4, first := some 0 })) 3).phase = true ∧
    (after (.sidebandUpdateReceive 0 none 0) (edged pkgBar)).flt.inbox.length = 1 ∧ (after .sidebandResend (edged pkgBar)).out.length = 1 ∧
    (barAt (after (.sidebandLoss 0) (edged pkgBar)) 3).broken = true ∧ (after (.sidebandLoss 0) (edged pkgBar)).time = 10000 := by decide +kernel

def dorm (d : DormState) : State := { live with dorm := d }
def nowB : Word := mkBit 62 true ||| mkBit 63 true
theorem meets_DormancyRounds : MgServed live 0xA20 ∧ bitAt nowB 61 = false ∧ bitAt nowB 62 = true ∧ bitAt nowB 63 = true ∧ live.dorm.phase = .service ∧ 7 ≤ live.bup.reported ∧
    live.obs.dump = .idle ∧ fatalLatched live = false ∧ bitAt (mkBit 61 true) 61 = true ∧ bitAt (mkBit 61 true) 62 = false ∧
    mayPropose (regSet live 0xA20 (mkBit 63 true)) = true ∧ dieIdle (regSet live 0xA20 (mkBit 63 true)) = true ∧ mayPropose live = false ∧ dieIdle live = true ∧
    Voter.collector ∉ (dorm { phase := .proposed }).dorm.nos.map Prod.fst ∧ Voter.collector ∈ (dorm { phase := .proposed, nos := [(.collector, true)] }).dorm.nos.map Prod.fst ∧
    Voter.stand 2 ∈ voters (dorm { phase := .proposed }) ∧ voterIdle (dorm { phase := .proposed }) (.stand 2) = true ∧
    voterIdle { dorm { phase := .proposed } with tnt := { result := { till := 2 ^ 60 } } } .collector = false ∧
    Voter.stand 2 ∉ voters { live with map := { gstand := 4 } } := by decide +kernel
theorem meets_DormancyVotes : let s := dorm { phase := .proposed, cast := voters live, yes := (voters live).erase .collector }
    Up s ∧ s.dorm.phase = .proposed ∧ Voter.collector ∈ s.dorm.cast ∧ Voter.collector ∉ s.dorm.yes ∧ (∀ x ∈ voters s, x = .collector ∨ x ∈ s.dorm.yes) ∧
    (∃ x ∈ voters (dorm { phase := .proposed }), x ≠ .collector ∧ x ∉ (dorm { phase := .proposed }).dorm.yes) ∧ (1 : Nat) ≠ s.dorm.round ∧
    (Voter.collector, true) ∈ (dorm { phase := .proposed, nos := [(.collector, true)] }).dorm.nos ∧ (Voter.collector, true) ∉ s.dorm.nos := by decide +kernel
theorem test_dormancy : (after (.dormancyNow nowB) live).dorm.phase = .proposed ∧ (after .dormancyVoteTimeout (dorm { phase := .proposed, at_ := 7 })).time = 2007 ∧
    (after (.dormancyVote .collector 0 true) (dorm { phase := .proposed, cast := voters live, yes := (voters live).erase .collector })).dorm.phase = .entering ∧
    (after (.dormancyVote .collector 0 false) (dorm { phase := .proposed, cast := [.collector] })).dorm.why = 2 ∧
    (after (.dormancyProposeReceive .collector) (dorm { phase := .proposed })).dorm.cast = [.collector] ∧
    (after (.dormancyWakeWrite (mkBit 61 true)) (dorm { phase := .proposed })).dorm.nos = [(.collector, true)] ∧
    (after (.dormancyVote .collector 0 false) (dorm { phase := .proposed, nos := [(.collector, true)] })).dorm.why = 1 := by decide +kernel
def entering (l : Bool) (w : Word) : State :=
  regSet (dorm { phase := .entering, latched := l, taken := stands, banks := [(2, 0)] }) (stdOff 2 0x680) w
theorem meets_DormancyEntry : (dorm { phase := .entering }).dorm.phase = .entering ∧ (2 : StandId) ∉ (dorm { phase := .entering }).dorm.taken ∧ girdled (dorm { phase := .entering }) 2 = false ∧
    dormTakes (regSet (dorm { phase := .entering }) (stdOff 2 0x680) (own 1 5 0)) 2 0 = true ∧ (2 : StandId) ∈ stands ∧
    (∀ st : StandId, girdled (entering false 0) st.val = true ∨ st ∈ (entering false 0).dorm.taken) ∧
    (∀ p ∈ (entering false (own 1 5 (retB + 2 ^ 59))).dorm.banks, dormEntering (entering false (own 1 5 (retB + 2 ^ 59))) p = false) ∧
    dormEntering (entering false (own 1 5 (retB + 2 ^ 58))) (2, 0) = true ∧ (entering true 0).dorm.latched = true ∧ Up (entering true 0) ∧
    (dorm { phase := .dormant }).dorm.phase = .dormant ∧ live.dorm.phase ≠ .dormant := by decide +kernel
def exiting (p : Nat) : State := { dorm { phase := .exiting, banks := [(2, 0)] } with pwr := { p := p } }
theorem meets_DormancyExit : (exiting 160).dorm.phase = .exiting ∧ (∀ p ∈ (exiting 160).dorm.banks, girdled (exiting 160) p.1.val = true ∨ ownRstate (ownReg (exiting 160) p.1.val p.2) = 0) ∧
    160 ≤ (exiting 160).pwr.p ∧ (exiting 160).sync.held = [] ∧ (exiting 159).pwr.p < 160 := by decide +kernel
theorem meets_DormancyExitPorts : ∀ k, rqOf (exiting 160) k = [] := fun _ => rfl
theorem test_dorm_entry : (after (.dormancyCommit 2) (regSet (dorm { phase := .entering }) (stdOff 2 0x680) (own 1 5 0))).dorm.banks = [(2, 0)] ∧
    (after .dormancyEntryComplete (entering false (own 1 5 (retB + 2 ^ 59)))).dorm.phase = .dormant ∧
    (after .dormancyEntryComplete (entering true (own 1 5 (retB + 2 ^ 59)))).dorm.phase = .exiting ∧
    ownRstate (ownReg (after .dormancyExitStart { entering false (own 1 5 (retB + 2 ^ 59)) with dorm := { phase := .dormant, banks := [(2, 0)] } }) 2 0) = 3 ∧
    (after .dormancyExitComplete (exiting 160)).dorm.phase = .service ∧ (after .dormancyExitComplete (exiting 159)).dorm.phase = .exiting := by decide +kernel

-- core ports

def port2 : State := portUp portDie
def wr : RqMsg := { rq 1 with rid := 7, len := 32, nbytes := 64, addr := mkBit 63 true ||| dpAddr 2 0x100, data := bytes32 }
def rd : RqMsg := { rq 2 with rid := 7, rlen := 32, addr := mkBit 63 true ||| dpAddr 2 0x100 }
def freely : State := portUp (bound 2 1 5 (tenants [(1, { t5 with rate := 0xFFFFF })] live))
theorem meets_PortRequests : PortOpen port2 2 ∧ wr.kind = 1 ∧ rd.kind = 2 ∧ oget port2.port.rids (2 * 256 + wr.rid.toNat) = none ∧
    oget { port2 with port := { port2.port with rids := [(519, some (0, false))] } }.port.rids (2 * 256 + wr.rid.toNat) ≠ none ∧ afterS4 port2 = true ∧
    afterS4 { port2 with bup := { reported := 4 } } = false ∧ rqFormOk wr = true ∧ rqFormOk { wr with resv := true } = false ∧ boundTag port2 2 ≠ none ∧
    boundTag (portUp live) 2 = none ∧ PortOpen (portUp live) 2 ∧ rqLenOk wr = true ∧ rqLenOk { wr with len := 0 } = false ∧ rqFormOk { wr with len := 0, nbytes := 32 } = true ∧
    rqAddrOk port2 2 wr = true ∧ rqAddrOk port2 2 { wr with addr := dpAddr 2 0x100 } = false ∧ rqLenOk rd = true ∧ rqLenOk { rd with rlen := 4097 } = false ∧
    rqLenOk { rd with rlen := 4096 } = true ∧ rqAddrOk port2 2 rd = true ∧ rqFormOk rd = true := by decide +kernel
theorem meets_PortInjects : PortOpen freely 2 ∧ boundEntry freely 2 = some 1 ∧ tenantAt freely 1 = some { t5 with rate := 0xFFFFF } ∧ bitAt t5.police 63 = false ∧
    portHeld freely 2 = false ∧ cget 0 freely.port.buf 2 + rqReserve rd ≤ 65536 ∧ sends freely (.port 2) (rqMsgOf freely 2 wr 0 5) 0 2 0 = true ∧
    sends freely (.port 2) (rqMsgOf freely 2 rd 0 5) 0 2 0 = true ∧ rqAddrOk freely 2 wr = true ∧ boundTag freely 2 = some 5 ∧ afterS4 freely = true := by decide +kernel
theorem test_port_write : (cget [] (after (.corePortWrite 2 wr) freely).port.dl 2).map (fun d => (d.status, d.rid)) = [(.ok, 7)] ∧
    (cget [] (after (.corePortWrite 2 { wr with resv := true }) freely).port.dl 2).map (fun d => (d.status, d.rid)) = [(.badDesc, 7)] ∧
    oget (after (.corePortRead 2 rd) freely).port.rids 519 = some (32, false) ∧ cget 0 (after (.corePortRead 2 rd) freely).port.buf 2 = 32 := by decide +kernel
def dsc : RqMsg := { rq 0 with len := 64, nbytes := 96, data := rawOf opMark 0 9 0 0 0 0 [] }
def allSlots : State := { port2 with port := { port2.port with slots := (List.range 16).map (fun j => (32 + j, some j)) } }
theorem meets_PortDesc : dsc.kind = 0 ∧ rqFormOk dsc = true ∧ (List.range 16).find? (fun j => (oget port2.port.slots (2 * 16 + j)).isNone) = some 0 ∧
    PortOpen allSlots 2 ∧ (∀ j, j < 16 → oget allSlots.port.slots (2 * 16 + j) ≠ none) ∧
    frozenAt port2 2 = false ∧ cget .reset port2.port.xst 2 = .up ∧ cget .reset live.port.xst 2 = .reset ∧ portClosed port2 2 = false ∧ portClosed live 2 = true ∧ rqOf port2 2 = [] ∧ cget [] port2.port.dl 2 = [] := by decide +kernel
def delivered : State := { port2 with port := { port2.port with slots := [(32, some 7)], dl := [(2, [{ kind := 1, status := .ok, rid := 0, data := [], frees := .slots [0] }])] } }
theorem meets_DlTaken : cget [] delivered.port.dl 2 = [{ kind := 1, status := .ok, rid := 0, data := [], frees := .slots [0] }] ∧ portClosed delivered 2 = false ∧ Up delivered := by decide +kernel
def busyPort : State := { port2 with dorm := { phase := .entering }, port := { port2.port with rq := [(2, [rq 0])] } }
theorem meets_WakeAck : Up busyPort ∧ portClosed busyPort 2 = false ∧ rqOf busyPort 2 = [rq 0] ∧ (rq 0).kind ≠ 6 ∧ (rq 0).kind ≠ 7 ∧ workHeld busyPort = true ∧ (rq 0).beats < 16 ∧
    cget .reset ({ delivered with port := { delivered.port with xst := [(2, .down)] } } : State).port.xst 2 = .down ∧
    cget .reset ({ delivered with port := { delivered.port with xst := [(2, .syncing)] } } : State).port.xst 2 = .syncing := by decide +kernel
theorem test_port_desc : queueOf (after (.corePortDesc 2 dsc) port2) (.port 2) = [0] ∧ rqOf (after (.corePortDesc 2 dsc) allSlots) 2 = [dsc] ∧
    oget (after (.dlMessageTaken 2) delivered).port.slots 32 = none ∧
    cget false (after (.wakeAck 2) { port2 with port := { port2.port with wake := [(2, true)] } }).port.wake 2 = false := by decide +kernel

def tqMsg : Msg := msg opWrite (mk 60 4 1 ||| mk 34 6 2 ||| 0x40) bytes32
def tgt (n : Nat) : State := { port2 with port := { port2.port with tgts := (List.range n).map (fun j => (64 + j, some { m := tqMsg, offered := true, since := 5 })) } }
theorem meets_Targets : Arrives port2 2 tqMsg ∧ aSpace tqMsg.dest = 1 ∧ tqMsg.op = opWrite ∧ tqMsg.impl = true ∧ addrFormOk tqMsg.dest = true ∧
    directRangeOk tqMsg.dest (msgBytes tqMsg) = true ∧ portGirdled port2 2 = false ∧ cget false port2.port.lossy 2 = false ∧
    cget .reset port2.port.xst 2 = .up ∧
    (List.range 32).find? (fun i => (oget port2.port.tgts (targetKey 2 i)).isNone) = some 0 ∧
    (List.range 32).find? (fun i => (oget (tgt 31).port.tgts (targetKey 2 i)).isNone) = some 31 ∧
    (List.range 32).find? (fun i => (oget (tgt 32).port.tgts (targetKey 2 i)).isNone) = none ∧ Arrives (tgt 32) 2 tqMsg ∧
    oget (tgt 32).port.tgts (targetKey 2 31) = some { m := tqMsg, offered := true, since := 5 } ∧ (∃ r ∈ allStatus, statusCode r = (0x300 : BitVec 16).toNat) ∧
    (∀ r ∈ allStatus, statusCode r ≠ (0x301 : BitVec 16).toNat) ∧ oget (tgt 31).port.tgts (targetKey 2 31) = none := by decide +kernel
theorem test_target : (after (.targetRequestReceive 2 tqMsg) port2).out = [.tq 2 (tqBytes 0 tqMsg)] ∧ oget (after (.trAnswer 2 31 0 []) (tgt 32)).port.tgts 95 = none ∧
    (after (.trAnswer 2 31 0x301 []) (tgt 32)).flt.inbox.length = 1 := by decide +kernel
theorem meets_Hang : girdled (tgt 1) 2 = false ∧ fenced (tgt 1) 2 = false ∧ regBit (tgt 1) (stdOff 2 0x1D0) 0 = true ∧ HangCond.tq ∉ cget [] (tgt 1).port.hung 2 ∧ hangSince (tgt 1) 2 .tq = some 5 ∧
    hangSince port2 2 .dl = none ∧ regBit port2 (stdOff 2 0x1E0) 63 = false ∧ regBit (regSet (tgt 1) (stdOff 2 0x1D0) 0) (stdOff 2 0x1D0) 0 = false ∧
    girdled { tgt 1 with map := { gstand := 4 } } 2 = true ∧ HangCond.tq ∈ cget [] { tgt 1 with port := { (tgt 1).port with hung := [(2, [.tq])] } }.port.hung 2 := by decide +kernel
def shaped : State := { port2 with port := { port2.port with rq := [(2, [wr])], rqCol := [(2, some (1, 5))] } }
def inReset (x : XState) (b : Bool) : State := { port2 with port := { port2.port with xst := [(2, x)], inRst := if b then [(2, true)] else [] } }
theorem meets_CoreResets : cget false port2.port.inRst 2 = false ∧ fenced port2 2 = false ∧ girdled port2 2 = false ∧ queueOf port2 (.port 2) = [] ∧
    cget none port2.port.rqCol 2 = none ∧ cget none (shaped : State).port.rqCol 2 ≠ none ∧ rqOf shaped 2 = [wr] ∧ queueOf shaped (.port 2) = [] ∧ Arrives (inReset .syncing false) 2 tqMsg ∧
    oget port2.sync.waits 4098 = none ∧ cget false (inReset .reset true).port.inRst 2 = true ∧ 2 ≤ (inReset .reset true).bup.reported ∧
    portGirdled (inReset .reset true) 2 = false ∧ ({ inReset .reset true with bup := { reported := 1 } } : State).bup.reported < 2 ∧
    MgServed port2 (stdOff 2 0x1D0) ∧ bitAt (2 : Word) 1 = true ∧ bitAt (1 : Word) 1 = false ∧ cget .reset (inReset .syncing false).port.xst 2 = .syncing ∧
    rqOf (inReset .syncing false) 2 = [] ∧ cget 0 (inReset .syncing false).port.since (2 * 8 + 7) = 0 ∧ cget .reset port2.port.xst 2 ≠ .syncing := by decide +kernel
theorem test_core_resets : cget .reset (after (.coreResetAssert ⟨2, false⟩) port2).port.xst 2 = .reset ∧ (after (.coreResetRelease 2) (inReset .reset true)).out = [.resync 2] ∧
    (after (.portFabricReset 2 3) (tgt 1)).port.tgts = (tgt 1).port.tgts ∧ cget .reset (after (.resyncAck 2) (inReset .syncing false)).port.xst 2 = .up ∧ rqGone (after (.coreResetAssert ⟨2, false⟩) shaped) 2 = true ∧
    oget (after (.targetRequestReceive 2 tqMsg) (inReset .syncing false)).port.tgts 64 = some { m := tqMsg, offered := false } ∧
    (after (.resyncTimeout 2) (inReset .syncing false)).flt.inbox.length = 1 ∧ (after (.hangDetect 2 .tq) (tgt 1)).time = 1000005 := by decide +kernel

-- bridges

def brgMod (x : ModSt) : State := { live with brg := { mods := [(0, x)] } }
def enabled : State := regSet live 0xB0000 1
theorem meets_Bridges : Up live ∧ MgServed live (0xB0010 + 3 * 8) ∧ bitAt (mkBit 59 true) 59 = true ∧ mayTrain enabled 0 0 = true ∧ (modAt enabled 0 0).state = .down ∧
    mayTrain enabled 0 15 = true ∧ mayTrain enabled 1 12 = false ∧ mayTrain enabled 1 11 = true ∧ (modAt (brgMod { state := .training }) 0 0).retry = false ∧
    (0 : Nat) + 1 < 8 ∧ 8 ≤ (7 : Nat) + 1 ∧ fatalLatched (brgMod { state := .hello }) = false ∧ frozenAt (brgMod { state := .hello }) (edgeStand 0 0) = false := by decide +kernel
def helloOf (e m : Nat) : List Byte := leBytes 1 1 ++ leBytes 1 1 ++ leBytes 3 0 ++ leBytes 1 e ++ leBytes 1 m ++ leBytes 1 0x15 ++ leBytes 1 9 ++ List.replicate 55 0
theorem meets_Hello : byteAt (helloOf 2 0) 0 = 1 ∧ (byteAt (helloOf 2 0) 1 == 1 && leAt (helloOf 2 0) 5 1 % 4 == (0 + 2) % 4 && leAt (helloOf 2 0) 6 1 == 0) = true ∧
    (leAt (helloOf 3 0) 5 1 % 4 == (0 + 2) % 4) = false ∧ byteAt ((helloOf 2 0).set 0 2) 0 ≠ 1 := by decide +kernel
theorem test_bridge : (modAt (after (.modulePhyUp 0 0 true) (brgMod { state := .training })) 0 0).state = .hello ∧
    (modAt (after (.helloReceive 0 0 (helloOf 2 0)) (brgMod { state := .hello })) 0 0).state = .up ∧
    (modAt (after (.helloReceive 0 0 (helloOf 3 0)) (brgMod { state := .hello })) 0 0).state = .failed ∧
    (modAt (after (.helloReceive 0 0 (helloOf 2 0)) (brgMod { state := .up })) 0 0).shape = 5 ∧
    (modAt (after (.moduleTrainFail 0 0) (brgMod { state := .training, trains := 7 })) 0 0).state = .failed ∧
    (after (.moduleTrainRetry 0 0) (brgMod { state := .training, retry := true, since := 3 })).time = 1000003 := by decide +kernel
theorem test_bridge_retrain : (modAt (after (.edgeRetrain 0 (mkBit 59 true)) enabled) 0 15).state = .training ∧ (modAt (after (.moduleRecalStart 0 0) (brgMod { state := .up })) 0 0).state = .retrain ∧
    (modAt (after (.moduleRecalDone 0 0) (brgMod { state := .retrain })) 0 0).state = .up ∧ (after (.moduleRecalTimeout 0 0) (brgMod { state := .retrain })).time = 100000 ∧
    (modAt (after (.modulePhyUp 0 0 false) (brgMod { state := .training })) 0 0).state = .failed ∧ (after (.helloTimeout 0 0) (brgMod { state := .hello })).time = 10000000 ∧ ((after (.helloSend 0 0) (brgMod { state := .hello })).out.length) = 1 := by decide +kernel

def upMod : State := { live with brg := { mods := [(0, { state := .up })] } }
def idleSlot : Slot := ⟨sealTag (6 + 2 ^ 7 + 3 * 2 ^ 9), 0, 0⟩
def dpSlot (stem : BitVec 128) : Slot := ⟨sealTag (0x5121 * 2 ^ 12), dpFrond.payload, stem⟩
theorem meets_BridgeSlots : (modAt upMod 0 0).state = .up ∧ (modAt live 0 0).state ≠ .up ∧ girdled upMod (modStand 0 0).val = false ∧ frozenAt upMod (modStand 0 0).val = false ∧
    sealTag ((⟨1, 0, 0⟩ : Slot).tag.toNat % 2 ^ 28) ≠ (⟨1, 0, 0⟩ : Slot).tag ∧ auditing upMod 0 0 0 = false ∧ auditing upMod 0 1 0 = false ∧
    sealTag (idleSlot.tag.toNat % 2 ^ 28) = idleSlot.tag ∧ idleSlot.tag.toNat % 8 = 6 ∧ idleSlot.tag.toNat.testBit 7 = true ∧ idleSlot.tag.toNat / 2 ^ 8 % 2 = 0 ∧
    sealTag ((dpSlot 1).tag.toNat % 2 ^ 28) = (dpSlot 1).tag ∧ (dpSlot 1).tag.toNat % 8 < 2 ∧ (dpSlot 1).tag.toNat / 8 % 2 = 0 ∧ fld (dpSlot 1).stem 0 8 ≠ crc8 (dpSlot 1).stem ∧
    fld dpFrond.stem 0 8 = crc8 dpFrond.stem ∧ arriveStem upMod 0 dpFrond.stem = dpFrond.stem ∧ BitVec.ofNat 16 ((dpSlot dpFrond.stem).tag.toNat / 2 ^ 12 % 2 ^ 16) = dpFrond.pcheck ∧
    (inVc upMod 0 0 0 (stVc dpFrond.stem)).q.length < 32 ∧ upMod.dorm.phase = .service ∧ reservedStem dpFrond = false ∧ startsMsg dpFrond.stem = true ∧
    (match targetOf upMod 0 (headMsg 0 dpFrond) with | .ok x => x == (9, 0) || x == (2, 0) | .error _ => false) = true := by decide +kernel
def audited : State := setAudit upMod 0 0 0 true
theorem meets_BridgeAudit : byteAt ([2, 0, 0x10, 0, 0, 0] : List Byte) 0 = 2 ∧ leAt ([2, 0, 0x10, 0, 0, 0] : List Byte) 1 1 = 0 ∧ auditing audited 0 0 0 = true ∧
    auditDiff audited 0 0 0 (BitVec.ofNat 32 (leAt ([2, 0, 0x10, 0, 0, 0] : List Byte) 2 4)) = [(1, 1)] ∧
    2 ≤ (auditDiff audited 0 0 0 (BitVec.ofNat 32 (leAt ([2, 0, 0x11, 0, 0, 0] : List Byte) 2 4))).length := by decide +kernel
theorem meets_BridgeAuditAsked : byteAt ([2, 0, 0, 0, 0, 0] : List Byte) 0 = 2 ∧ auditing upMod 0 0 0 = false ∧ fatalLatched upMod = false ∧
    frozenAt upMod (edgeStand 0 (0 / 2)) = false ∧ (after (.bridgeAuditReceive 0 0 ([2] ++ List.replicate 63 0)) upMod).out.length = 1 := by decide +kernel
theorem test_slots : auditing (after (.bridgeSlotReceive 0 0 ⟨1, 0, 0⟩) upMod) 0 1 0 = true ∧ (edgeVc (after (.bridgeSlotReceive 0 0 idleSlot) upMod) 0 0 0 3).credits = 1 ∧
    auditing (after (.bridgeAuditReceive 0 0 ([2, 0, 0x10, 0, 0, 0] ++ List.replicate 58 0)) audited) 0 0 0 = false := by decide +kernel
theorem meets_BridgeRoute : (match targetOf upMod 0 (headMsg 0 dpFrond) with | .ok x => x == (2, 0) | .error _ => false) = true ∧
    (match routeOf upMod 0 0 0 (retarget dpFrond 2 0) with | .goes o => o == 1 | _ => false) = true := by decide +kernel
/-- A SIGNAL of object 2 of this die as its one frond. -/
def sigMsg : Msg := { msg opSignal (mk 60 4 2 ||| mk 4 12 2) [3, 0, 0, 0] with vc := 0 }
def sigFrond : Frond :=
  ⟨stemOf sigMsg, 0x00000000000000000000000000000000000000000000000000000000000000000000000000000000000000000000000000000000000000030000a20040009003, 0x4e24⟩
theorem crc_sig : crc16 (payloadBytes sigFrond) = 0x4e24 :=
  crc_step 16 (d := 35097) (by decide +kernel) (crc_step 16 (d := 30435) (by decide +kernel) (crc_step 16 (d := 10663) (by decide +kernel) (by decide +kernel)))
theorem meets_BridgeSignal : pcheckOk sigFrond = true := by unfold pcheckOk; rw [crc_sig]; decide
theorem meets_BridgeSignalRest : let x : Slot := ⟨sealTag (0x4e24 * 2 ^ 12), sigFrond.payload, sigFrond.stem⟩
    sealTag (x.tag.toNat % 2 ^ 28) = x.tag ∧ x.tag.toNat % 8 < 2 ∧ x.tag.toNat / 8 % 2 = 0 ∧ fld x.stem 0 8 = crc8 x.stem ∧ arriveStem upMod 0 x.stem = x.stem ∧
    BitVec.ofNat 16 (x.tag.toNat / 2 ^ 12 % 2 ^ 16) = sigFrond.pcheck ∧ (inVc upMod 0 0 0 (stVc x.stem)).q.length < 32 ∧ reservedStem sigFrond = false ∧
    startsMsg sigFrond.stem = true ∧ (match targetOf upMod 0 (headMsg 0 sigFrond) with | .ok x => x == (2, 0) | .error _ => false) = true ∧
    (headMsg 0 sigFrond).op = opSignal ∧ namesThisDie upMod (headMsg 0 sigFrond).dest = true ∧ girdled upMod 2 = false ∧ (headMsg 0 dpFrond).op ≠ opSignal := by decide +kernel
theorem meets_BridgePayload : pcheckOk dpFrond = true := by unfold pcheckOk; rw [crc_dp]; decide

-- hall ports

def hp (x : HallPort) : State := { live with hall := { ports := [(0, { x with link := true, up := true })] } }
def peer1 : BitVec 48 := 0x060504030201
def toUs (typ n len seq cum flags : Nat) (rest : List Byte) : Frame :=
  let b := beBytes 6 (ownMac live 0).toNat ++ beBytes 6 peer1.toNat ++ beBytes 2 (hallEtype live) ++ leBytes 1 (1 + typ * 16) ++ leBytes 1 n ++ leBytes 2 len ++
    leBytes 4 seq ++ leBytes 4 cum ++ leBytes 1 flags ++ leBytes 3 0 ++ rest
  { bytes := b, trueLen := b.length + 4, fcsOk := true }
def ctlFrame (typ seq cum flags : Nat) : Frame := toUs typ 0 32 seq cum flags (List.replicate 30 0)
def dataFrame (seq flags : Nat) : Frame := toUs 0 1 96 seq 0 flags (leBytes 16 dpFrond.stem.toNat ++ leBytes 64 dpFrond.payload.toNat)
theorem meets_HallFrames : Up live ∧ MgServed live (hallOff 0) ∧ MgServed live (hallOff 7) ∧ hallLive live 0 = false ∧ hallLive (hp {}) 0 = true ∧
    ({ ctlFrame 2 9 0 0 with trueLen := 63 } : Frame).trueLen ≤ 63 ∧ 9217 ≤ ({ ctlFrame 2 9 0 0 with trueLen := 9217 } : Frame).trueLen ∧
    (ctlFrame 2 9 0 0).trueLen = 64 ∧ (ctlFrame 2 9 0 0).fcsOk = true ∧ frameFormOk (hp {}) 0 (ctlFrame 2 9 0 0).bytes = true ∧
    frameFormOk (hp {}) 0 (ctlFrame 6 9 0 0).bytes = false ∧ frType (ctlFrame 2 9 0 0).bytes = 2 := by decide +kernel
theorem test_hall_link : (hallAt (after (.hallPortEnableWrite 0 (mkBit 63 true)) (after (.hallLinkUp 0) live)) 0).up = true ∧
    (after (.hallLinkDown 0) (hp {})).flt.inbox.length = 1 ∧ regFld (after (.hallOpen 0 { ctlFrame 2 9 0 0 with trueLen := 63 }) (hp {})) (hallOff 0 + 8) 48 16 = 1 ∧
    regFld (after (.hallData 0 { dataFrame 9 0 with trueLen := 9217 }) (hp {})) (hallOff 0 + 8) 32 16 = 1 := by decide +kernel
def sendC (p : SendPhase) (l : List TxFrame) : State := hp { send := [(peer1.toNat, some ⟨p, 9, 10, l, 3⟩)] }
def recvC (e : BitVec 32) (a : Option Nat) : State := hp { recv := [(peer1.toNat, some ⟨e, [], 3, a⟩)] }
def tx (n : BitVec 32) (sends : Nat) (gone : Bool) : TxFrame := ⟨n, 0, if gone then [] else [⟨dpFrond.stem, dpFrond.payload⟩], sends, 5, false, gone⟩
def oneWaits (p : SendPhase) : State :=
  hp { send := [(peer1.toNat, some ⟨p, 9, 10, [], 3⟩)], wait := [⟨peer1, 0, ⟨dpFrond.stem, dpFrond.payload⟩⟩] }
theorem meets_HallOpens : Up (hp {}) ∧ fatalLatched (hp {}) = false ∧ frSrc (ctlFrame 2 9 0 0).bytes = peer1 ∧ ((hallAt (hp {}) 0).recv.filter (fun p => p.2.isSome)).length < 512 ∧
    sendCtx (sendC .opening []) 0 peer1 = some ⟨.opening, 9, 10, [], 3⟩ ∧ frSeq (ctlFrame 3 9 0 0).bytes = 9 ∧ frType (ctlFrame 3 9 0 0).bytes = 3 ∧
    hallWaits (sendC .opening []) 0 peer1 = false ∧ replayBytes (hallAt (oneWaits .opening) 0) + 96 ≤ 2 ^ 20 ∧ hallWaits (oneWaits .opening) 0 peer1 = true ∧
    endsMsg dpFrond.stem = true ∧ (hallAt (oneWaits .opening) 0).wait.length = 1 ∧
    frameFormOk (hp {}) 0 (ctlFrame 3 9 0 0).bytes = true ∧ hallLive (sendC .opening []) 0 = true := by decide +kernel
theorem meets_HallData : frType (dataFrame 9 1).bytes = 0 ∧ (dataFrame 9 1).trueLen = 114 ∧ frameFormOk (hp {}) 0 (dataFrame 9 1).bytes = true ∧ (frFlags (dataFrame 9 1).bytes).testBit 0 = true ∧
    (frFlags (dataFrame 9 1).bytes).testBit 1 = false ∧ recvCtx (hp {}) 0 peer1 = none ∧ recvCtx (recvC 9 none) 0 peer1 = some ⟨9, [], 3, none⟩ ∧ frSeq (dataFrame 9 1).bytes = 9 ∧
    0 < (frSeq (dataFrame 72 1).bytes - 9).toNat ∧ (frSeq (dataFrame 72 1).bytes - 9).toNat < 64 ∧ 64 ≤ (frSeq (dataFrame 73 1).bytes - 9).toNat ∧
    80 * (hallAt (recvC 9 none) 0).later.length + 16 + 80 * (frFronds (dataFrame 9 1).bytes).length ≤ 2 ^ 20 ∧
    reorderBytes (hallAt (recvC 9 none) 0) + 80 * (hallAt (recvC 9 none) 0).later.length + 16 + 80 * (frFronds (dataFrame 72 1).bytes).length ≤ 2 ^ 20 ∧ frSrc (dataFrame 9 1).bytes = peer1 := by decide +kernel
def hallG : Frond := { dpFrond with stem := arriveStem live (standOf (hallTap 0)) (hallStem dpFrond.stem 7 0) }
theorem meets_HallFrond : (frFlags (dataFrame 0 0).bytes).testBit 0 = false ∧ frFronds (dataFrame 0 0).bytes = [⟨dpFrond.stem, dpFrond.payload⟩] ∧
    hallVc (stVc (dpFrond.stem ||| BitVec.ofNat 128 (2 * 2 ^ 122))) = none ∧ hallVc (stVc dpFrond.stem) = some 7 ∧ startsMsg dpFrond.stem = true ∧ (hallAt (hp {}) 0).later = [] ∧
    oget (hallAt (hp {}) 0).owner ((frPlane (dataFrame 0 0).bytes).val * 8 + 7) = none ∧ tenantOf (hp {}) (stTenant dpFrond.stem) = none ∧ bitAt (regGet (hp {}) 0xB8F00) 62 = false ∧
    BitVec.ofNat 2 (stColour dpFrond.stem) ≠ red ∧ reservedStem hallG = false ∧ startsMsg hallG.stem = true ∧ stVc hallG.stem = 7 ∧ (hp {}).dorm.phase = .service ∧
    (match targetOf (hp {}) (standOf (hallTap 0)) (headMsg 0 hallG) with | .ok x => x == (2, 0) | .error _ => false) = true ∧
    (match routeOf (hp {}) (standOf (hallTap 0)) 0 5 (retarget hallG 2 0) with | .goes _ => true | _ => false) = true := by decide +kernel
/-- A contribution to queue 1 of stand 0 as its one frond, from this package's numbers. -/
def redFrond (vc : BitVec 3) : Frond :=
  ⟨stemOf { msg opReduce (mk 60 4 0 ||| mk 31 3 1) [] with vc := vc }, 0x000000000000000000000000000000000000000000000000000000000000000000000000000000000000000000000000000000003f8000000100a20100009003, 0x0f11⟩
def redFrame : Frame := toUs 0 1 96 0 0 0 (leBytes 16 (redFrond 3).stem.toNat ++ leBytes 64 (redFrond 3).payload.toNat)
theorem meets_HallRoom : (inVc (hp {}) (hallTap 0) 0 5 7).q.length < 8 ∧ isContribution hallG = false ∧ (headMsg 0 hallG).op ≠ opSignal := by decide +kernel
theorem meets_HallContribution : frFronds redFrame.bytes = [⟨(redFrond 3).stem, (redFrond 3).payload⟩] ∧ frType redFrame.bytes = 0 ∧
    (∃ vc ∈ List.range 8, hallVc (stVc (redFrond 3).stem) = some vc ∧ oget (hallAt (hp {}) 0).owner ((frPlane redFrame.bytes).val * 8 + vc) = none ∧
      (let g : Frond := { stem := arriveStem (hp {}) (standOf (hallTap 0)) (hallStem (redFrond 3).stem vc 0), payload := (redFrond 3).payload, pcheck := 0x0f11 }
       reservedStem g = false ∧ startsMsg g.stem = true ∧ stVc g.stem = vc ∧ isContribution g = true ∧ (inVc (hp {}) (hallTap 0) 0 5 vc).opened = none)) ∧
    startsMsg (redFrond 3).stem = true ∧ fld (stSrc (redFrond 3).stem) 6 20 = selfUpper (hp {}) := by decide +kernel
theorem meets_HallAcks : frType (ctlFrame 1 0 10 2).bytes = 1 ∧ (frFlags (ctlFrame 1 0 10 2).bytes).testBit 1 = true ∧ (frFlags (ctlFrame 1 0 10 0).bytes).testBit 1 = false ∧
    frCum (ctlFrame 1 0 10 2).bytes = 10 ∧ (∀ z ∈ [tx 9 1 false], 2 ^ 31 ≤ (z.lseq - frCum (ctlFrame 1 0 10 2).bytes).toNat) ∧
    sendCtx (sendC .isOpen [tx 9 1 false]) 0 peer1 = some ⟨.isOpen, 9, 10, [tx 9 1 false], 3⟩ ∧ hallWaits (sendC .isOpen [tx 9 1 false]) 0 peer1 = false ∧
    frType (ctlFrame 4 0 0 0).bytes = 4 ∧ frType (ctlFrame 5 9 0 0).bytes = 5 ∧ frSeq (ctlFrame 5 9 0 0).bytes = 9 ∧ sendCtx (hp {}) 0 peer1 = none ∧
    (hallAt (oneWaits .opening) 0).send.length < 512 ∧
    hallWaits (hp { wait := (hallAt (oneWaits .opening) 0).wait }) 0 peer1 = true ∧ sendCtx (hp { wait := (hallAt (oneWaits .opening) 0).wait }) 0 peer1 = none := by decide +kernel
theorem meets_HallOwners : ∀ i, oget (hallAt (hp {}) 0).owner i = none := fun _ => rfl
theorem meets_HallTimers : ([tx 9 1 false] : List TxFrame).find? (fun y => y.lseq == 9 && !y.gone && !y.sacked) = some (tx 9 1 false) ∧ (tx 9 1 false).sends ≤ hallRetries live ∧
    hallRetries live < (tx 9 16 false).sends ∧ ([tx 9 1 true] : List TxFrame).filter TxFrame.gone = [tx 9 1 true] ∧ ([tx 9 1 false] : List TxFrame).filter TxFrame.gone = [] ∧
    (recvCtx (recvC 9 (some 4)) 0 peer1).map RecvCtx.ackAt = some (some 4) ∧ (sendCtx (sendC .unseq []) 0 peer1).map SendCtx.phase = some .unseq := by decide +kernel
theorem test_hall_contexts : (recvCtx (after (.hallOpen 0 (ctlFrame 2 9 0 0)) (hp {})) 0 peer1).map RecvCtx.e = some 9 ∧
    (sendCtx (after (.hallOpenAck 0 (ctlFrame 3 9 0 0)) (sendC .opening [])) 0 peer1).map SendCtx.phase = some .isOpen ∧
    (sendCtx (after (.hallOpenAck 0 (ctlFrame 3 8 0 0)) (sendC .opening [])) 0 peer1).map SendCtx.phase = some .opening ∧
    (sendCtx (after (.hallAck 0 (ctlFrame 1 0 10 2)) (sendC .isOpen [tx 9 1 false])) 0 peer1).map (fun c => c.frames) = some [] ∧
    (sendCtx (after (.hallRefuse 0 (ctlFrame 4 0 0 0)) (sendC .opening [])) 0 peer1).map SendCtx.phase = some .unseq ∧
    (recvCtx (after (.hallSkip 0 (ctlFrame 5 9 0 0)) (recvC 9 none)) 0 peer1).map RecvCtx.e = some 10 ∧
    ((recvCtx (after (.hallData 0 (dataFrame 72 1)) (recvC 9 none)) 0 peer1).map (fun c => (c.e, c.held.length))) = some (9, 1) := by decide +kernel
theorem test_hall_timers : (after (.hallAckTimer 0 peer1) (recvC 9 (some 4))).time = 504 ∧
    (sendCtx (after (.hallRetransmitTimeout 0 peer1 9) (sendC .isOpen [tx 9 16 false])) 0 peer1).map (fun c => c.frames.map TxFrame.gone) = some [true] ∧
    (after (.hallSkipResend 0 peer1) (sendC .isOpen [tx 9 1 true])).out.length = 1 ∧ (after (.hallContextIdle 0 peer1) (sendC .isOpen [])).time = 1000003 ∧
    (after (.hallUnseqRetry 0 peer1) (sendC .unseq [])).time = 100003 ∧ (sendCtx (after (.hallOpenTimeout 0 peer1) (sendC .opening [])) 0 peer1).map SendCtx.phase = some .unseq ∧
    (sendCtx (after (.hallContextOpen 0 peer1) (hp { wait := (hallAt (oneWaits .opening) 0).wait })) 0 peer1).map SendCtx.phase = some .opening := by decide +kernel

-- faults and girdles

def ev (f c : Fin 16) (loc : BitVec 7) : Ev := ⟨f, c, loc, 0, 0⟩
def flt (f : FltState) : State := { live with flt := f }
def recd : EvRec := ⟨5, 0, 0, 0, 3, 0, 1, 1, 0, 0, 0⟩
def win (n : Nat) : Window := ⟨0, false, 5, n, 7, 0, 0⟩
theorem meets_Events : Up live ∧ live.flt.inbox = [] ∧ listed (ev 0 0 3) = true ∧ live.dorm.phase = .service ∧ fld (regGet live (classOff 0 0)) 60 2 = 0 ∧
    bitAt (regGet live (classOff 0 0)) 63 = false ∧ (∀ i, i ≤ 5 → 1 ≤ i → regBit live (0x1080 + 0 * 8) i = false) ∧ oget live.flt.windows (srcKey (ev 0 0 3)) = none ∧
    live.flt.windows.length < 256 ∧ live.flt.fifo.length < 960 ∧ 960 ≤ (flt { fifo := List.replicate 960 recd }).flt.fifo.length ∧
    oget (flt { windows := [(srcKey (ev 0 0 3), some (win 0))] }).flt.windows (srcKey (ev 0 0 3)) = some (win 0) ∧ (win 0).cls = 0 ∧
    fld (regGet live (classOff 1 13)) 60 2 = 2 ∧ bitAt (regGet live (classOff 1 13)) 62 = true ∧ live.flt.fatal = none ∧ live.host.descs = [] ∧
    listed (ev 0 5 3) = false ∧ listed (ev 13 0 3) = false := by decide +kernel
def derating : State := regSet (regSet live 0x10D0 32) (classOff 10 0) (mk 60 2 1)
theorem meets_Derate : fld (regGet derating (classOff 10 0)) 60 2 = 1 ∧ bitAt (regGet derating (classOff 10 0)) 63 = false ∧ regBit derating 0x10D0 5 = true ∧
    afterS4 derating = true ∧ fatalLatched derating = false ∧ 160 < paceTarget derating ∧ listed (ev 10 0 3) = true := by decide +kernel
theorem test_events : (after (.faultEvent (some (ev 0 0 3))) live).flt.fifo.length = 1 ∧ (after (.faultEvent (some (ev 0 0 3))) live).flt.nCorr = 1 ∧
    (after (.faultEvent (some (ev 0 0 3))) (flt { fifo := List.replicate 960 recd })).flt.pendDrop = 1 ∧
    (after (.faultEvent (some (ev 1 13 3))) live).flt.fatal = some ⟨1, 13, 3, 0⟩ ∧
    (after (.faultEvent (some (ev 0 0 3))) (flt { windows := [(srcKey (ev 0 0 3), some (win 0))] })).flt.merges = 1 ∧
    ((after (.faultEvent (some (ev 10 0 3))) derating).flt.fifo.map (fun r => r.actions)) = [33] := by decide +kernel
def ringOf (t h : BitVec 32) : State := { regSet live 0x1028 (mk 0 5 4) with flt := { fifo := [recd], ringEn := true, ringTail := t, ringHead := h } }
theorem meets_EventRing : (ringOf 15 0).flt.fifo = [recd] ∧ ((ringOf 15 0).flt.ringTail - (ringOf 15 0).flt.ringHead).toNat < 2 ^ evK (ringOf 15 0) ∧
    2 ^ evK (ringOf 16 0) ≤ ((ringOf 16 0).flt.ringTail - (ringOf 16 0).flt.ringHead).toNat ∧ MgServed live 0x1078 ∧ (flt { fifo := [recd] }).flt.ringEn = false ∧
    MgServed live 0x1030 ∧ evK live < 4 ∧ 4 ≤ evK (ringOf 0 0) ∧ evK (ringOf 0 0) ≤ 16 ∧ 16 < evK (regSet live 0x1028 (mk 0 5 17)) ∧ MgServed live 0x1038 ∧
    (BitVec.ofNat 32 (fld (15 : Word) 0 32) - (ringOf 15 0).flt.ringHead).toNat ≤ ((ringOf 15 0).flt.ringTail - (ringOf 15 0).flt.ringHead).toNat ∧
    ((ringOf 15 0).flt.ringTail - (ringOf 15 0).flt.ringHead).toNat < (BitVec.ofNat 32 (fld (16 : Word) 0 32) - (ringOf 15 0).flt.ringHead).toNat := by decide +kernel
theorem meets_Windows : oget (flt { windows := [(srcKey (ev 0 0 3), some (win 2))] }).flt.windows (srcKey ⟨0, 0, 3, 0, 0⟩) = some (win 2) ∧ (win 2).count ≠ 0 ∧
    oget live.flt.windows (srcKey ⟨0, 0, 3, 0, 0⟩) = none ∧ MgServed live (classOff 0 0) ∧ MgServed live (classOff 12 15) ∧ resetClass 0 5 = none ∧ resetClass 0 0 ≠ none ∧
    bitAt (regGet live (classOff 0 0)) 62 = false := by decide +kernel
theorem test_event_ring : (after .eventRingWrite (ringOf 15 0)).flt.ringTail = 16 ∧ (after .eventRingWrite (ringOf 16 0)).flt.fifo = [recd] ∧
    (after .eventPop (flt { fifo := [recd] })).flt.fifo = [] ∧ (after (.eventRingEnable (mkBit 63 true)) (regSet live 0x1028 (mk 0 5 4))).flt.ringEn = true ∧
    (after (.eventRingEnable (mkBit 63 true)) live).flt.ringEn = false ∧ (after (.eventRingHeadWrite 16) (ringOf 15 0)).flt.ringHead = 0 ∧
    (after (.mergeWindowClose 0 0 3 0) (flt { windows := [(srcKey (ev 0 0 3), some (win 2))] })).time = 100005 ∧
    regFld (after (.faultClassWrite 0 0 (mk 60 2 1 ||| 9)) live) (classOff 0 0) 60 2 = 1 ∧ regFld (after (.faultClassWrite 1 13 0) live) (classOff 1 13) 60 2 = 2 := by decide +kernel

def gLink (n : Nat) : State := { live with map := { glink := setBit 0 n true } }
theorem meets_Girdles : MgServed live (girdleOff 0) ∧ MgServed live (girdleOff 7) ∧ girdleUnits 2 1 = [.link 0] ∧ girdleUnits 7 (mkBit 7 true) = [.link 327] ∧ linkGirdled live 327 = false ∧
    MgServed (gLink 0) (girdleRelOff 2) ∧ linkGirdled (gLink 0) 0 = true ∧ dirTo 0 1 = some 1 ∧ linkEnds (0 / 4) = (0, 1) ∧ girdleUnits 1 4 = [.port 2] ∧ girdleUnits 0 4 = [.stand 2] ∧
    portGirdled { live with map := { gport := 4 } } 2 = true ∧ fenced { live with map := { gport := 4 } } 2 = false ∧ girdled { live with map := { gport := 4 } } 2 = false ∧
    cget false { live with map := { gport := 4 } }.port.inRst 2 = false ∧ girdled { live with map := { gstand := 4 } } 2 = true ∧ unitGirdled live (.link 0) = false ∧
    cget false (gLink 0).map.applied (0 * 424 + (48 + 0)) = false ∧ cget false { live with map := { gstand := 4 } }.map.applied (2 * 424 + 2) = false := by decide +kernel
def retesting : State := { live with map := { gstand := 4 }, bup := { reported := 8, retest := [(2, 6)] } }
theorem meets_Retest : (∀ p ∈ live.bup.retest, p.1 ≠ 2) ∧ ((2 : StandId), 6) ∈ retesting.bup.retest ∧ Up retesting ∧ dirTo 2 3 = some 1 ∧ dirTo 2 4 = none ∧
    neighbour 2 1 = some 3 ∧ neighbour 2 0 = none ∧ oget live.flt.silent (2 * 4 + 1) = none ∧ (∃ p ∈ watchers live 3, p ≠ (2, 1) ∧ oget live.flt.silent (nbrKey p.1 p.2) = none) ∧
    (∀ p ∈ watchers (flt { silent := [(nbrKey 4 3, some 500), (nbrKey 11 0, some 500)] }) 3, p ≠ (2, 1) →
      ∃ t0 ∈ [500], oget (flt { silent := [(nbrKey 4 3, some 500), (nbrKey 11 0, some 500)] }).flt.silent (nbrKey p.1 p.2) = some t0 ∧ 1000 ≤ t0 + 2000) := by decide +kernel
theorem test_girdles : girdled (after (.girdle 0 4) live) 2 = true ∧ linkGirdled (after (.girdleRelease 2 1) (gLink 0)) 0 = false ∧
    (after (.girdleRelease 0 4) { live with map := { gstand := 4 } }).bup.retest = [(2, 0)] ∧ girdled (after (.standRetestComplete 2 none []) retesting) 2 = false ∧
    girdled (after (.standRetestComplete 2 (some (3, 1)) []) retesting) 2 = true ∧ cget false (after (.girdleApply 0 (.link 0)) (gLink 0)).map.applied 48 = true := by decide +kernel
theorem test_silence : (after (.nodeLinkSilence 2 1) live).flt.inbox.length = 1 ∧
    (after (.nodeLinkSilence 2 1) (flt { silent := [(nbrKey 4 3, some 500), (nbrKey 11 0, some 500)] })).flt.inbox.length = 2 ∧
    (after (.livenessSend 2) live).out = [.rhz (.liveness 2)] ∧ cget 0 (after (.livenessMessage 2 3) { live with time := 9 }).flt.heard 9 = 9 := by decide +kernel

def contDie (v : Word) : State := { regSet live 0x1800 v with flt := { cont := [(0, 0x20200), (1, 0x1234)], reroutes := [⟨0, 2⟩] } }
def key0 : Word := mkBit 63 true ||| mk 60 3 0 ||| mk 32 10 1 ||| mk 0 10 2
theorem meets_Reroutes : MgServed live 0x1050 ∧ MgServed live (0x1800 + 63 * 8) ∧ regNext (contDie 0) allBits 0x1800 key0 = key0 ∧ bitAt key0 63 = true ∧ (∀ p ∈ contWrites (contDie 0) 0 (fld key0 32 10), contOffOk p.1 = true) ∧
    regBit (contDie key0) (0x1800 + 0 * 8) 63 = true ∧ regFld (contDie key0) 0x1800 60 3 = fld key0 60 3 ∧ (contDie key0).epoch.phase = .idle ∧
    (contDie key0).flt.reroutes = ⟨0, 2⟩ :: [] ∧ setFor (contDie 0) ⟨0, 2⟩ = none ∧ setFor (contDie key0) ⟨0, 2⟩ = some 0 ∧
    contWrites (contDie key0) 0 (regFld (contDie key0) (0x1800 + 0 * 8) 32 10) = [(0x20200, 0x1234)] ∧ (regInfo 0x20200).isSome = true ∧ contOffOk 0x20200 = true ∧ (standWindow 0x20200).map (fun p => decide (p.2 < 0x800)) = some true ∧
    (∀ p, p < 4 → fld (regWritten ((regInfo 0x20200).getD {}) allBits (bkGet (contDie key0) true 0x20200) 0x1234) (p * 4) 3 ∉ [5, 6]) ∧
    fld (regWritten ((regInfo 0x20200).getD {}) allBits (bkGet (contDie key0) true 0x20200) 0x5000) 12 3 = 5 ∧ live.flt.reroutes = [] := by decide +kernel
def swapping : State := { live with map := { coppice := [(64, twinC)], rehomes := [(64, some ⟨.swap, true, false⟩)] } }
theorem meets_Swap : girdled swapping 3 = false ∧ oget swapping.map.rehomes 64 = some ⟨.swap, true, false⟩ ∧ copTStand (coppice swapping 64) = 3 ∧ swapping.map.waiting = [] := by decide +kernel
theorem meets_SwapAlone : ∀ m, m ≠ 64 → oget swapping.map.rehomes m = none := fun m h => by
  simp only [swapping, oget, tget, if_neg (Ne.symm h)]
theorem test_reroute : bkGet (after .reroute (contDie key0)) true 0x20200 = 0x1234 ∧ (after .reroute (contDie key0)).epoch.phase = .flipping ∧
    (after .reroute (contDie 0)).epoch.phase = .idle ∧ regGet (after (.contingencyKeyWrite 0 (put 0 10 48 key0)) (contDie 0)) 0x1800 = put 0 10 48 key0 ∧
    contHalf (after (.contingencyDataWrite 7) live) 0 = 7 ∧ regFld (after (.contingencyDataWrite 7) live) 0x1048 0 16 = 1 ∧
    copPStand (coppice (after (.twinConfirm 3) swapping) 64) = 3 := by decide +kernel
theorem meets_Cruise : cruiseOn live 327 = true ∧ frozenAt live (linkFrom 0 0) = false ∧ standDormant live (standOf (linkFrom 0 0)) = false ∧ dirTo (linkFrom 0 0) (linkTo 0 0) = some 1 ∧
    dirTo (linkTo 0 0) (linkFrom 0 0) = some 3 ∧ cruiseOn (regSet live 0x1040 0) 0 = false ∧ regBit live 0x1040 62 = true ∧ girdled live 2 = false ∧ (1 : BitVec 128) ≠ 0 ∧
    2 ≤ live.bup.reported ∧ (∀ st : StandId, girdled live st.val = true ∨ alive { live with time := 500 } st.val = true) ∧
    alive { live with time := 1500 } 2 = false ∧ regBit (regSet live 0x1040 0) 0x1040 62 = false := by decide +kernel
theorem meets_CruiseRoom : cruiseRoom live (linkFrom 0 0) 0 1 = true ∧
    cruiseRoom (setOutPort live 0 0 1 { (outPort live 0 0 1) with credits := List.replicate 8 0 }) (linkFrom 0 0) 0 1 = false ∧ linkFrom 0 0 = 0 := by decide +kernel
theorem test_cruise_waits : (after (.cruisePatternSend 0 0) { live with flt := { live.flt with cruiseAt := [(0, some 5)] } }).time = 10005 ∧
    (after (.reducerSelfcheck 2 0) { live with flt := { live.flt with checkAt := [(2, some 5)] } }).time = 100000005 := by decide +kernel
theorem test_heartbeat : (after .heartbeatTick live).flt.hb = true ∧ (after .heartbeatTick live).time = 500 ∧ (after .heartbeatTick { live with time := 1000 }).flt.hb = false ∧
    (after (.reducerSelfcheck 2 1) live).flt.inbox.length = 1 := by decide +kernel

-- pace, supply, the table store and observation

/-- Every stand's canary: pace, rail, the limits of the loop. -/
def paced (p rail : Nat) (s : State) : State :=
  (List.range 48).foldl (fun s st => regSet s (canaryOff st) (mk 56 8 p ||| mk 40 8 rail)) (regSet s 0x2010 (mk 24 8 90 ||| mk 16 8 50 ||| mk 32 8 70))
def pwr (f : PwrState → PwrState) (s : State) : State := { s with pwr := f s.pwr }
def calm : State := paced 250 70 live
def low4 : State := paced 150 60 (pwr (fun p => { p with lag := true, lagAt := [(2, some 0)], belowOn := 1, marginN := [(2, 3)], stepAt := 20000 }) live)
def hotDie (p : PwrState → PwrState) : State := pwr p (regSet live 0x2018 (mk 56 8 90 ||| mk 48 8 105))
theorem meets_Pace : Up calm ∧ dormHeld calm = false ∧
    ¬ (calm.bup.reported < 4 ∨ (stageRequest calm).isSome = true ∨ calm.dorm.phase = .entering ∨ calm.dorm.phase = .dormant ∨ calm.pwr.safe = true ∨ calm.pwr.lag = true) ∧
    loopTarget calm + regFld calm 0x2000 32 8 + 2 < (slowest calm).1 ∧ calm.pwr.droop = false ∧
    (slowest (paced 150 70 live)).1 < loopTarget (paced 150 70 live) ∧ loopTarget (paced 203 70 live) + regFld (paced 203 70 live) 0x2000 32 8 = 205 ∧ (slowest (paced 205 70 live)).1 = 205 ∧
    (pwr (fun p => { p with marginOff := 3, belowOff := 1 }) calm).pwr.marginOff = 3 ∧ girdled low4 2 = false ∧ cget 0 low4.pwr.marginN 2 = 3 ∧
    regFld low4 (canaryOff 2) 56 8 < loopTarget low4 ∧ 4 ≤ low4.bup.reported ∧ (slowest low4).1 < 160 ∧ low4.pwr.belowOn = 1 ∧ low4.pwr.below = false ∧
    regFld low4 (canaryOff 2) 40 8 + 4 < low4.pwr.vfab ∧ oget low4.pwr.lagAt 2 = some 0 ∧ dormHeld (dorm { phase := .entering }) = true ∧
    (pwr (fun p => { p with margin := true, below := true }) calm).pwr.below = true := by decide +kernel
theorem test_pace : (after (.paceStep []) calm).pwr.vfab = 69 ∧ (after (.paceStep []) calm).time = 1000 ∧ (after (.paceStep []) low4).pwr.vfab = 70 ∧
    (after (.paceStep []) low4).pwr.margin = true ∧ (after (.paceStep []) low4).pwr.below = true ∧ (after (.paceStep []) low4).pwr.lag = true ∧
    (after (.paceStep []) low4).flt.inbox.length = 2 ∧
    (after (.paceStep []) (pwr (fun p => { p with lag := true, lagAt := [(2, some 0)] }) calm)).pwr.lag = false ∧
    regFld (after (.paceStep [(2, ⟨140, 71, 72, 60⟩)]) low4) (canaryOff 2) 56 8 = 140 ∧ (after (.paceStep [(2, ⟨140, 71, 72, 60⟩)]) low4).pwr.slowest = 2 := by decide +kernel
def ownBank : State := regSet live (stdOff 2 0x680) (own 1 5 0)
theorem meets_Supply : live.pwr.warnPin = false ∧ live.dorm.phase ≠ .dormant ∧ (dorm { phase := .dormant }).dorm.phase = .dormant ∧
    (pwr (fun p => { p with droop := true }) live).pwr.droop = true ∧ (pwr (fun p => { p with warnPin := true }) live).pwr.warnPin = true ∧
    toSigned 8 (90 : BitVec 8).toNat = 90 ∧ regFld (hotDie id) 0x2018 56 8 = 90 ∧ regFld (hotDie id) 0x2018 48 8 = 105 ∧
    toSigned 8 (85 : BitVec 8).toNat ≤ 90 - 5 ∧ 90 - 5 < toSigned 8 (86 : BitVec 8).toNat ∧ toSigned 8 (0xF0 : BitVec 8).toNat ≤ 85 ∧
    105 ≤ toSigned 8 (105 : BitVec 8).toNat ∧ cget false (hotDie (fun p => { p with hot := [(2, true)] })).pwr.hot 2 = true ∧
    cget false (hotDie (fun p => { p with crit := [(2, true)] })).pwr.crit 2 = true ∧ girdled live 2 = false ∧
    girdled { live with map := { gstand := 4 } } 2 = true ∧ ownReleased (ownReg ownBank 2 0) = true ∧ ownKind (ownReg ownBank 2 0) ≠ 0 := by decide +kernel
theorem test_supply : (after .pwrDroopWarnAssert live).pwr.droop = true ∧ (after .pwrDroopWarnDeassert (after .pwrDroopWarnAssert live)).pwr.droop = true ∧
    (after .droopHandlingEnd (pwr (fun p => { p with droop := true, fellAt := 5 }) live)).time = 10005 ∧
    (after (.thermalThreshold 2 90) (hotDie id)).flt.inbox = [⟨11, 0, 2, 0, 0⟩] ∧
    (after (.thermalThreshold 2 86) (hotDie (fun p => { p with hot := [(2, true)] }))).pwr.hot = [(2, true)] ∧
    cget false (after (.thermalThreshold 2 85) (hotDie (fun p => { p with hot := [(2, true)] }))).pwr.hot 2 = false := by decide +kernel
theorem test_retention : ownRet (ownReg (retSet ownBank 2 0) 2 0) = true ∧ retSet ownBank 2 1 = ownBank := by decide +kernel

/-- With slot B in a state of the record, slot A the running one. -/
def store (a b : Nat) (f : TblState → TblState) : State := { live with tbl := f { rec_ := { stA := a, stB := b }, origin := 1 } }
def facts1 : ImageFacts :=
  ⟨1, true, true, 0, 0, 0, mk 56 8 40 ||| mk 40 8 50 ||| mk 16 8 60 ||| mk 24 8 90 ||| mk 48 8 30, 0x020000, 0x88B5⟩
/-- An image of one page that passes the checks of the store (R457, R458): a PACE section of 256 entries of 200, the others empty. -/
def pace1 : List Byte := (List.replicate 256 [200, 0]).flatten
def head1 (len hcrc : Nat) : List Byte :=
  leBytes 4 0x53545A49 ++ leBytes 2 0x1E2A ++ [0xB1, 1] ++ leBytes 4 9 ++ leBytes 2 3 ++ leBytes 2 7 ++ leBytes 4 len ++ leBytes 4 hcrc ++ List.replicate 40 0 ++
  (List.range 7).flatMap (fun n => leBytes 4 (n + 1) ++
    (if n = 1 then leBytes 4 192 ++ leBytes 4 512 ++ leBytes 4 2778684076 else leBytes 4 704 ++ List.replicate 8 0)) ++ List.replicate 16 0
def image1 : List Byte := head1 4096 2002658430 ++ pace1 ++ List.replicate 3392 0
theorem meets_TableCommands : MgServed live 0xD0000 ∧ (store 5 1 id).tbl.done = true ∧ (store 5 1 (fun t => { t with done := false })).tbl.done = false ∧
    3 ≤ live.bup.reported ∧ MgServed on 0xD0000 ∧ ¬ (3 ≤ on.bup.reported ∨ (on.bup.halted = true ∧ on.bup.hcause = 4)) ∧
    (store 5 1 id).tbl.origin ≠ 4 ∧ (store 5 1 id).tbl.runB = slotB 0 ∧ (store 5 1 id).tbl.runB ≠ slotB 1 ∧ (store 5 1 id).tbl.rec_.active ≠ slotB 1 ∧
    recSt (store 5 1 id).tbl.rec_ (slotB 1) = 1 ∧ recSt (store 5 2 id).tbl.rec_ (slotB 1) = 2 ∧ recSt (store 5 6 id).tbl.rec_ (slotB 1) ∈ [1, 2, 6] ∧
    recSt (store 5 5 id).tbl.rec_ (slotB 1) ∉ [1, 2, 6] ∧ (store 5 4 (fun t => { t with runB := true })).tbl.runB = slotB 1 ∧
    (store 5 4 (fun t => { t with origin := 4 })).tbl.origin ≠ 1 := by decide +kernel
theorem test_table_commands : (after (.tableWrite 1 0) (store 5 1 (fun t => { t with done := false }))).tbl.overrun = true ∧
    (after (.tableWrite 1 0) on).tbl.status = .notReady ∧ (after (.tableErase 0) (store 5 1 id)).tbl.status = .addrRange ∧
    (after (.tableWrite 1 7) (store 5 1 id)).tbl.steps = [.writePage true 7] ∧ (after (.tableRead 1 7) (store 5 1 id)).out.head? = some (.sec 0 [1287]) ∧
    ((after (.tableErase 1) (store 5 1 id)).tbl.steps.length = 3) ∧ (after (.tableVerify 1) (store 5 5 id)).tbl.status = .notReady ∧
    (after (.tableVerify 1) (store 5 6 id)).tbl.steps = [.load true 0] ∧ (after (.tableActivate 1) (store 5 2 id)).tbl.op = 3 ∧
    (after (.tableConfirm 0) (store 5 1 id)).tbl.steps.length = 3 := by decide +kernel
def step1 (l : List SecStep) (op : Nat) (b : Nat) : State := store 5 b (fun t => { t with steps := l, op := op, slot := true, done := false })
theorem meets_SecurityAnswers : live.tbl.steps = [] ∧ (step1 [.writePage true 7, .eraseSlot true 0] 0 1).tbl.steps = .writePage true 7 :: .eraseSlot true 0 :: [] ∧
    (step1 [.readPage true 7] 1 1).tbl.steps = [.readPage true 7] ∧ (step1 [.eraseSlot true 1022] 5 1).tbl.steps = .eraseSlot true 1022 :: [] ∧
    (step1 [.recErase {}, .recWrite {}] 0 1).tbl.steps = .recErase {} :: .recWrite {} :: [] ∧ (step1 [.recWrite {}] 0 1).tbl.status = .ok ∧
    (step1 [.recWrite {}, .svnAdvance 3] 4 3).tbl.steps = [.recWrite {}, .svnAdvance 3] ∧ (step1 [.svnAdvance 3] 4 5).tbl.op = 4 := by decide +kernel
/-- Slot B under check: after a page was asked for, or with its image loaded. -/
def loading (op b p : Nat) (l : List Byte) : State := store 5 b (fun t => { t with steps := [.load true p], op := op, slot := true, done := false, work := l })
def loaded (op b : Nat) : State := store 5 b (fun t => { t with steps := [.verify true], op := op, slot := true, done := false, work := head1 4096 0 })
theorem meets_SecurityChecks : imgPages ([] ++ pageBytes (wordsOf (head1 8192 0) 48)) 2 = 2 ∧ imgPages ([] ++ pageBytes []) 2 = 1 ∧
    contentCheck ([] ++ pageBytes []) facts1 = 1 ∧ (loading 3 2 0 []).tbl.steps = [.load true 0] ∧ (loaded 2 2).tbl.steps = [.verify true] ∧
    ¬ (imgSvn (loaded 2 2).tbl.work < regFld (loaded 2 2) 0xD0030 0 16) ∧ imgSvn (loaded 2 2).tbl.work < regFld (regSet (loaded 2 2) 0xD0030 4) 0xD0030 0 16 ∧
    recSt (loaded 2 1).tbl.rec_ true = 1 ∧ recSt (loaded 2 2).tbl.rec_ true = 2 := by decide +kernel
set_option maxRecDepth 100000 in
theorem meets_SecurityImage : pageBytes (wordsOf image1 1024) = image1 ∧ imgPages ([] ++ image1) 1 = 1 := by decide +kernel
set_option maxRecDepth 100000 in
theorem meets_SecurityImageChecks : (hcrcOk image1 && dirOk image1 && sectOk image1) = true ∧ paceOk image1 = true ∧ defaultsOk facts1 = true ∧
    headCheck image1 1 = 0 := by decide +kernel
theorem meets_SecurityImagePasses : contentCheck ([] ++ pageBytes (wordsOf image1 1024)) facts1 = 0 := by
  obtain ⟨h1, h2, h3, h4⟩ := meets_SecurityImageChecks
  have hp : facts1.pages = 1 ∧ facts1.fixedOk = true ∧ facts1.eqOk = true := ⟨rfl, rfl, rfl⟩
  rw [List.nil_append, meets_SecurityImage.1]
  simp only [contentCheck, hp.1, hp.2.1, hp.2.2, h1, h2, h3, h4]
  decide
theorem test_security_answers : (after (.secAck 2 [] facts1) (step1 [.writePage true 7] 0 1)).tbl.status = .addrRange ∧
    fld (regGet (after (.secAck 0 [5, 6] facts1) (step1 [.readPage true 7] 1 1)) 0xD1000) 32 32 = 6 ∧
    (after (.secAck 0 [] facts1) (step1 [.eraseSlot true 1022] 5 1)).tbl.steps = [.eraseSlot true 1023] ∧
    (after (.secAck 0 [] facts1) (step1 [.recWrite { seq := 9 }] 0 1)).tbl.rec_.seq = 9 ∧ (after (.secAck 0 [] facts1) (step1 [.recWrite {}] 0 1)).tbl.copy = 1 ∧
    regFld (after (.secAck 0 [] facts1) (step1 [.svnAdvance 3] 4 5)) 0xD0030 0 16 = 3 ∧
    (after (.secAck 1 [] facts1) (step1 [.svnAdvance 3] 4 5)).tbl.status = .ok := by decide +kernel
theorem test_security_checks : (after (.secAck 2 [] facts1) (loading 3 2 0 [])).tbl.detail = 8 ∧ (after (.secAck 1 [] facts1) (loaded 3 2)).tbl.detail = 6 ∧
    (after (.secAck 0 [] facts1) (loaded 3 2)).tbl.steps.length = 2 ∧ (after (.secAck 0 [] facts1) (regSet (loaded 3 2) 0xD0030 4)).tbl.detail = 7 ∧
    regGet (after (.secAck 0 [] facts1) (loaded 2 2)) 0xD0028 = mk 32 32 9 ||| mk 16 16 3 ||| 1 := by decide +kernel
theorem test_security_pages : (after (.secAck 0 (wordsOf (head1 8192 0) 48) { facts1 with pages := 2 }) (loading 3 2 0 [])).tbl.steps = [.load true 1] ∧
    (after (.secAck 0 [] facts1) (loading 3 2 0 [])).tbl.detail = 1 := by decide +kernel

def seen (f : ObsState → ObsState) (s : State) : State := { s with obs := f s.obs }
/-- One TRACE bank, named in the list, of stand 2. -/
def traceDie : State := regSet (regSet (regSet (regSet live 0xC0020 (mk 60 4 1)) 0xC0040 (mkBit 63 true ||| mk 8 6 2)) (stdOff 2 0x680) (own 4 0 0)) 0xC0000 (mkBit 63 true)
def rec1 : List Byte := List.replicate 32 7
def staged (n : Nat) : State := seen (fun o => { o with stage := List.replicate n rec1, hold := [(9, [rec1])] }) live
theorem meets_Trace : Up traceDie ∧ MgServed traceDie 0xC0000 ∧ MgServed traceDie 0xC0028 ∧ regBit traceDie 0xC0000 63 = true ∧ regBit live 0xC0000 63 = false ∧
    traceRefused live = true ∧ traceRefused traceDie = false ∧ (0 - (0 : BitVec 32)).toNat ≤ (live.obs.wr - 0).toNat ∧ (live.obs.wr - 0).toNat < (1 - (0 : BitVec 32)).toNat ∧
    cget [] live.obs.hold (9 : BitVec 8).toNat = [] ∧ cget [] (staged 0).obs.hold (9 : BitVec 8).toNat = rec1 :: [] ∧ (staged 0).obs.dump = .idle ∧
    (staged 511).obs.stage.length < 512 ∧ (staged 511).obs.unitDrop.n = 0 ∧ 512 ≤ (staged 512).obs.stage.length ∧
    (seen (fun o => { o with unitDrop := ⟨3, 5⟩ }) (staged 510)).obs.unitDrop.n ≠ 0 ∧ (staged 127).obs.stage ≠ [] ∧ (staged 127).obs.stage.length < 128 ∧ 128 ≤ (staged 128).obs.stage.length ∧
    (staged 1).obs.stage = [rec1] ∧ rec1.length = 32 ∧ trcRoom traceDie = true ∧ traceDie.obs.bufDrop.n = 0 ∧ trcCap traceDie ≠ 0 ∧
    trcCap traceDie ≤ trcFill (seen (fun o => { o with wr := 65536 }) traceDie) ∧ trcFill (seen (fun o => { o with wr := 65535 }) traceDie) < trcCap traceDie := by decide +kernel
theorem test_trace : (after (.tallySnapshot (mkBit 62 true)) { live with time := 77 }).obs.snapTime = 77 ∧ (after (.traceEnable (mkBit 63 true)) live).flt.inbox.length = 1 ∧
    (after (.traceEnable (mkBit 63 true)) (regSet traceDie 0xC0000 0)).out.head? = some (.rhz (.traceOn true)) ∧
    (after (.traceEnable 0) (seen (fun o => { o with hold := [(9, [rec1])] }) traceDie)).obs.hold = [] ∧
    (after (.traceReadPointerWrite 5) (seen (fun o => { o with wr := 5 }) live)).regs ≠ live.regs ∧ (after (.traceReadPointerWrite 6) (seen (fun o => { o with wr := 5 }) live)).regs = live.regs ∧
    (after (.traceRecordReceive 9) (staged 2)).obs.stage.length = 3 ∧ (after (.traceRecordReceive 9) (seen (fun o => { o with unitDrop := ⟨3, 5⟩ }) (staged 2))).obs.stage.length = 4 ∧
    (after (.traceRecordReceive 9) (staged 512)).obs.unitDrop.n = 1 := by decide +kernel
theorem test_loss_joins : (after (.traceRecordReceive 9) (seen (fun o => { o with hold := [(9, [lossRecord 44 9 6 0])] }) (staged 512))).obs.unitDrop = ⟨6, 44⟩ ∧
    leAt (lossRecord 44 9 6 0) 8 1 = 3 ∧ leAt rec1 8 1 ≠ 3 := by decide +kernel
theorem test_flush : memByte (after .traceStagingFlush (seen (fun o => { o with stage := [rec1], wr := 2 }) traceDie)) 2 0 64 = 7 ∧
    (after .traceStagingFlush (seen (fun o => { o with stage := [rec1], wr := 2 }) traceDie)).obs.wr = 3 ∧
    (after .traceStagingFlush (seen (fun o => { o with stage := [rec1], wr := 65536 }) traceDie)).obs.bufDrop.n = 1 ∧
    (after .traceStagingFlush (seen (fun o => { o with stage := [rec1] }) traceDie)).time = 10000 := by decide +kernel
/-- Seven DUMP banks of stand 2. -/
def dumpDie : State := (List.range 7).foldl (fun s i => regSet (regSet s (0xC0840 + i * 8) (mkBit 63 true ||| mk 8 6 2 ||| mk 0 6 i)) (stdOff 2 (0x680 + i * 8)) (own 5 0 0)) live
def dumping (p : DumpPhase) (l : List Nat) : State := seen (fun o => { o with dump := p, areas := l }) dumpDie
def sel (area off : Nat) (s : State) : State := regSet s 0xC0880 (mk 48 6 area ||| mk 3 21 off)
theorem meets_Dump : Up dumpDie ∧ MgServed dumpDie 0xC0800 ∧ MgServed dumpDie 0xC0888 ∧ dumpDie.obs.dump = .idle ∧ bankListBad dumpDie 0xC0840 7 5 = false ∧
    bankListBad live 0xC0840 7 5 = true ∧ (dumping .freezing []).obs.dump = .freezing ∧ (2 : Fin 49).val ∉ (dumping .freezing []).obs.areas ∧
    (2 : Fin 49).val ∈ (dumping .freezing [2]).obs.areas ∧ (dumping .freezing (List.range 48)).obs.areas.length = 48 ∧ (48 : Fin 49).val ∉ (dumping .freezing (List.range 48)).obs.areas ∧
    girdled { dumping .freezing [] with map := { gstand := 4 } } 2 = true ∧ (dumping .capturing []).obs.dump = .capturing ∧
    regFld (sel 48 0x7FFF (dumping .frozen [])) 0xC0880 48 6 ≤ 48 ∧ regFld (sel 48 0x7FFF (dumping .frozen [])) 0xC0880 3 21 * 8 + 8 = 0x40000 ∧
    regFld (sel 49 0 dumpDie) 0xC0880 48 6 = 49 ∧ regFld (sel 62 0 dumpDie) 0xC0880 48 6 = 62 ∧ regFld (sel 63 0 traceDie) 0xC0880 48 6 = 63 ∧
    regBit (sel 63 0 traceDie) 0xC0000 63 = true ∧ regBit (regSet (sel 63 0 traceDie) 0xC0000 0) 0xC0000 63 = false ∧ trcCap (sel 63 0 traceDie) ≠ 0 := by decide +kernel
theorem test_dump : (after (.dumpGo (mkBit 63 true)) dumpDie).obs.dump = .freezing ∧ (after (.dumpGo (mkBit 63 true)) live).obs.refused = true ∧
    (after (.dumpGo 0) dumpDie).obs.dump = .idle ∧ (after .dumpCaptureComplete { dumping .capturing [] with time := 5000 }).obs.durUs = 5 ∧
    (after (.dumpFreeze 2) { dumping .freezing [] with map := { gstand := 4 } }).obs.areas = [2] ∧
    (after (.dumpFreeze 2) (dumping .freezing [2])).obs.areas = [2] ∧
    regFld (after .dumpDataRead (sel 48 0x7FFF (dumping .frozen []))) 0xC0880 3 21 = 0 ∧ regFld (after .dumpDataRead (sel 49 3 (dumping .frozen []))) 0xC0880 3 21 = 3 ∧
    (after .dumpDataRead (sel 2 0 (putBytes (dumping .frozen []) 2 0 0x80000 [1, 2]))).mg.rdata = 0x201 := by decide +kernel
theorem meets_MemoryForm : Memory.wf on.slice.mem = true ∧
    Memory.wf (after .traceStagingFlush (seen (fun o => { o with stage := [rec1] }) traceDie)).slice.mem = true := by decide +kernel
theorem meets_MemoryForm_step : ∃ t, step { live with pending := [.heartbeatTick] } = .next t := ⟨_, rfl⟩
theorem meets_Frames : live.todo = [] ∧ ∃ t, exec .heartbeatTick live = .next t := ⟨rfl, _, rfl⟩

-- clauses of the statements on the management port, epochs, outputs and messages

theorem meets_ResetLow : (after .fabPorstNAssert on).mg.porst = false ∧ movesMg (.girdleApply 0 (.stand 0)) = false ∧ movesPin (.girdleApply 0 (.stand 0)) = false ∧
    movesPin .pwrDroopWarnAssert = true ∧ (s5 { sphase := 2 }).bup.away = [] ∧ ownReleased (ownReg (s5 { sphase := 2 }) 47 15) = false := by decide +kernel
theorem meets_CoppiceWaits : let s : State := { on with map := { rehomes := [(1535, some { kind := .swap, held := true, confirmed := false })] } }
    s.mg.rstN = true ∧ (inS5 s || coppiceBad s 1535 (mk 33 2 1 ||| mk 0 6 47 ||| mk 8 6 33)) = false ∧ (oget s.map.rehomes 1535).isSome = true ∧
    noPath s 47 = false ∧ fld (0x140 : Word) 10 2 = 0 ∧ fld (0x140 : Word) 8 2 = 1 ∧ fld (0x140 : Word) 6 2 = 1 := by decide +kernel
theorem meets_AuditFlush : (∀ vc, auditDiff (setAudit on 9 0 0 true) 9 0 0 0 ≠ [(vc, 1)]) ∧ (∀ vc, auditDiff (setAudit on 9 0 0 true) 9 0 0 2 ≠ [(vc, 1)]) := by
  rw [show auditDiff (setAudit on 9 0 0 true) 9 0 0 0 = [] by decide +kernel, show auditDiff (setAudit on 9 0 0 true) 9 0 0 2 = [(0, 2)] by decide +kernel]
  exact ⟨fun _ h => by simp at h, fun _ h => by simp at h⟩
/-- A frond on VC 0 for the stand east of stand 9. -/
def eastward : State := setInVc on 9 0 0 0 { q := [⟨dpFrond, 1, false⟩] }
theorem meets_OutputsDrr : expressPick eastward 9 0 1 = none ∧ pickInput (skidAccrue eastward 9 0 1) 9 0 1 2 (skidReady (skidAccrue eastward 9 0 1) 9 0 1) = none ∧
    (∃ v ∈ drrRing, vcWaiting eastward 9 0 1 v = true ∧ drrOpen eastward 9 0 1 v = true) ∧ (neighbour 9 1).isSome = true ∧ outwardEdge 9 0 = none ∧
    creditOk (setOutPort eastward 9 0 1 { credits := [8, 8, 0, 8, 8, 8, 8, 8] }) 9 0 1 2 = false := by decide +kernel
theorem test_drr : let t := after (.outputArbitrate 9 0 1) eastward
    (inVc t 9 0 0 0).q = [] ∧ t.out = [.frond 9 0 1 0 dpFrond, .credit 9 0 0 0] ∧ (outPort t 9 0 1).credits.getD 0 0 = 7 := by decide +kernel

/-- The words of memory that a message names, as O16 has them. -/
abbrev WordAt (s : State) (m : Msg) (w : Bool) (bank off n : Nat) : Prop := aSpace m.dest = 0 ∧ memBad m = false ∧ lengthBad m = none ∧ inHold s 2 m = false ∧
  isSend m = false ∧ 1 ≤ n ∧ off % 32 + n ≤ 32 ∧
  ((serveHome 2 w s m.dest = .dp 2 ∧ bank = dpBank ∧ off = aDpByte m.dest ∧ dpRefuse s 2 m.tenant off n = none) ∨
   (bank < 34 ∧ serveHome 2 w s m.dest = .bank 2 bank ∧ settledHome s w m.dest (.bank 2 bank) = .bank 2 bank ∧ off = aByte m.dest ∧
    bankRefuse s 2 bank m.tenant = none ∧ ownRstate (ownReg s 2 bank) = 0 ∧ twinOf s 2 bank = none))
/-- Heard from: the flow of `dpMsg` with `E` one further. -/
def past (f : RecvEntry → RecvEntry) : State := { dpState with trans := { recv := [(2, [f { entry dpMsg 0 with e := 10 }])] } }
/-- The same, `E` eight behind. -/
def gapped (f : RecvEntry → RecvEntry) : State := { dpState with trans := { recv := [(2, [f { entry dpMsg 0 with e := 1 }])] } }
def bankAddr : Word := mk 34 6 2 ||| mk 21 5 3 ||| 0x40
/-- Bank 3 of stand 2 owned, by tenant 5, in a retention state. -/
def ownedDie (tag r : Nat) : State := regSet dpState (stdOff 2 (0x680 + 3 * 8)) (own 1 tag 0 ||| mk 58 2 r)
def bankMsg : Msg := { msg opWrite bankAddr (bytes32.take 8) with w := 0 }
def readDp : Msg := msg opReadReq (dpAddr 2 0x104) (leBytes 2 8)
def setMsg : Msg := msg opWrite (dpAddr 2 0x104 ||| mk 32 2 1) (bytes32.take 4)
def addMsg : Msg := { msg opAtomic (dpAddr 2 0x108) (leBytes 8 5) with w := 0x80 }
theorem meets_MessageAtHub : AtHub dpState 2 dpMsg ∧ FromThisDie dpState dpMsg ∧ dpMsg.colour ≠ red ∧ findEntry dpState 2 (keyOf dpMsg) = none ∧
    ({ dpMsg with openFl := false } : Msg).openFl = false ∧ TakenAs dpState 2 dpMsg { entry dpMsg 0 with oldest := 0 } ∧ TableRoom dpState 2 := by decide +kernel
theorem meets_MessageNoRoom : ¬ TableRoom { dpState with trans := { recv := [(2, List.replicate 4096 (entry { dpMsg with src := 7 } 0))] } } 2 := by
  show ¬ ((List.replicate 4096 (entry { dpMsg with src := 7 } 0)).filter _).length < 4096
  rw [List.filter_replicate, if_pos (by decide +kernel), List.length_replicate]
  decide
theorem meets_MessageBehind : AtHub (past id) 2 dpMsg ∧ findEntry (past id) 2 (keyOf dpMsg) = some { entry dpMsg 0 with e := 10 } ∧
    isBehind 10 dpMsg.seq = true ∧ bitAt (past (fun e => { e with rmask := 1 }) |> fun s => ((findEntry s 2 (keyOf dpMsg)).map RecvEntry.rmask).getD 0) 0 = true ∧
    dpMsg.op = opWrite ∧ aSpace dpMsg.dest ≠ 1 ∧ dpMsg.delivered = false ∧ dpMsg.data.length = dpMsg.len.toNat ∧
    AtHub (past id) 2 { dpMsg with delivered := true } ∧ WordAt (past id) { dpMsg with delivered := true } true dpBank 0x100 32 := by decide +kernel
theorem meets_MessageBehindAtomic : AtHub (past (fun e => { e with atom := some (9, .ok, [7]) })) 2 addMsg ∧ addMsg.op = opAtomic ∧
    (findEntry (past (fun e => { e with atom := some (9, .ok, [7]) })) 2 (keyOf addMsg)).map RecvEntry.atom = some (some (addMsg.seq, .ok, [7])) := by decide +kernel
theorem meets_MessageBehindRead : AtHub (past id) 2 readDp ∧ WordAt (past id) readDp false dpBank 0x104 (msgBytes readDp) ∧
    wordSt (past id) 2 dpBank (0x104 / 32) = .clean ∧ findEntry (past id) 2 (keyOf readDp) = some { entry dpMsg 0 with e := 10 } := by decide +kernel
theorem meets_MessageBehindRefused : AtHub (past id) 2 { bankMsg with delivered := true } ∧ serveHome 2 true (past id) bankMsg.dest = .bank 2 3 ∧
    settledHome (past id) true bankMsg.dest (.bank 2 3) = .bank 2 3 ∧ bankRefuse (past id) 2 3 bankMsg.tenant = some .notReady ∧ memBad bankMsg = false ∧
    isSend bankMsg = false ∧ aByte bankMsg.dest + bankMsg.data.length ≤ 2 ^ 21 ∧ aSpace bankMsg.dest = 0 := by decide +kernel
theorem meets_MessageAhead : let m := { dpMsg with openFl := false }
    AtHub (gapped id) 2 m ∧ findEntry (gapped id) 2 (keyOf m) = some { entry dpMsg 0 with e := 1 } ∧ m.seq ≠ 1 ∧ isBehind 1 m.seq = false ∧
    gapDue (gapped id) { entry dpMsg 0 with e := 1 } m = true ∧
    gapDue (gapped (fun e => { e with gapAt := some 0 })) { entry dpMsg 0 with e := 1, gapAt := some 0 } m = false := by decide +kernel
theorem meets_MessageTakenAhead : TakenAs (gapped id) 2 dpMsg { entry dpMsg 0 with rmask := (0 : BitVec 32) <<< 8 } ∧
    TakenAs (hearing 7) 2 dpMsg (entry dpMsg 7) :=
  ⟨.inr (.inr ⟨{ entry dpMsg 0 with e := 1 }, by decide +kernel⟩), .inr (.inl (by decide +kernel))⟩
theorem meets_MessageTaken : WordAt dpState dpMsg true dpBank 0x100 32 ∧ WordAt dpState setMsg true dpBank 0x104 4 ∧ aAlias setMsg.dest = 1 := by decide +kernel
theorem meets_MessageTakenRead : WordAt dpState readDp false dpBank 0x104 (msgBytes readDp) ∧ wordSt dpState 2 dpBank 8 = .clean ∧
    WordAt dpState addMsg true dpBank 0x108 8 ∧
    wordSt { dpState with slice := { words := [(wordKey 2 dpBank 8, .poison)] } } 2 dpBank 8 = .poison := by decide +kernel
theorem meets_MessageTakenAtHub : AtHub dpState 2 setMsg ∧ AtHub dpState 2 readDp ∧ AtHub dpState 2 addMsg ∧ AtHub (gapped id) 2 dpMsg ∧
    AtHub (hearing 7) 2 dpMsg ∧ FromThisDie dpState readDp := by decide +kernel
theorem meets_MessageBank : AtHub (ownedDie 5 0) 2 bankMsg ∧ WordAt (ownedDie 5 0) bankMsg true 3 0x40 8 ∧ bankRefuse (ownedDie 6 0) 2 3 5 = some .owner ∧
    bankRefuse (ownedDie 5 2) 2 3 5 = none ∧ ownRstate (ownReg (ownedDie 5 2) 2 3) = 2 ∧ ownRstate (ownReg (ownedDie 5 3) 2 3) = 3 ∧
    serveHome 2 true (ownedDie 5 2) bankMsg.dest = .bank 2 3 := by decide +kernel
theorem test_message_bits : memBytes (after (.messageArrival 2 setMsg) (after (.messageArrival 2 { dpMsg with unit := 2 }) dpState)) 2 dpBank 0x104 4 = [5, 6, 7, 12] ∧
    memBytes (after (.messageArrival 2 addMsg) (after (.messageArrival 2 { dpMsg with unit := 2 }) dpState)) 2 dpBank 0x108 2 = [14, 10] := by decide +kernel
theorem test_message_bank : memBytes (after (.messageArrival 2 bankMsg) (ownedDie 5 0)) 2 3 0x40 8 = bytes32.take 8 ∧
    memBytes (after (.messageArrival 2 bankMsg) (ownedDie 6 0)) 2 3 0x40 8 = List.replicate 8 0 := by decide +kernel
theorem meets_Interim : isInterim { sentCopy with m := { dpMsg with op := opCtrl } } { dpMsg with data := List.replicate 34 0 ++ [1] } = true ∧
    isInterim sentCopy dpMsg = false := by decide +kernel

-- clauses of the statements on collectives, slices, waits, sidebands, dormancy and core ports

/-- Stage 1 of share 0 from stand 3, LAST with `n` of its carriers. -/
def lastMsg (n : Nat) : Msg := let l := ((upMsg.data.set 14 (BitVec.ofNat 8 n)).set 12 (BitVec.ofNat 8 (32 - n))).take (24 + 8 * n)
  { upMsg with data := l, len := BitVec.ofNat 13 l.length, shape := shapeOf l.length }
theorem meets_StageLast : (hdrOf (lastMsg 16).data).last = true ∧ (hdrOf (lastMsg 16).data).count = 16 ∧ (hdrOf upMsg.data).count = 32 ∧
    1 ∉ (shAt (segAt mem2 0) 0 1).skip ∧ shareHi record2 opX.raw 0 0 - shareLo record2 opX.raw 0 0 = 32 ∧
    cget 0 (shAt (segAt mem2 0) 0 1).got 1 = 0 ∧ stageJudge (summing opX mem2) 2 (lastMsg 16) = .take ∧
    senderRank (summing opX mem2) 0 (hdrOf (lastMsg 16).data) (lastMsg 16) = some 1 ∧ (groupAt (summing opX mem2) 0).record = record2 := by decide +kernel
theorem meets_StageLastArrives : Arrives (summing opX mem2) 2 (lastMsg 16) ∧ mem2.lost = [] := by decide +kernel
theorem test_stage_last : (memAt (after (.stageMessageReceive 2 (lastMsg 16)) (summing opX mem2)) 2 0).map MemSt.lost = some [⟨0, 0, 1, 1⟩] ∧
    (memAt (after (.stageMessageReceive 2 upMsg) (summing opX mem2)) 2 0).map MemSt.lost = some [] := by decide +kernel
theorem meets_TriggerStands : let s := summing opX { mem2 with started := false }
    (2 : StandId) ∈ groupStands (groupAt s 0) ∧ dormHeld s = false ∧ frozenAt s 2 = false ∧ shareCount (groupAt s 0).record ≠ 0 ∧ opX.fired = true ∧
    groupGirdled s 0 = false := by decide +kernel
/-- Centre tap 19 with its port up. -/
def tapDie : State := regSet { live with port := { xst := [(19, .up)] } } 0x4000 0
theorem meets_NearPortContexts : nearShut tapDie 19 = false ∧ inCtxArea tapDie 19 0 32 = true ∧ inCtxArea tapDie 19 (0x7E0 * 32) 32 = true ∧
    inCtxArea nearDie 2 (0x7E0 * 32) 32 = false ∧ nearRelease (0x7E0 * 32) = true := by decide +kernel
theorem test_near_holds : ((cget [] (after (.nearPortAccess 2 (np false 9) .none) (after (.nearPortAccess 2 (np false 8) .none) nearDie)).port.np 2).map NpRet.busy) =
    [false, false] := by decide +kernel
theorem meets_RawShut : let s : State := { rawDie with bup := { rawDie.bup with retest := [(2, 0)] } }
    inService s 2 = false ∧ rawDone s 2 = true ∧ s.bup.retest.any (fun p => decide (p.1 = 2)) = true ∧
    rawDie.bup.retest.any (fun p => decide (p.1 = 2)) = false := by decide +kernel
theorem meets_TwinNotFrozen : frozenAt filling 2 = false ∧ frozenAt filling 3 = false := by decide +kernel
/-- A watch of port 2 for an earlier WAIT, and the wait it holds now. -/
def releasing : State :=
  { live with sync := { waits := [(4098, some (waitX .watched))], watches := [(2, [{ obj := 2, target := 4, acc := .port 2, desc := 6 }, { obj := 2, target := 4, acc := .port 2, desc := 7 }])] } }
theorem meets_WatchRelease : oget releasing.sync.waits 4098 = some (waitX .watched) ∧ (waitX .watched).mode = .watched ∧ (waitX .watched).desc = 7 ∧
    (waitX .polling).second = false := by decide +kernel
theorem test_watch_release : (cget [] (after (.watchRelease (.port 2)) releasing).sync.watches 2).map Watch.desc = [7] := by decide +kernel
/-- Edge 0 up, barrier 3 not in use here. -/
def relaying (x : Bool × BitVec 4) : State := { edged { pkgBar with en := false } with sync := { bars := [(3, { pkgBar with en := false })], relay := [(3, x)] } }
theorem meets_Relay : (barAt (relaying (false, 2)) 3).en = false ∧ Up (relaying (false, 2)) ∧ cget (false, 0) (relaying (false, 2)).sync.relay 3 = (false, 2) ∧
    fld (update 3 { pkgBar with vec := 5 }).1 0 6 = 3 ∧ bitAt (update 3 { pkgBar with vec := 5 }).1 6 = false ∧ ({ pkgBar with broken := true } : Bar).broken = true := by decide +kernel
theorem test_relay : let u := update 3 { pkgBar with vec := 5 }
    cget (false, 0) (after (.sidebandUpdateReceive 0 (some u.1) u.2) (relaying (false, 2))).sync.relay 3 = (false, 7) ∧
    (after (.sidebandUpdateReceive 0 (some u.1) u.2) (relaying (false, 2))).out.length = 1 ∧
    (after (.sidebandUpdateReceive 0 (some u.1) u.2) (relaying (false, 5))).out = [] ∧
    cget (false, 0) (after (.sidebandUpdateReceive 0 (some u.1) u.2) (relaying (true, 2))).sync.relay 3 = (false, 5) := by decide +kernel
theorem meets_DormancyNo : (dorm { phase := .entering }).dorm.phase = .entering ∧ Voter.stand 2 ∈ voters (dorm { phase := .entering }) ∧
    Voter.stand 2 ∈ voters (dorm { phase := .dormant }) ∧ (dorm { phase := .dormant }).pwr.safe = false ∧
    (pwr (fun p => { p with safe := true }) (dorm { phase := .dormant })).pwr.safe = true ∧ noPath (dorm { phase := .entering }) 2 = false := by decide +kernel
theorem test_dormancy_no : (after (.dormancyVote (.stand 2) 0 false) (dorm { phase := .entering })).dorm.latched = true ∧
    (after (.dormancyVote (.stand 2) 0 false) (dorm { phase := .dormant })).dorm.phase = .exiting := by decide +kernel
theorem meets_PortRest : fatalLatched busyPort = false ∧ portClosed (inReset .reset true) 2 = true ∧ portClosed port2 2 = false ∧
    HangCond.tq ∉ cget [] (tgt 1).port.hung 2 ∧ frozenAt (tgt 1) 2 = false ∧ frozenAt (seen (fun o => { o with dump := .freezing, areas := [2] }) (tgt 1)) 2 = true := by decide +kernel
theorem test_resync_order : (after (.resyncAck 2) { inReset .syncing false with port := { (inReset .syncing false).port with
    tgts := [(65, some { m := tqMsg, offered := false, no := 0 }), (64, some { m := tqMsg, offered := false, no := 1 })] } }).out.map (fun o => match o with
    | .tq _ l => l.take 2 | _ => []) = [(tqBytes 0 tqMsg).take 2, (tqBytes 1 tqMsg).take 2] := by decide +kernel

-- clauses of the statements on bridges, events, girdles, pace, the table store, trace and dumps

/-- A slot of a LINK message with a wrong payload check. -/
def linkBad : Slot := ⟨sealTag (7 + 2 ^ 12), 0, 0⟩
theorem meets_LinkSlot : sealTag (linkBad.tag.toNat % 2 ^ 28) = linkBad.tag ∧ linkBad.tag.toNat % 8 = 7 ∧ linkBad.tag.toNat.testBit 7 = false := by decide +kernel
set_option maxRecDepth 20000 in
theorem meets_LinkSlotCrc : linkBad.tag.toNat / 2 ^ 12 % 2 ^ 16 ≠ crc16 (leBytes 64 linkBad.payload.toNat) := by decide +kernel
def ev1 : Ev := ⟨9, 0, 49, 0, 7⟩
def waits1 (cut : Bool) : State := { live with flt := { inbox := [ev1], sent := [(3, cut)] } }
theorem meets_EventWaits : (waits1 false).flt.inbox = [ev1] ∧ listed ev1 = true ∧ (waits1 false).dorm.phase = .service ∧ (waits1 true).flt.sent = [(3, true)] ∧
    fld (regGet (waits1 false) (classOff 9 0)) 60 2 < 2 ∧ bitAt (regGet (waits1 false) (classOff 9 0)) 63 = false ∧
    (∀ i, i < 6 → 1 ≤ i → regBit (waits1 false) (0x1080 + 9 * 8) i = false) ∧ oget (waits1 false).flt.windows (srcKey ev1) = none := by decide +kernel
theorem test_event_time : (after (.faultEvent none) (waits1 false)).flt.fifo.map EvRec.time = [3] ∧ (after (.faultEvent none) (waits1 true)).flt.fifo = [] := by decide +kernel
/-- Stand 0 alone in service on the west of a wall of girdled stands: no path of the rhizome reaches it. -/
def walled : State := { live with map := { gstand := 0x102 } }
theorem meets_NoPath : noPath walled 0 = true ∧ noPath live 0 = false ∧ girdled walled 0 = false := by decide +kernel
theorem test_no_path : unitGirdled walled (.stand 1) = true ∧ (after (.girdleApply 0 (.stand 1)) walled).map = walled.map ∧
    (raise walled cDieMismatch 0 0 0).flt.sent = [(0, true)] := by decide +kernel
theorem meets_Silence : (∀ p ∈ watchers live 9, p ≠ (8, 1) → oget ({ live with flt := { silent := [(10 * 4 + 3, some 500), (1 * 4 + 2, some 500), (17 * 4 + 0, some 500)] } } : State).flt.silent (nbrKey p.1 p.2) = some 500) ∧
    neighbour 8 1 = some 9 := by decide +kernel
theorem meets_RerouteFatal : fatalLatched { live with flt := { fatal := some ⟨0, 0, 0, 0⟩ } } = true ∧ fatalLatched live = false := by decide +kernel
def stage4State : State := { on with bup := { reported := 4 } }
theorem meets_PaceHeld : (stageRequest stage4State).isSome = true ∧ Up stage4State ∧ ownRstate (ownReg (regSet live (stdOff 2 0x680) (own 1 5 (2 ^ 59))) 2 0) = 2 ∧
    (19 : BitVec 8).toNat < 20 ∧ calm.pwr.lag = false ∧ oget calm.pwr.lagAt 2 = none := by decide +kernel
theorem test_retained_lost : wordSt (retainedLost (regSet live (stdOff 2 0x680) (own 1 5 (2 ^ 59))) 2 ⟨180, 70, 19, 60⟩) 2 0 5 = .lost ∧
    wordSt (retainedLost (regSet live (stdOff 2 0x680) (own 1 5 (2 ^ 59))) 2 ⟨180, 70, 20, 60⟩) 2 0 5 = .clean := by decide +kernel
/-- A MARK of port 2 whose record waits at its source. -/
def markM : DescSt := { markD with phase := .running, todo := 1, start := 9 }
def marking : State := let s := traceOn markM; { s with obs := { s.obs with hold := [(2, [blazeOf markM 9])] } }
theorem meets_MarkWaits : marking.host.descs = [(7, some markM)] ∧ markM.phase = .running ∧ dOp markM.raw = opMark ∧ markM.acc = .port 2 ∧ markM.chain = none ∧
    markM.unack = 0 ∧ markM.items = [] ∧ markM.unknown = false ∧ portLossy marking 2 = false ∧ dTally markM.raw = false ∧ csSv markM.raw = false ∧
    regBit marking 0xC0020 56 = false ∧ cget [] marking.obs.hold 2 = [blazeOf markM markM.start] ∧ marking.obs.dump = .idle ∧ regFld marking 0xC0000 56 2 ≠ 0 ∧
    MgServed marking 0xC0000 ∧ regBit marking 0xC0000 63 = true := by decide +kernel
theorem test_mark_ends : descAt (after (.traceRecordReceive 2) marking) 7 = none ∧ (after (.traceRecordReceive 2) marking).obs.stage.length = 1 ∧
    descAt (after (.traceEnable 0) marking) 7 = none ∧ (after (.traceEnable 0) marking).obs.hold = [] ∧
    after (.traceRecordReceive 2) (regPut marking 0xC0000 56 2 0) = regPut marking 0xC0000 56 2 0 := by decide +kernel
theorem meets_NoMark : ∀ p ∈ traceDie.host.descs, ∀ d, p.2 = some d → dOp d.raw ≠ opMark ∨ d.phase ≠ .running := fun _ h => by cases h

end Sys2Proof.Tests
end

section
/-! The word accesses of the management port: what the port keeps of an access, what a read of a register answers and a write of one
stores, and the two statements of chapter 00 on them. -/

namespace Sys2Proof.Machine

/-! ### The held low word -/

theorem dropLow_of_none {s : State} (h : s.mg.held = none) : dropLow s = s := by
  unfold dropLow; rw [← h]

/-- The low word held for the register itself stays. -/
theorem dropHeld_of_held {s : State} {off : Nat} {lo : BitVec 32} (h : s.mg.held = some (off, lo)) : dropHeld s off = s := by
  simp [dropHeld, h]

/-- With no low word held for the register, none is held any more (R13). -/
theorem dropHeld_of_not_held {s : State} {off : Nat} (h : ∀ lo, s.mg.held ≠ some (off, lo)) : dropHeld s off = dropLow s := by
  cases hh : s.mg.held with
  | none => rw [dropLow_of_none hh]; simp [dropHeld, hh]
  | some x =>
    obtain ⟨o, lo⟩ := x
    have ho : o ≠ off := fun e => h lo (by rw [hh, e])
    simp [dropHeld, hh, ho]

/-- An access changes at most the held word before its effect. -/
theorem dropHeld_form (s : State) (off : Nat) : ∃ x, dropHeld s off = { s with mg := { s.mg with held := x } } := by
  by_cases h : ∃ lo, s.mg.held = some (off, lo)
  · obtain ⟨lo, h⟩ := h
    exact ⟨s.mg.held, dropHeld_of_held h⟩
  · exact ⟨none, dropHeld_of_not_held (not_exists.1 h)⟩

@[simp] theorem dropHeld_snap (s : State) (off : Nat) : (dropHeld s off).mg.snap = s.mg.snap := by
  obtain ⟨x, h⟩ := dropHeld_form s off; rw [h]

@[simp] theorem dropHeld_flt (s : State) (off : Nat) : (dropHeld s off).flt = s.flt := by
  obtain ⟨x, h⟩ := dropHeld_form s off; rw [h]

@[simp] theorem dropHeld_regs (s : State) (off : Nat) : (dropHeld s off).regs = s.regs := by
  obtain ⟨x, h⟩ := dropHeld_form s off; rw [h]

@[simp] theorem regGet_dropHeld (s : State) (off o : Nat) : regGet (dropHeld s off) o = regGet s o := by
  obtain ⟨x, h⟩ := dropHeld_form s off; rw [h]; rfl

@[simp] theorem windowGirdled_dropHeld (s : State) (off o : Nat) : windowGirdled (dropHeld s off) o = windowGirdled s o := by
  obtain ⟨x, h⟩ := dropHeld_form s off; rw [h]; rfl

/-- What a register reads does not depend on the management port's own state. -/
theorem regLive_mg (s : State) (m : MgState) (off : Nat) : regLive { s with mg := m } off = regLive s off := rfl

@[simp] theorem regLive_dropHeld (s : State) (off o : Nat) : regLive (dropHeld s off) o = regLive s o := by
  obtain ⟨x, h⟩ := dropHeld_form s off; rw [h, regLive_mg]

/-! ### The block behind the port -/

@[simp] theorem body_dropHeld (s : State) (off : Nat) : body (dropHeld s off) = body s := by
  obtain ⟨x, h⟩ := dropHeld_form s off; rw [h]; rfl

@[simp] theorem regGet_mgAnswer (s : State) (d : BitVec 32) (e : Bool) (o : Nat) : regGet (mgAnswer s d e) o = regGet s o := rfl

@[simp] theorem regGet_keep (s t : State) (o : Nat) : regGet (keep s t) o = regGet t o := rfl

@[simp] theorem regGet_dropLow (s : State) (o : Nat) : regGet (dropLow s) o = regGet s o := rfl

/-- An access that the port serves is its effect, once a low word held for another register is gone. -/
theorem mgServe_served {s : State} {off : Nat} (h : MgServed s off) (f : State → State) :
    mgServe s off f = .next (f (dropHeld s off)) := by
  obtain ⟨⟨hp, -⟩, hr, hg⟩ := h
  simp [mgServe, hp, hr, hg]

theorem exec_registerWrite {s : State} {a : BitVec 22} (h : MgServed s (wordReg a)) (d : BitVec 32) :
    exec (.registerWrite a d) s = .next (writeWord32 a d (dropHeld s (wordReg a))) := mgServe_served h _

theorem exec_lowWordRead {s : State} {a : BitVec 22} (h : MgServed s (wordReg a)) :
    exec (.lowWordRead a) s = .next (readWord32 a (dropHeld s (wordReg a))) := mgServe_served h _

theorem exec_rcRegisterRead {s : State} {a : BitVec 22} (h : MgServed s (wordReg a)) :
    exec (.rcRegisterRead a) s = .next (readWord32 a (dropHeld s (wordReg a))) := mgServe_served h _

/-! ### Writes of a word -/

theorem writeWord32_low {a : BitVec 22} (h : wordHigh a = false) (d : BitVec 32) (s : State) :
    writeWord32 a d s = mgAnswer { s with mg := { s.mg with held := some (wordReg a, d) } } 0 false := by
  simp [writeWord32, h]

/-- With a low word held, both words are written. -/
theorem writeWord32_high_held {a : BitVec 22} {s : State} {o : Nat} {lo : BitVec 32} (h : wordHigh a = true)
    (hh : s.mg.held = some (o, lo)) (d : BitVec 32) :
    writeWord32 a d s = mgAnswer (keep (dropLow s)
      (regEffect (wordReg a) allBits (mk 32 32 d.toNat ||| mk 0 32 lo.toNat) (dropLow s))) 0 false := by
  simp [writeWord32, h, hh]

/-- With none held, the high word alone is. -/
theorem writeWord32_high_alone {a : BitVec 22} {s : State} (h : wordHigh a = true) (hh : s.mg.held = none) (d : BitVec 32) :
    writeWord32 a d s =
      mgAnswer (keep (dropLow s) (regEffect (wordReg a) highBits (mk 32 32 d.toNat) (dropLow s))) 0 false := by
  have h0 : mk 0 32 0 = 0 := rfl
  simp [writeWord32, h, hh, h0]

theorem regEffect_no_register {off : Nat} (h : regInfo off = none) (wm v : Word) (s : State) : regEffect off wm v s = s := by
  simp [regEffect, h]

/-- The registers, of every region, whose high-word write O7 speaks of: a write only stores (R402, R403, R463, R494, R495). -/
def plainRegs : List Nat :=
  [0x18, 0xA00, 0x1028, 0x1040, 0x1048, 0x2000, 0x4008, 0x4020, 0x4038, 0xB0000, 0xB8000, 0xC0400, 0xC0880, 0xD1000]

theorem regEffect_settle_plain {off : Nat} (h : off ∈ plainRegs) (wm v : Word) (s : State) :
    regEffect off wm v s = settle (regWritePlain wm off v s) := by
  simp only [plainRegs, List.mem_cons, List.not_mem_nil, or_false] at h
  rcases h with rfl | rfl | rfl | rfl | rfl | rfl | rfl | rfl | rfl | rfl | rfl | rfl | rfl | rfl <;> rfl

/-- A write of a plain register stores its value under the access types and gives rise to no report. -/
theorem regEffect_plain {off : Nat} {i : RegInfo} {s : State} (h : off ∈ plainRegs) (hi : regInfo off = some i) (hs : s.todo = [])
    (wm v : Word) : regEffect off wm v s = regSet s off (regWritten i wm (regGet s off) v) := by
  have hw : regWritePlain wm off v s = regSet s off (regWritten i wm (regGet s off) v) := by simp [regWritePlain, hi]
  rw [regEffect_settle_plain h, hw, settle_nil _ (by simpa using hs)]

/-! ### Reads of a word -/

theorem readWord32_no_register {a : BitVec 22} (h : regInfo (wordReg a) = none) (s : State) : readWord32 a s = mgAnswer s 0 false := by
  simp [readWord32, h]

/-- A low-word read captures the register and clears its RC fields (R11, R12). -/
theorem readWord32_low {a : BitVec 22} (h : wordHigh a = false) (hi : (regInfo (wordReg a)).isSome = true) (h1 : wordReg a ≠ 0xC0888)
    (h2 : wordReg a ≠ 0x1078) (s : State) :
    readWord32 a s =
      mgAnswer { keep s (rcClear (wordReg a) s) with mg := { s.mg with snap := some (wordReg a, regLive s (wordReg a)) } }
        (BitVec.ofNat 32 (fld (regLive s (wordReg a)) 0 32)) false := by
  obtain ⟨i, hi⟩ := Option.isSome_iff_exists.1 hi
  simp [readWord32, readReg, h, hi, h1, h2]

theorem readWord32_high_snap {a : BitVec 22} {s : State} {w : Word} (h : wordHigh a = true) (hi : (regInfo (wordReg a)).isSome = true)
    (hs : s.mg.snap = some (wordReg a, w)) : readWord32 a s = mgAnswer s (BitVec.ofNat 32 (fld w 32 32)) false := by
  obtain ⟨i, hi⟩ := Option.isSome_iff_exists.1 hi
  simp [readWord32, h, hi, hs, Option.filter_some]

theorem readWord32_high_live {a : BitVec 22} {s : State} (h : wordHigh a = true) (hi : (regInfo (wordReg a)).isSome = true)
    (h1 : wordReg a ≠ 0xC0888) (h2 : wordReg a ≠ 0x1078) (hs : ∀ w, s.mg.snap ≠ some (wordReg a, w)) :
    readWord32 a s = mgAnswer (keep s s) (BitVec.ofNat 32 (fld (regLive s (wordReg a)) 32 32)) false := by
  obtain ⟨i, hi⟩ := Option.isSome_iff_exists.1 hi
  have hf : s.mg.snap.filter (fun x => x.1 == wordReg a) = none := by
    rw [Option.filter_eq_none_iff]
    rintro ⟨o, w⟩ hx e
    exact hs w (hx.trans (by rw [← beq_iff_eq.1 e]))
  simp [readWord32, readHigh, h, hi, h1, h2, hf]

theorem rcClear_none {off : Nat} {i : RegInfo} (hi : regInfo off = some i) (h : i.rc = 0) (s : State) : rcClear off s = s := by
  simp [rcClear, hi, h]

/-- A register whose RC fields are stored takes their reset value. -/
theorem rcClear_stored {off : Nat} {i : RegInfo} (hi : regInfo off = some i) (h : i.rc ≠ 0) (h1 : off ≠ 0x1000) (h2 : off ≠ 0x1020)
    (s : State) : rcClear off s = regSet s off (merge i.rc (regGet s off) i.reset) := by
  unfold rcClear
  simp only [hi, if_neg h, if_neg h1, if_neg h2]

/-- The counts of `FLT_SUMMARY` clear in the collector (R415). -/
theorem rcClear_summary (s : State) : rcClear 0x1000 s = { s with flt := { s.flt with nFatal := 0, nCont := 0, nCorr := 0 } } := rfl

theorem fltSummary_of_no_counts {s : State} (h1 : s.flt.nFatal = 0) (h2 : s.flt.nCont = 0) (h3 : s.flt.nCorr = 0) :
    fltSummary s = 0 := by
  simp [fltSummary, mk, h1, h2, h3]

/-- The counts of `FLT_EVQ` clear in the collector; its fill level is no RC field (R415). -/
theorem rcClear_evq (s : State) : rcClear 0x1020 s = { s with flt := { s.flt with drops := 0, merges := 0 } } := rfl

/-! ### The statements -/

/-- R13: the first half of a write only waits for the second. -/
theorem registerWrite_low {s : State} {a : BitVec 22} (hm : MgServed s (wordReg a)) (h : wordHigh a = false) (d : BitVec 32) :
    Next (.registerWrite a d) s (fun t => t.mg.held = some (wordReg a, d) ∧ t.mg.err = false ∧ body t = body s) := by
  refine ⟨_, exec_registerWrite hm d, ?_⟩
  rw [writeWord32_low h]
  exact ⟨rfl, rfl, body_dropHeld s _⟩

/-- A high-word write of a plain register with its low word held writes both (R13). -/
theorem registerWrite_high_held {s : State} {a : BitVec 22} {i : RegInfo} {lo : BitVec 32} (hm : MgServed s (wordReg a))
    (h : wordHigh a = true) (hi : regInfo (wordReg a) = some i) (hp : wordReg a ∈ plainRegs)
    (hh : s.mg.held = some (wordReg a, lo)) (d : BitVec 32) :
    Next (.registerWrite a d) s (fun t =>
      regGet t (wordReg a) = regWritten i allBits (regGet s (wordReg a)) (mk 32 32 d.toNat ||| mk 0 32 lo.toNat) ∧
      (∀ off, off ≠ wordReg a → regGet t off = regGet s off) ∧ t.mg.held = none ∧ t.mg.err = false) := by
  refine ⟨_, exec_registerWrite hm d, ?_⟩
  obtain ⟨⟨-, hs⟩, -⟩ := hm
  rw [dropHeld_of_held hh, writeWord32_high_held h hh, regEffect_plain hp hi (s := dropLow s) hs]
  refine ⟨by simp, fun off ho => ?_, rfl, rfl⟩
  simp [regGet_regSet, ho]

/-- A high-word write of a plain register without its low word held writes bits [63:32] (R13). -/
theorem registerWrite_high_alone {s : State} {a : BitVec 22} {i : RegInfo} (hm : MgServed s (wordReg a)) (h : wordHigh a = true)
    (hi : regInfo (wordReg a) = some i) (hp : wordReg a ∈ plainRegs) (hh : ∀ lo, s.mg.held ≠ some (wordReg a, lo)) (d : BitVec 32) :
    Next (.registerWrite a d) s (fun t =>
      regGet t (wordReg a) = regWritten i highBits (regGet s (wordReg a)) (mk 32 32 d.toNat) ∧
      (∀ off, off ≠ wordReg a → regGet t off = regGet s off) ∧ t.mg.err = false) := by
  refine ⟨_, exec_registerWrite hm d, ?_⟩
  obtain ⟨⟨-, hs⟩, -⟩ := hm
  rw [dropHeld_of_not_held hh, writeWord32_high_alone h rfl, regEffect_plain hp hi (s := dropLow (dropLow s)) hs]
  refine ⟨by simp, fun off ho => ?_, rfl⟩
  simp [regGet_regSet, ho]

/-- A low-word read without RC fields changes only the port (R12). -/
theorem lowWordRead_low {s : State} {a : BitVec 22} {i : RegInfo} (hm : MgServed s (wordReg a)) (h : wordHigh a = false)
    (hi : regInfo (wordReg a) = some i) (hrc : i.rc = 0) (h1 : wordReg a ≠ 0xC0888) (h2 : wordReg a ≠ 0x1078) :
    Next (.lowWordRead a) s (fun t => t.mg.rdata = BitVec.ofNat 32 (fld (regLive s (wordReg a)) 0 32) ∧ t.mg.err = false ∧
      t.mg.snap = some (wordReg a, regLive s (wordReg a)) ∧ body t = body s) := by
  refine ⟨_, exec_lowWordRead hm, ?_⟩
  rw [readWord32_low h (by simp [hi]) h1 h2, rcClear_none hi hrc, regLive_dropHeld]
  exact ⟨rfl, rfl, rfl, body_dropHeld s _⟩

/-- A high-word read after the low word's answers from the snapshot (R12). -/
theorem lowWordRead_high_snap {s : State} {a : BitVec 22} {w : Word} (hm : MgServed s (wordReg a)) (h : wordHigh a = true)
    (hi : (regInfo (wordReg a)).isSome = true) (hs : s.mg.snap = some (wordReg a, w)) :
    Next (.lowWordRead a) s (fun t => t.mg.rdata = BitVec.ofNat 32 (fld w 32 32) ∧ t.mg.snap = s.mg.snap ∧ body t = body s) := by
  refine ⟨_, exec_lowWordRead hm, ?_⟩
  rw [readWord32_high_snap h hi ((dropHeld_snap s _).trans hs)]
  exact ⟨rfl, dropHeld_snap s _, body_dropHeld s _⟩

/-- A high-word read without a snapshot of the register is live (R12). -/
theorem lowWordRead_high_live {s : State} {a : BitVec 22} (hm : MgServed s (wordReg a)) (h : wordHigh a = true)
    (hi : (regInfo (wordReg a)).isSome = true) (h1 : wordReg a ≠ 0xC0888) (h2 : wordReg a ≠ 0x1078)
    (hs : ∀ w, s.mg.snap ≠ some (wordReg a, w)) :
    Next (.lowWordRead a) s (fun t => t.mg.rdata = BitVec.ofNat 32 (fld (regLive s (wordReg a)) 32 32) ∧
      t.mg.snap = s.mg.snap ∧ body t = body s) := by
  refine ⟨_, exec_lowWordRead hm, ?_⟩
  rw [readWord32_high_live h hi h1 h2 (by simpa using hs), regLive_dropHeld]
  exact ⟨rfl, dropHeld_snap s _, body_dropHeld s _⟩

/-- No RC field stands in `OBS_DUMP_DATA` or `FLT_EVPOP[3]`, whose low-word reads have effects of their own (R415, R486). -/
theorem rc_ne_own_reads {off : Nat} {i : RegInfo} (hi : regInfo off = some i) (hrc : i.rc ≠ 0) : off ≠ 0xC0888 ∧ off ≠ 0x1078 := by
  constructor <;> rintro rfl <;> cases hi <;> exact hrc rfl

/-- A low-word read of stored RC fields answers the value before and clears them (R11). -/
theorem rcRegisterRead_stored {s : State} {a : BitVec 22} {i : RegInfo} (hm : MgServed s (wordReg a)) (h : wordHigh a = false)
    (hi : regInfo (wordReg a) = some i) (hrc : i.rc ≠ 0) (h1 : wordReg a ≠ 0x1000) (h2 : wordReg a ≠ 0x1020) :
    Next (.rcRegisterRead a) s (fun t => t.mg.rdata = BitVec.ofNat 32 (fld (regLive s (wordReg a)) 0 32) ∧
      t.mg.snap = some (wordReg a, regLive s (wordReg a)) ∧
      regGet t (wordReg a) = merge i.rc (regGet s (wordReg a)) i.reset ∧ (∀ off, off ≠ wordReg a → regGet t off = regGet s off)) := by
  obtain ⟨h3, h4⟩ := rc_ne_own_reads hi hrc
  refine ⟨_, exec_rcRegisterRead hm, ?_⟩
  rw [readWord32_low h (by simp [hi]) h3 h4, rcClear_stored hi hrc h1 h2, regLive_dropHeld]
  refine ⟨rfl, rfl, ?_, fun off ho => ?_⟩
  · exact (regGet_regSet_same _ _ _).trans (by simp)
  · exact (regGet_regSet _ _ _ _).trans (by simp [ho])

/-- A low-word read of `FLT_SUMMARY` clears its counts in the collector (R415). -/
theorem rcRegisterRead_summary {s : State} {a : BitVec 22} (hm : MgServed s (wordReg a)) (h : wordHigh a = false)
    (ha : wordReg a = 0x1000) :
    Next (.rcRegisterRead a) s (fun t => t.mg.snap = some (0x1000, fltSummary s) ∧ t.flt.nFatal = 0 ∧ t.flt.nCont = 0 ∧
      t.flt.nCorr = 0 ∧ fltSummary t = 0 ∧ t.regs = s.regs) := by
  have hl : regLive s 0x1000 = fltSummary s := rfl
  refine ⟨_, exec_rcRegisterRead hm, ?_⟩
  rw [readWord32_low h (by rw [ha]; rfl) (by rw [ha]; decide) (by rw [ha]; decide), ha, rcClear_summary, regLive_dropHeld, hl]
  exact ⟨rfl, rfl, rfl, rfl, fltSummary_of_no_counts rfl rfl rfl, dropHeld_regs s _⟩

/-- A low-word read of `FLT_EVQ` clears its counts in the collector and leaves the FIFO (R415). -/
theorem rcRegisterRead_evq {s : State} {a : BitVec 22} (hm : MgServed s (wordReg a)) (h : wordHigh a = false)
    (ha : wordReg a = 0x1020) :
    Next (.rcRegisterRead a) s (fun t => t.mg.snap = some (0x1020, fltEvq s) ∧ t.flt.drops = 0 ∧ t.flt.merges = 0 ∧
      t.flt.fifo = s.flt.fifo ∧ t.regs = s.regs) := by
  have hl : regLive s 0x1020 = fltEvq s := rfl
  have hf : (dropHeld s 0x1020).flt.fifo = s.flt.fifo := by rw [dropHeld_flt]
  refine ⟨_, exec_rcRegisterRead hm, ?_⟩
  rw [readWord32_low h (by rw [ha]; rfl) (by rw [ha]; decide) (by rw [ha]; decide), ha, rcClear_evq, regLive_dropHeld, hl]
  exact ⟨rfl, rfl, rfl, hf, dropHeld_regs s _⟩

/-- A read where no register stands answers 0 (R9). -/
theorem lowWordRead_no_register {s : State} {a : BitVec 22} (hm : MgServed s (wordReg a)) (hi : regInfo (wordReg a) = none) :
    Next (.lowWordRead a) s (fun t => t.mg.rdata = 0 ∧ t.mg.err = false ∧ body t = body s) := by
  refine ⟨_, exec_lowWordRead hm, ?_⟩
  rw [readWord32_no_register hi]
  exact ⟨rfl, rfl, body_dropHeld s _⟩

/-- A write where no register stands, of either word, reaches nothing behind the port (R9). -/
theorem body_writeWord32_no_register {a : BitVec 22} (hi : regInfo (wordReg a) = none) (d : BitVec 32) (s : State) :
    (writeWord32 a d s).mg.err = false ∧ body (writeWord32 a d s) = body s := by
  cases h : wordHigh a with
  | false => rw [writeWord32_low h]; exact ⟨rfl, rfl⟩
  | true =>
    cases hh : s.mg.held with
    | none => rw [writeWord32_high_alone h hh, regEffect_no_register hi]; exact ⟨rfl, rfl⟩
    | some x => rw [writeWord32_high_held h hh, regEffect_no_register hi]; exact ⟨rfl, rfl⟩

/-- Settles O7: what each kind of word access does, writes first, then reads, then reads that clear. -/
theorem registerWordAccesses : Obligations.RegisterWordAccesses := by
  unfold Obligations.RegisterWordAccesses
  refine ⟨fun s a d hm => ⟨fun h => registerWrite_low hm h d, fun i h hi hp => ⟨fun lo hh => ?_, fun hh => ?_⟩⟩,
    fun s a hm h1 h2 => ⟨fun i h hi hrc => ?_, fun w h hi hs => ?_, fun h hi hs => ?_⟩,
    fun s a hm h => ⟨fun i hi hrc h1 h2 => ?_, fun ha => ?_, fun ha => ?_⟩⟩
  · exact registerWrite_high_held hm h hi hp hh d
  · exact registerWrite_high_alone hm h hi hp hh d
  · exact lowWordRead_low hm h hi hrc h1 h2
  · exact lowWordRead_high_snap hm h hi hs
  · exact lowWordRead_high_live hm h hi h1 h2 hs
  · exact rcRegisterRead_stored hm h hi hrc h1 h2
  · exact rcRegisterRead_summary hm h ha
  · exact rcRegisterRead_evq hm h ha

/-- Settles O8: the map lists no register there, so neither access reaches an effect. -/
theorem noRegisterStandsThere : Obligations.NoRegisterStandsThere := by
  intro s a d hm hi
  obtain ⟨herr, hbody⟩ := body_writeWord32_no_register hi d (dropHeld s (wordReg a))
  exact ⟨lowWordRead_no_register hm hi, _, exec_registerWrite hm d, herr, hbody.trans (body_dropHeld s _)⟩

end Sys2Proof.Machine
end

section
/-! The slots that arrive at a bridge module: what the way of a message depends on, what the operations at a module and at its plane inputs
do, a slot by its kind, a starting frond on its way, and the statement of chapter 12 on them. -/

namespace Sys2Proof.Machine

/-! ### What the way of a message depends on -/

/-- `t` sends every message the way `s` does: they agree on the maps, the girdles, the flows, the modules, the route epoch and
the registers below the tallies and traces (R59, R96 to R98, R103, R106). -/
structure RoutesAlike (s t : State) : Prop where
  regs   : ∀ off, off < 0xC0000 → regGet t off = regGet s off
  banked : t.banked = s.banked
  map    : t.map = s.map
  trans  : t.trans = s.trans
  mods   : t.brg.mods = s.brg.mods
  phase  : t.epoch.phase = s.epoch.phase
  taken  : t.epoch.taken = s.epoch.taken
  epoch  : t.epoch.epoch = s.epoch.epoch

theorem RoutesAlike.comp {s t u : State} (h : RoutesAlike s t) (k : RoutesAlike t u) : RoutesAlike s u where
  regs off ho := (k.regs off ho).trans (h.regs off ho)
  banked := k.banked.trans h.banked
  map := k.map.trans h.map
  trans := k.trans.trans h.trans
  mods := k.mods.trans h.mods
  phase := k.phase.trans h.phase
  taken := k.taken.trans h.taken
  epoch := k.epoch.trans h.epoch

section
variable {s t : State} (h : RoutesAlike s t)
include h

theorem regFld_alike {off : Nat} (ho : off < 0xC0000) (lo len : Nat) : regFld t off lo len = regFld s off lo len := by
  simp only [regFld, h.regs off ho]

theorem regBit_alike {off : Nat} (ho : off < 0xC0000) (i : Nat) : regBit t off i = regBit s off i := by
  simp only [regBit, h.regs off ho]

theorem bkGet_alike (p : Bool) (off : Nat) : bkGet t p off = bkGet s p off := by simp only [bkGet, h.banked]

theorem girdled_alike (k : Nat) : girdled t k = girdled s k := by simp only [girdled, h.map]

theorem portGirdled_alike (k : Nat) : portGirdled t k = portGirdled s k := by simp only [portGirdled, h.map]

theorem linkGirdled_alike (k : Nat) : linkGirdled t k = linkGirdled s k := by simp only [linkGirdled, h.map]

theorem fenced_alike (k : Nat) : fenced t k = fenced s k := regBit_alike h (by decide) k

theorem selfUpper_alike : selfUpper t = selfUpper s := regFld_alike h (by decide) 0 20

theorem namesThisDie_alike (a : Word) : namesThisDie t a = namesThisDie s a := by simp only [namesThisDie, selfUpper_alike h]

theorem modAt_alike (e m : Nat) : modAt t e m = modAt s e m := by simp only [modAt, h.mods]

theorem standParity_alike (st : StandId) : standParity t st = standParity s st := by
  simp only [standParity, parity, h.phase, h.taken, h.epoch]

theorem tierEntry_alike (p : Bool) (tier n : Nat) : tierEntry t p tier n = tierEntry s p tier n := bkGet_alike h p _

theorem tierValid_alike (p : Bool) (a : Word) : tierValid t p a = tierValid s p a := by simp only [tierValid, tierEntry_alike h]

theorem tierPhys_alike (p : Bool) (a : Word) (tier : Nat) : tierPhys t p a tier = tierPhys s p a tier := by
  simp only [tierPhys, tierEntry_alike h]

theorem exitIndex_alike (p : Bool) (a : Word) : exitIndex t p a = exitIndex s p a := by
  simp only [exitIndex, tierPhys_alike h, regFld_alike h (show 0x18 < 0xC0000 by decide)]

theorem exitTarget_alike (p : Bool) (a : Word) (src chan : Nat) : exitTarget t p a src chan = exitTarget s p a src chan := by
  simp only [exitTarget, exitIndex_alike h, bkGet_alike h, regBit_alike h (show 0x10 < 0xC0000 by decide)]

theorem hubCoppice_alike (st : Nat) : hubCoppice t st = hubCoppice s st := by
  funext n
  simp only [hubCoppice, h.map]

theorem ownReg_alike {st bank : Nat} (hb : bank < 64) : ownReg t st bank = ownReg s st bank := by
  have hs : (standOf st).val < 48 := (standOf st).isLt
  exact h.regs _ (by simp only [ownOff, stdOff, stdBase]; omega)

theorem twinClean_alike (c : Word) : twinClean t c = twinClean s c := by
  have hb : copTBank c < 64 := Nat.mod_lt _ (by decide)
  simp only [twinClean, ownReg_alike h hb, girdled_alike h]

theorem nearer_alike (st : Nat) (c : Word) : nearer t st c = nearer s st c := by
  simp only [nearer, twinClean_alike h, girdled_alike h]

theorem heldEntry_alike (n : Nat) : heldEntry t n = heldEntry s n := by simp only [heldEntry, h.map]

theorem siteServing_alike (k : Nat) : siteServing t k = siteServing s k := by
  simp only [siteServing, girdled_alike h, portGirdled_alike h]

theorem centreTap_alike : centreTap t = centreTap s := by simp only [centreTap, girdled_alike h]

theorem homeStand_alike (x : Home) : homeStand t x = homeStand s x := by simp only [homeStand, centreTap_alike h]

theorem resolveBy_alike (hit : Nat → Bool) (p : Bool) (cop : Nat → Word) (st : Nat) (a : Word) (w : Bool) :
    resolveBy hit t p cop st a w = resolveBy hit s p cop st a w := by
  simp only [resolveBy, tierValid_alike h, namesThisDie_alike h, heldEntry_alike h, nearer_alike h, fenced_alike h, girdled_alike h,
    portGirdled_alike h, siteServing_alike h]

theorem resolveWith_alike (p : Bool) (cop : Nat → Word) (st : Nat) (a : Word) (w : Bool) :
    resolveWith t p cop st a w = resolveWith s p cop st a w := by
  have hg : girdled t = girdled s := funext (girdled_alike h)
  simp only [resolveWith, hg, resolveBy_alike h]

theorem targetOf_alike (st : StandId) (m : Msg) : targetOf t st m = targetOf s st m := by
  simp only [targetOf, standParity_alike h, exitTarget_alike h, tierValid_alike h, namesThisDie_alike h, hubCoppice_alike h,
    resolveBy_alike h, resolveWith_alike h, homeStand_alike h]

theorem unitStand_alike (u : SrcUnit) : unitStand t u = unitStand s u := by simp only [unitStand, centreTap_alike h]

theorem isNotice_alike (m : Msg) : isNotice t m = isNotice s m := by
  simp only [isNotice, namesThisDie_alike h, unitStand_alike h, flowAt, h.trans]

theorem joinsRhizome_alike (m : Msg) : joinsRhizome t m = joinsRhizome s m := by
  simp only [joinsRhizome, namesThisDie_alike h, isNotice_alike h]

theorem routeOut_alike (st pl dir pstand exit : Nat) : routeOut t st pl dir pstand exit = routeOut s st pl dir pstand exit := by
  simp only [routeOut, girdled_alike h, linkGirdled_alike h, modAt_alike h]

theorem routeExit_alike (st pl exit : Nat) : routeExit t st pl exit = routeExit s st pl exit := by
  simp only [routeExit, routeOut_alike h]

theorem routePacket_alike (p : Bool) (st : StandId) (pl pstand exit : Nat) :
    routePacket t p st pl pstand exit = routePacket s p st pl pstand exit := by
  simp only [routePacket, routeExit_alike h, routeOut_alike h, bkGet_alike h]

theorem skidMatch_alike (p : Bool) (st : StandId) (pl inp src pstand exit : Nat) :
    skidMatch t p st pl inp src pstand exit = skidMatch s p st pl inp src pstand exit := by
  simp only [skidMatch, bkGet_alike h]

theorem routeSkid_alike (p : Bool) (st : StandId) (pl inp src pstand exit : Nat) :
    routeSkid t p st pl inp src pstand exit = routeSkid s p st pl inp src pstand exit := by
  simp only [routeSkid, skidMatch_alike h, routeOut_alike h]

theorem routeOf_alike (st : StandId) (pl inp : Nat) (f : Frond) : routeOf t st pl inp f = routeOf s st pl inp f := by
  simp only [routeOf, routeSkid_alike h, routePacket_alike h]

end

/-! ### Fields of stems and registers -/

theorem testBit_fld {n : Nat} (w : BitVec n) (lo len i : Nat) : (fld w lo len).testBit i = (decide (i < len) && w.getLsbD (lo + i)) := by
  simp only [fld, Nat.testBit_mod_two_pow, Nat.testBit_shiftRight, BitVec.testBit_toNat]

theorem getLsbD_mask (lo len i : Nat) : (mask lo len).getLsbD i = (decide (i < 64) && (decide (lo ≤ i) && decide (i - lo < len))) := by
  rw [mask, BitVec.getLsbD_ofNat, Nat.testBit_shiftLeft, Nat.testBit_two_pow_sub_one]

theorem getLsbD_mk {lo len v : Nat} (hv : v < 2 ^ len) (i : Nat) :
    (mk lo len v).getLsbD i = (decide (i < 64) && (decide (lo ≤ i) && v.testBit (i - lo))) := by
  rw [mk, BitVec.getLsbD_ofNat, Nat.testBit_shiftLeft, Nat.mod_eq_of_lt hv]

/-- A field reads as it was put. -/
theorem fld_put_same {lo len v : Nat} (hl : lo + len ≤ 64) (hv : v < 2 ^ len) (w : Word) : fld (put lo len v w) lo len = v := by
  apply Nat.eq_of_testBit_eq
  intro i
  rw [testBit_fld]
  by_cases hi : i < len
  · have h64 : lo + i < 64 := by omega
    simp only [put, merge, BitVec.getLsbD_or, BitVec.getLsbD_and, BitVec.getLsbD_not, getLsbD_mask, getLsbD_mk hv]
    simp [hi, h64]
  · have hvi : v.testBit i = false := Nat.testBit_lt_two_pow (Nat.lt_of_lt_of_le hv (Nat.pow_le_pow_right (by decide) (by omega)))
    simp [hi, hvi]

theorem satAdd_lt (w a b : Nat) : satAdd w a b < 2 ^ w := by
  have : 0 < 2 ^ w := Nat.two_pow_pos w
  simp only [satAdd]
  omega

/-- A saturating count adds to its field. -/
theorem regFld_regCount {lo len : Nat} (hl : lo + len ≤ 64) (s : State) (off n : Nat) :
    regFld (regCount s off lo len n) off lo len = satAdd len (regFld s off lo len) n := by
  have h : regGet (regCount s off lo len n) off = put lo len (satAdd len (regFld s off lo len) n) (regGet s off) :=
    regGet_regSet_same s off _
  simp only [regFld, h, fld_put_same hl (satAdd_lt _ _ _)]

theorem regGet_tally_other {s : State} {off o : Nat} (h : o ≠ off) (n : Nat) : regGet (tally s off n) o = regGet s o := by
  simp only [tally, regGet_regSet, if_neg h]

theorem crcStep_lt {w poly crc : Nat} (hp : poly < 2 ^ w) (b : Bool) : crcStep w poly crc b < 2 ^ w := by
  have hs : (crc <<< 1) % 2 ^ w < 2 ^ w := Nat.mod_lt _ (Nat.two_pow_pos w)
  unfold crcStep
  dsimp only
  split
  · exact Nat.xor_lt_two_pow hs hp
  · exact hs

theorem foldl_crcStep_lt {w poly : Nat} (hp : poly < 2 ^ w) (l : List Bool) : ∀ c, c < 2 ^ w → l.foldl (crcStep w poly) c < 2 ^ w := by
  induction l with
  | nil => exact fun c hc => hc
  | cons b l ih => exact fun c _ => ih _ (crcStep_lt hp b)

theorem crc8_lt (x : BitVec 128) : crc8 x < 256 := foldl_crcStep_lt (w := 8) (by decide) _ _ (by decide)

/-- Sealing a stem writes CHECK alone (R72). -/
theorem fld_sealStem (x : BitVec 128) {lo : Nat} (h : 8 ≤ lo) (len : Nat) : fld (sealStem x) lo len = fld x lo len := by
  have hx : x.toNat < 2 ^ 128 := x.isLt
  have ht : (sealStem x).toNat / 256 = x.toNat / 256 := by
    have hc := crc8_lt (BitVec.ofNat 128 (x.toNat / 256 * 256))
    simp only [sealStem, BitVec.toNat_ofNat]
    omega
  have hd (y : Nat) : y >>> lo = y / 256 / 2 ^ (lo - 8) := by
    rw [Nat.shiftRight_eq_div_pow, Nat.div_div_eq_div_mul, show (256 : Nat) = 2 ^ 8 from rfl, ← Nat.pow_add, Nat.add_sub_cancel' h]
  simp only [fld, hd, ht]

/-- Setting a bit leaves the fields above it. -/
theorem fld_setBit_above {n : Nat} (w : BitVec n) (b : Bool) {i lo : Nat} (h : i < lo) (len : Nat) : fld (setBit w i b) lo len = fld w lo len := by
  have hb (j : Nat) : (BitVec.ofNat n (2 ^ i)).getLsbD (lo + j) = false := by
    rw [BitVec.getLsbD_ofNat, Nat.testBit_two_pow_of_ne (by omega), Bool.and_false]
  apply Nat.eq_of_testBit_eq
  intro j
  rw [testBit_fld, testBit_fld]
  have hw : (setBit w i b).getLsbD (lo + j) = w.getLsbD (lo + j) := by
    cases b with
    | true => rw [setBit, if_pos rfl, BitVec.getLsbD_or, hb, Bool.or_false]
    | false =>
      rw [setBit, if_neg Bool.false_ne_true, BitVec.getLsbD_and, BitVec.getLsbD_not, hb, Bool.not_false, Bool.and_true]
      by_cases hj : lo + j < n
      · simp only [hj, decide_true, Bool.and_true]
      · rw [BitVec.getLsbD_of_ge w _ (Nat.le_of_not_lt hj), Bool.false_and]
  rw [hw]

/-- An arriving stem keeps its VC (R106). -/
@[simp] theorem stVc_arriveStem (s : State) (st : StandId) (x : BitVec 128) : stVc (arriveStem s st x) = stVc x := by
  simp only [stVc, arriveStem, fld_sealStem _ (show 8 ≤ 122 by decide), fld_setBit_above _ _ (show 121 < 122 by decide)]

@[simp] theorem retarget_stem (f : Frond) (p : BitVec 6) (x : BitVec 2) : (retarget f p x).stem = f.stem := by
  simp only [retarget, sealFrond]

/-- A frond that starts a message is no abort tail. -/
theorem isAbort_of_startsMsg {f : Frond} (h : startsMsg f.stem = true) : isAbort f = false := by
  simp only [startsMsg, Bool.or_eq_true, beq_iff_eq] at h
  have hk : stKind f.stem ≠ 3 := by omega
  simp [isAbort, hk]

/-! ### What the operations at a module and its plane inputs do -/

@[simp] theorem portOf_edge (e : Fin 4) : (portOf e.val).val = e.val := Nat.mod_eq_of_lt (by omega)

theorem inVc_setInVc (s : State) (st pl inp vc : Nat) (x : InVc) (vc' : Nat) :
    inVc (setInVc s st pl inp vc x) st pl inp vc' = if vc' = vc then x else inVc s st pl inp vc' := by
  have hk : inKey st pl inp * 8 + vc' = inKey st pl inp * 8 + vc ↔ vc' = vc := by omega
  simp only [inVc, setInVc, cget_cset, hk]

@[simp] theorem inVc_setInVc_same (s : State) (st pl inp vc : Nat) (x : InVc) : inVc (setInVc s st pl inp vc x) st pl inp vc = x := by
  rw [inVc_setInVc, if_pos rfl]

@[simp] theorem inVc_keep (s t : State) (st pl inp vc : Nat) : inVc (keep s t) st pl inp vc = inVc t st pl inp vc := rfl

@[simp] theorem edgeVc_setEdgeVc_same (s : State) (e pos pl vc : Nat) (x : EdgeVc) : edgeVc (setEdgeVc s e pos pl vc x) e pos pl vc = x :=
  cget_cset_same _ _ _ _

@[simp] theorem auditing_setAudit_same (s : State) (st pl inp : Nat) (b : Bool) : auditing (setAudit s st pl inp b) st pl inp = b :=
  cget_cset_same _ _ _ _

/-- An audit of one plane leaves those of the others. -/
theorem auditing_setAudit_plane (s : State) (st inp : Nat) {p q : PlaneId} (h : q ≠ p) (b : Bool) :
    auditing (setAudit s st p.val inp b) st q.val inp = auditing s st q.val inp := by
  have hk : inKey st q.val inp ≠ inKey st p.val inp := by
    have : q.val ≠ p.val := fun e => h (Fin.ext e)
    simp only [inKey]
    omega
  simp only [auditing, setAudit, cget_cset, if_neg hk]

theorem modPlane_ne (m : Nat) : modPlane m 1 ≠ modPlane m 0 := by
  intro h
  have := congrArg Fin.val h
  simp only [modPlane, planeOf] at this
  omega

/-- Outside the fatal safe state and a dump every slot goes (R433, R484). -/
theorem sendAnySlot_open {s : State} {e : Fin 4} {m : Fin 16} (hf : fatalLatched s = false)
    (hz : frozenAt s (edgeStand e.val (m.val / 2)) = false) (x : Slot) : sendAnySlot s e.val m.val x = emit s (.slot e m x) := by
  have he : e.val % 4 = e.val := Nat.mod_eq_of_lt e.isLt
  have hm : m.val % 16 = m.val := Nat.mod_eq_of_lt m.isLt
  simp [sendAnySlot, hf, hz, he, hm]

/-- Sending a slot changes only what has been sent. -/
theorem sendAnySlot_form (s : State) (e m : Nat) (x : Slot) : ∃ o, sendAnySlot s e m x = { s with out := o } := by
  unfold sendAnySlot
  split
  · exact ⟨s.out, rfl⟩
  · exact ⟨_, rfl⟩

theorem giveCredit_form (s : State) (st : StandId) (pl : PlaneId) (inp : Fin 6) (vc : Nat) :
    ∃ o, giveCredit s st pl inp vc = { s with out := o } := by
  unfold giveCredit
  split
  · unfold sendCredit
    split
    · exact sendAnySlot_form _ _ _ _
    · exact ⟨s.out, rfl⟩
  · exact ⟨_, rfl⟩

@[simp] theorem giveCredit_mesh (s : State) (st : StandId) (pl : PlaneId) (inp : Fin 6) (vc : Nat) :
    (giveCredit s st pl inp vc).mesh = s.mesh := by
  obtain ⟨o, ho⟩ := giveCredit_form s st pl inp vc
  rw [ho]

/-- Counting a frond out changes only a drain count (R108). -/
theorem countOut_form (s : State) (st : StandId) (pl : PlaneId) (f : Frond) :
    ∃ j, countOut s st pl f = { s with epoch := { s.epoch with ej := j } } := by
  unfold countOut
  split
  · exact ⟨s.epoch.ej, rfl⟩
  · exact ⟨_, rfl⟩

/-- A returned credit changes only the credits at the edge (R382). -/
theorem slotCredit_form (s : State) (e m tag : Nat) : ∃ v, slotCredit s e m tag = { s with brg := { s.brg with vcs := v } } := by
  unfold slotCredit
  split
  · exact ⟨s.brg.vcs, rfl⟩
  · exact ⟨_, rfl⟩

theorem slotCredit_none {s : State} {tag : Nat} (h : tag.testBit 7 = false) (e m : Nat) : slotCredit s e m tag = s := by
  simp [slotCredit, h]

theorem slotCredit_given {s : State} {tag : Nat} (h : tag.testBit 7 = true) (e m : Nat) :
    slotCredit s e m tag =
      setEdgeVc s e (m / 2) (modPlane m (tag / 2 ^ 8 % 2)).val (tag / 2 ^ 9 % 8)
        { edgeVc s e (m / 2) (modPlane m (tag / 2 ^ 8 % 2)).val (tag / 2 ^ 9 % 8) with
          credits := min 32 ((edgeVc s e (m / 2) (modPlane m (tag / 2 ^ 8 % 2)).val (tag / 2 ^ 9 % 8)).credits + 1) } := by
  simp [slotCredit, h]

/-! ### Audits and flushes -/

theorem auditBytes_brg {s t : State} (h : t.brg = s.brg) (e m : Nat) (pl : PlaneId) : auditBytes t e m pl = auditBytes s e m pl := by
  simp only [auditBytes, edgeVc, h]

/-- Passing the counts of a plane changes only what has been sent, by one slot where slots may go (R383, R385). -/
theorem auditSend_form (s : State) (e : Fin 4) (m : Fin 16) (pl : PlaneId) :
    ∃ o, auditSend s e.val m.val pl = { s with out := o } ∧
      (fatalLatched s = false → frozenAt s (edgeStand e.val (m.val / 2)) = false →
        o = .slot e m (linkSlot (auditBytes s e.val m.val pl)) :: s.out) := by
  obtain ⟨o, ho⟩ := sendAnySlot_form s e.val m.val (linkSlot (auditBytes s e.val m.val pl))
  exact ⟨o, ho, fun hf hz => congrArg State.out (ho.symm.trans (sendAnySlot_open hf hz _))⟩

/-- From `s` to `t` an audit of a module's plane has started: the partner is asked for its counts with this die's own where slots may go, and
audits of other planes, input queues, edge and registers stay (R88, R383; log 94). -/
structure AuditStarted (s t : State) (e : Fin 4) (m : Fin 16) (pl : PlaneId) : Prop where
  runs   : auditing t (modStand e.val m.val).val pl.val e.val = true
  others : ∀ q : PlaneId, q ≠ pl →
    auditing t (modStand e.val m.val).val q.val e.val = auditing s (modStand e.val m.val).val q.val e.val
  inv    : t.mesh.inv = s.mesh.inv
  brg    : t.brg = s.brg
  flt    : t.flt = s.flt
  obs    : t.obs = s.obs
  regs   : t.regs = s.regs
  todo   : t.todo = s.todo
  asks   : fatalLatched s = false → frozenAt s (edgeStand e.val (m.val / 2)) = false →
    t.out = .slot e m (linkSlot (auditBytes s e.val m.val pl)) :: s.out

theorem edgeAudit_starts {s : State} {e : Fin 4} {m : Fin 16} {pl : PlaneId}
    (h : auditing s (modStand e.val m.val).val pl.val e.val = false) : AuditStarted s (edgeAudit s e.val m.val pl) e m pl := by
  obtain ⟨o, ho, hs⟩ := auditSend_form (setAudit s (modStand e.val m.val).val pl.val e.val true) e m pl
  have ht : edgeAudit s e.val m.val pl = { setAudit s (modStand e.val m.val).val pl.val e.val true with out := o } := by
    simpa [edgeAudit, h] using ho
  rw [ht]
  exact
    { runs := auditing_setAudit_same s _ _ _ _
      others := fun q hq => auditing_setAudit_plane s _ _ hq _
      inv := rfl, brg := rfl, flt := rfl, obs := rfl, regs := rfl, todo := rfl
      asks := hs }

/-- A lost frond sets its VC to skip and leaves the count of those received (R89). -/
theorem inVc_vcLoss (s : State) (st pl inp vc : Nat) :
    (inVc (vcLoss s st pl inp vc) st pl inp vc).skip = true ∧
      (inVc (vcLoss s st pl inp vc) st pl inp vc).recv = (inVc s st pl inp vc).recv := by
  simp [vcLoss]

/-- Counts that differ in one VC by one end the audit: that frond counts as received, and its VC skips (R88, R89). -/
theorem auditCounts_one {s : State} {st : StandId} {pl : PlaneId} {inp : Fin 6} {counts : BitVec 32} {vc : Nat}
    (ha : auditing s st.val pl.val inp.val = true) (hz : frozenAt s st.val = false)
    (hd : auditDiff s st.val pl.val inp.val counts = [(vc, 1)]) :
    auditing (auditCounts st pl inp counts s) st.val pl.val inp.val = false ∧
      (inVc (auditCounts st pl inp counts s) st.val pl.val inp.val vc).skip = true ∧
      (inVc (auditCounts st pl inp counts s) st.val pl.val inp.val vc).recv = ((inVc s st.val pl.val inp.val vc).recv + 1) % 16 := by
  let x := inVc s st.val pl.val inp.val vc
  let s1 := setInVc s st.val pl.val inp.val vc { x with recv := (x.recv + 1) % 16 }
  have h : auditCounts st pl inp counts s =
      setAudit (vcLoss (giveCredit s1 st pl inp vc) st.val pl.val inp.val vc) st.val pl.val inp.val false := by
    simp [auditCounts, ha, hz, hd, s1, x]
  have hin : inVc (giveCredit s1 st pl inp vc) st.val pl.val inp.val vc = { x with recv := (x.recv + 1) % 16 } := by
    rw [inVc, giveCredit_mesh, ← inVc]
    exact inVc_setInVc_same s _ _ _ _ _
  obtain ⟨hskip, hrecv⟩ := inVc_vcLoss (giveCredit s1 st pl inp vc) st.val pl.val inp.val vc
  rw [h]
  exact ⟨auditing_setAudit_same _ _ _ _ _, hskip, hrecv.trans (by rw [hin])⟩

/-- Counts that differ otherwise flush the input (R88, R90). -/
theorem auditCounts_flush {s : State} {st : StandId} {pl : PlaneId} {inp : Fin 6} {counts : BitVec 32}
    (ha : auditing s st.val pl.val inp.val = true) (hz : frozenAt s st.val = false)
    (hd : ∀ vc, auditDiff s st.val pl.val inp.val counts ≠ [(vc, 1)]) : auditCounts st pl inp counts s = flushInput s st pl inp := by
  have hn : ¬ ((!auditing s st.val pl.val inp.val || frozenAt s st.val) = true) := by simp [ha, hz]
  unfold auditCounts
  rw [if_neg hn]
  split
  · next vc h => exact absurd h (hd vc)
  · rfl

/-- A flush empties a VC of an input: its fronds count as discarded, an open message is closed (R90). -/
def flushVc (st : StandId) (pl : PlaneId) (inp : Fin 6) (s : State) (vc : Nat) : State :=
  let x := inVc s st.val pl.val inp.val vc
  let s := x.q.foldl (fun s h => countOut s st pl h.f) s
  setInVc s st.val pl.val inp.val vc { q := flushTail x, since := s.time }

theorem foldl_countOut_form (st : StandId) (pl : PlaneId) (l : List QFrond) :
    ∀ s : State, ∃ j, l.foldl (fun s h => countOut s st pl h.f) s = { s with epoch := { s.epoch with ej := j } } := by
  induction l with
  | nil => exact fun s => ⟨s.epoch.ej, rfl⟩
  | cons h l ih =>
    intro s
    obtain ⟨j, hj⟩ := countOut_form s st pl h.f
    obtain ⟨k, hk⟩ := ih (countOut s st pl h.f)
    exact ⟨k, by rw [List.foldl_cons, hk, hj]⟩

/-- Flushing a VC changes the input and a drain count. -/
theorem flushVc_form (st : StandId) (pl : PlaneId) (inp : Fin 6) (s : State) (vc : Nat) :
    ∃ j, flushVc st pl inp s vc =
      setInVc { s with epoch := { s.epoch with ej := j } } st.val pl.val inp.val vc
        { q := flushTail (inVc s st.val pl.val inp.val vc), since := s.time } := by
  obtain ⟨j, hj⟩ := foldl_countOut_form st pl (inVc s st.val pl.val inp.val vc).q s
  exact ⟨j, by rw [flushVc, hj]⟩

/-- A VC after its flush: no message is open, and the count of received fronds starts afresh. -/
abbrev Flushed (s : State) (st pl inp vc : Nat) : Prop := (inVc s st pl inp vc).opened = none ∧ (inVc s st pl inp vc).recv = 0

theorem flushVc_keeps (st : StandId) (pl : PlaneId) (inp : Fin 6) (s : State) {v vc : Nat} (h : vc = v ∨ Flushed s st.val pl.val inp.val vc) :
    Flushed (flushVc st pl inp s v) st.val pl.val inp.val vc := by
  obtain ⟨j, hj⟩ := flushVc_form st pl inp s v
  rw [hj, Flushed, inVc_setInVc]
  by_cases hv : vc = v
  · rw [if_pos hv]
    exact ⟨rfl, rfl⟩
  · rw [if_neg hv]
    exact h.resolve_left hv

theorem foldl_flushVc (st : StandId) (pl : PlaneId) (inp : Fin 6) (l : List Nat) :
    ∀ s : State, (l.foldl (flushVc st pl inp) s).out = s.out ∧
      ∀ vc, vc ∈ l ∨ Flushed s st.val pl.val inp.val vc → Flushed (l.foldl (flushVc st pl inp) s) st.val pl.val inp.val vc := by
  induction l with
  | nil => exact fun s => ⟨rfl, fun vc h => h.resolve_left (List.not_mem_nil)⟩
  | cons v l ih =>
    intro s
    obtain ⟨ho, hv⟩ := ih (flushVc st pl inp s v)
    obtain ⟨j, hj⟩ := flushVc_form st pl inp s v
    refine ⟨ho.trans (by rw [hj]; rfl), fun vc h => hv vc ?_⟩
    rw [List.mem_cons, or_assoc, or_left_comm] at h
    exact h.imp_right (flushVc_keeps st pl inp s)

/-- A flush empties every VC, restores the sender's credits, ends the audit and is reported (R90). -/
theorem flushInput_form (s : State) (st : StandId) (pl : PlaneId) (inp : Fin 6) :
    ∃ o, flushInput s st pl inp = raise (emit (setAudit { (List.range 8).foldl (flushVc st pl inp) s with
      mesh := { ((List.range 8).foldl (flushVc st pl inp) s).mesh with outs := o } } st.val pl.val inp.val false) (.flushed st pl inp))
        cFlush st.val (meshSub pl.val inp.val) 0 := by
  unfold flushInput
  generalize List.range 8 = l
  dsimp only
  split
  · exact ⟨_, rfl⟩
  · exact ⟨(l.foldl (flushVc st pl inp) s).mesh.outs, rfl⟩

theorem flushInput_flushes (s : State) (st : StandId) (pl : PlaneId) (inp : Fin 6) :
    auditing (flushInput s st pl inp) st.val pl.val inp.val = false ∧ (flushInput s st pl inp).out = .flushed st pl inp :: s.out ∧
      ∀ vc, vc < 8 → Flushed (flushInput s st pl inp) st.val pl.val inp.val vc := by
  obtain ⟨o, ho⟩ := flushInput_form s st pl inp
  obtain ⟨hout, hv⟩ := foldl_flushVc st pl inp (List.range 8) s
  rw [ho]
  generalize (List.range 8).foldl (flushVc st pl inp) s = t at hout hv
  exact ⟨auditing_setAudit_same { t with mesh := { t.mesh with outs := o } } _ _ _ _, congrArg _ hout,
    fun vc h => hv vc (.inl (List.mem_range.2 h))⟩

/-! ### A slot by its kind -/

/-- Registers of a module (R402). -/
abbrev modReg (e m : Nat) : Nat := 0xB0100 + e * 0x80 + m * 8

theorem modReg_lt (e : Fin 4) (m : Fin 16) : modReg e.val m.val < 0xC0000 := by
  simp only [modReg]
  omega

/-- A slot of a frond counts in `OBS_MOD` with the credit it brings (R380, R467). -/
def slotCounted (s : State) (e m tag : Nat) : State := tally (slotCredit s e m tag) (0xC3808 + e * 256 + m * 16) 1

/-- A module whose slots are taken: UP, its edge stand in service and not frozen (R379, R420, R483). -/
abbrev TakesSlots (s : State) (e m : Nat) : Prop :=
  (modAt s e m).state = .up ∧ girdled s (modStand e m).val = false ∧ frozenAt s (modStand e m).val = false

/-- `TCRC` of a slot's tag is right (R380). -/
abbrev TagOk (x : Slot) : Prop := sealTag (x.tag.toNat % 2 ^ 28) = x.tag

theorem slotCounted_form (s : State) (e m tag : Nat) :
    ∃ v, slotCounted s e m tag = tally { s with brg := { s.brg with vcs := v } } (0xC3808 + e * 256 + m * 16) 1 := by
  obtain ⟨v, hv⟩ := slotCredit_form s e m tag
  exact ⟨v, by rw [slotCounted, hv]⟩

/-- It leaves the routers, the collector, the dormancy and what has been sent. -/
theorem slotCounted_keeps (s : State) (e m tag : Nat) :
    (slotCounted s e m tag).mesh = s.mesh ∧ (slotCounted s e m tag).flt = s.flt ∧ (slotCounted s e m tag).dorm = s.dorm ∧
      (slotCounted s e m tag).out = s.out ∧ (slotCounted s e m tag).todo = s.todo := by
  obtain ⟨v, hv⟩ := slotCounted_form s e m tag
  rw [hv, tally_mesh, tally_flt, tally_dorm, tally_out, tally_todo]
  exact ⟨rfl, rfl, rfl, rfl, rfl⟩

@[simp] theorem slotCounted_mesh (s : State) (e m tag : Nat) : (slotCounted s e m tag).mesh = s.mesh := (slotCounted_keeps s e m tag).1

theorem slotReceive_not_up {s : State} {e m : Nat} (h : (modAt s e m).state ≠ .up) (x : Slot) : slotReceive e m x s = s := by
  simp [slotReceive, h]

section
variable {s : State} {e m : Nat} (ht : TakesSlots s e m)
include ht

theorem slotReceive_gate : ¬ ((decide ((modAt s e m).state ≠ .up) || girdled s (modStand e m).val || frozenAt s (modStand e m).val) = true) := by
  obtain ⟨hu, hg, hz⟩ := ht
  simp [hu, hg, hz]

theorem slotReceive_bad_tag {x : Slot} (hx : ¬ TagOk x) :
    slotReceive e m x s =
      edgeAudit (edgeAudit (raise (regCount s (modReg e m) 32 16 1) cBrgTag (locEdge e) m 0) e m (modPlane m 0)) e m (modPlane m 1) := by
  unfold slotReceive
  dsimp only
  rw [if_neg (slotReceive_gate ht), if_pos hx]
  rfl

theorem slotReceive_idle {x : Slot} (hx : TagOk x) (hk : x.tag.toNat % 8 = 6) :
    slotReceive e m x s = slotCredit s e m x.tag.toNat := by
  unfold slotReceive
  dsimp only
  rw [if_neg (slotReceive_gate ht), if_neg (fun h => h hx), if_neg (by omega), if_pos (by omega)]

theorem slotReceive_bad_link {x : Slot} (hx : TagOk x) (hk : x.tag.toNat % 8 = 7)
    (hc : x.tag.toNat / 2 ^ 12 % 2 ^ 16 ≠ crc16 (leBytes 64 x.payload.toNat)) :
    slotReceive e m x s =
      raise (regCount (slotCredit s e m x.tag.toNat) (modReg e m) 0 16 1) cBrgPayload (locEdge e) m 0 := by
  unfold slotReceive
  dsimp only
  rw [if_neg (slotReceive_gate ht), if_neg (fun h => h hx), if_pos ⟨hk, hc⟩]

theorem slotReceive_bad_stem {x : Slot} (hx : TagOk x) (hk : x.tag.toNat % 8 < 2 ∨ x.tag.toNat % 8 = 4)
    (hc : fld x.stem 0 8 ≠ crc8 x.stem) :
    slotReceive e m x s =
      edgeAudit (raise (regCount (slotCounted s e m x.tag.toNat) (modReg e m) 16 16 1) cBrgStem (locEdge e) m 0) e m
        (modPlane m (x.tag.toNat / 8 % 2)) := by
  unfold slotReceive
  dsimp only
  rw [if_neg (slotReceive_gate ht), if_neg (fun h => h hx), if_neg (by omega), if_neg (by omega), if_pos ⟨hk, hc⟩]
  rfl

theorem slotReceive_frond {x : Slot} (hx : TagOk x) (hk : x.tag.toNat % 8 < 2 ∨ x.tag.toNat % 8 = 4)
    (hc : fld x.stem 0 8 = crc8 x.stem) (ha : auditing s (modStand e m).val (modPlane m (x.tag.toNat / 8 % 2)).val e = false) :
    slotReceive e m x s = slotFrond (slotCounted s e m x.tag.toNat) e m (modPlane m (x.tag.toNat / 8 % 2)) x.tag.toNat x := by
  have ha' : ¬ (auditing (slotCounted s e m x.tag.toNat) (modStand e m).val (modPlane m (x.tag.toNat / 8 % 2)).val e = true) := by
    rw [auditing, slotCounted_mesh, ← auditing, ha]
    exact Bool.false_ne_true
  unfold slotReceive
  dsimp only
  rw [if_neg (slotReceive_gate ht), if_neg (fun h => h hx), if_neg (by omega), if_neg (by omega), if_neg (fun h => h.2 hc)]
  exact if_neg ha'

end

/-! ### A frond that starts a message -/

/-- The frond that a slot with a stem carries in: the stem in this die's parity (R106, R380). -/
def slotStart (s : State) (st : StandId) (x : Slot) : Frond :=
  { stem := arriveStem s st x.stem, payload := x.payload, pcheck := BitVec.ofNat 16 (x.tag.toNat / 2 ^ 12 % 2 ^ 16) }

/-- The frond is received: it counts at its VC and as injected, and the edge keeps its message's LENGTH (R88, R108, R381). -/
def startTaken (s : State) (e m : Nat) (pl : PlaneId) (x : Slot) : State :=
  let st := modStand e m
  let vc := stVc x.stem
  let v := inVc s st.val pl.val e vc
  let s := countInj (setInVc s st.val pl.val e vc { v with recv := (v.recv + 1) % 16 }) (stEpoch (arriveStem s st x.stem)) st.val pl.val 1
  setEdgeVc s e (m / 2) pl.val vc { edgeVc s e (m / 2) pl.val vc with len := fld (header (slotStart s st x)) 28 13 }

theorem wakeRequest_service {s : State} (h : s.dorm.phase = .service) (w : Voter) : wakeRequest s w = s := by
  simp [wakeRequest, h]

/-- A whole frond that starts a message, with room in its VC, is received and goes its message's way (R380 to R382). -/
theorem slotFrond_start {s : State} {e m : Nat} {pl : PlaneId} {x : Slot} (hk : x.tag.toNat % 8 < 2 ∨ x.tag.toNat % 8 = 4)
    (hroom : ((inVc s (modStand e m).val pl.val e (stVc x.stem)).q.filter (fun h => !h.own)).length < 32)
    (hd : s.dorm.phase = .service) (hp : pcheckOk (slotStart s (modStand e m) x) = true)
    (hr : reservedStem (slotStart s (modStand e m) x) = false) (hs : startsMsg (slotStart s (modStand e m) x).stem = true) :
    slotFrond s e m pl x.tag.toNat x =
      arriveStart (startTaken s e m pl x) (modStand e m) pl (portOf e) (slotStart s (modStand e m) x) := by
  have hab := isAbort_of_startsMsg hs
  unfold slotStart at hp hr hs hab
  unfold slotFrond
  simp only [if_pos hk]
  rw [if_neg (by omega)]
  have harr (y : InVc) : arriveStem (setInVc s (modStand e m).val pl.val e (stVc x.stem) y) (modStand e m) x.stem =
    arriveStem s (modStand e m) x.stem := rfl
  simp only [harr, hab, hp, hr, hs, Bool.false_eq_true, if_false, Bool.not_true]
  rw [wakeRequest_service (by exact hd)]
  rfl

@[simp] theorem stVc_slotStart (s : State) (st : StandId) (x : Slot) : stVc (slotStart s st x).stem = stVc x.stem := by
  simp only [slotStart, stVc_arriveStem]

theorem slotStart_alike {s t : State} (h : RoutesAlike s t) (st : StandId) (x : Slot) : slotStart t st x = slotStart s st x := by
  simp only [slotStart, arriveStem, standParity_alike h]

theorem startTaken_alike (s : State) (e m : Nat) (pl : PlaneId) (x : Slot) : RoutesAlike s (startTaken s e m pl x) where
  regs _ _ := rfl
  banked := rfl
  map := rfl
  trans := rfl
  mods := rfl
  phase := rfl
  taken := rfl
  epoch := rfl

theorem slotCounted_alike (s : State) (e m tag : Nat) : RoutesAlike s (slotCounted s e m tag) := by
  obtain ⟨v, hv⟩ := slotCounted_form s e m tag
  rw [hv]
  exact
    { regs := fun off ho => regGet_tally_other (by omega) 1
      banked := by simp
      map := by simp
      trans := by simp
      mods := by simp
      phase := by simp
      taken := by simp
      epoch := by simp }

theorem dormHeld_service {s : State} (h : s.dorm.phase = .service) : dormHeld s = false := by simp [dormHeld, h]

/-- A frond that starts a message, with a target here and a way on, joins its VC's queue with that target (R96, R97, R382). -/
theorem arriveStart_goes {s : State} {st : StandId} {pl : PlaneId} {inp : Fin 6} {f : Frond} {p : BitVec 6} {q : BitVec 2} {o : Fin 6}
    (hd : dormHeld s = false) (ht : targetOf s st (headMsg pl f) = .ok (p, q)) (hj : joinsRhizome s (headMsg pl f) = false)
    (hr : routeOf s st pl.val inp.val (retarget f p q) = .goes o) :
    ∃ op since, arriveStart s st pl inp f = setInVc s st.val pl.val inp.val (stVc f.stem)
      { inVc s st.val pl.val inp.val (stVc f.stem) with
        q := (inVc s st.val pl.val inp.val (stVc f.stem)).q ++ [⟨retarget f p q, o, false⟩], skip := false, opened := op, since := since } := by
  have ha : arriveStart s st pl inp f = acceptStart s st pl inp (retarget f p q) := by simp [arriveStart, hd, ht, hj]
  unfold acceptStart at ha
  simp only [hr, retarget_stem] at ha
  exact ⟨_, _, ha⟩

/-- One that goes on by the rhizome is taken out of the planes at its arrival stand (R32, R382). -/
theorem arriveStart_joins {s : State} {st : StandId} {pl : PlaneId} {inp : Fin 6} {f : Frond} {p : BitVec 6} {q : BitVec 2}
    (hd : dormHeld s = false) (ht : targetOf s st (headMsg pl f) = .ok (p, q)) (hj : joinsRhizome s (headMsg pl f) = true)
    (hg : girdled s p.toNat = false) :
    arriveStart s st pl inp f = emit (takenHere s st pl inp f) (.msg st unitHub (headMsg pl f)) := by
  simp [arriveStart, hd, ht, hj, hg]

/-- Taking a frond out of the planes changes a drain count and what has been sent. -/
theorem takenHere_form (s : State) (st : StandId) (pl : PlaneId) (inp : Fin 6) (f : Frond) :
    ∃ o j, takenHere s st pl inp f = { s with out := o, epoch := { s.epoch with ej := j } } := by
  obtain ⟨o, ho⟩ := giveCredit_form s st pl inp (stVc f.stem)
  obtain ⟨j, hj⟩ := countOut_form (giveCredit s st pl inp (stVc f.stem)) st pl f
  exact ⟨o, j, by rw [takenHere, hj, ho]⟩

@[simp] theorem inVc_startTaken (s : State) (e m : Nat) (pl : PlaneId) (x : Slot) :
    inVc (startTaken s e m pl x) (modStand e m).val pl.val e (stVc x.stem) =
      { inVc s (modStand e m).val pl.val e (stVc x.stem) with
        recv := ((inVc s (modStand e m).val pl.val e (stVc x.stem)).recv + 1) % 16 } := inVc_setInVc_same _ _ _ _ _ _

/-- A slot with a right tag brings a whole frond that starts a message on a plane that carries transfers, with room in its VC, while the
die is awake (R72, R79, R380 to R383). -/
structure StartArrives (s : State) (e m : Nat) (pl : PlaneId) (x : Slot) : Prop where
  tag      : TagOk x
  kind     : x.tag.toNat % 8 < 2 ∨ x.tag.toNat % 8 = 4
  plane    : modPlane m (x.tag.toNat / 8 % 2) = pl
  audit    : auditing s (modStand e m).val pl.val e = false
  stem     : fld x.stem 0 8 = crc8 x.stem
  room     : ((inVc s (modStand e m).val pl.val e (stVc x.stem)).q.filter (fun h => !h.own)).length < 32
  awake    : s.dorm.phase = .service
  payload  : pcheckOk (slotStart s (modStand e m) x) = true
  reserved : reservedStem (slotStart s (modStand e m) x) = false
  starts   : startsMsg (slotStart s (modStand e m) x).stem = true

/-- It is received, and its message goes on in a state `t` in which every message goes as in `s`. -/
theorem slotReceive_start {s : State} {e : Fin 4} {m : Fin 16} {pl : PlaneId} {x : Slot} (ht : TakesSlots s e.val m.val)
    (hx : StartArrives s e.val m.val pl x) :
    ∃ t, slotReceive e.val m.val x s = arriveStart t (modStand e.val m.val) pl (portOf e.val) (slotStart s (modStand e.val m.val) x) ∧
      RoutesAlike s t ∧ t.flt = s.flt ∧ t.dorm = s.dorm ∧ t.out = s.out ∧ t.todo = s.todo ∧
      inVc t (modStand e.val m.val).val pl.val e.val (stVc x.stem) =
        { inVc s (modStand e.val m.val).val pl.val e.val (stVc x.stem) with
          recv := ((inVc s (modStand e.val m.val).val pl.val e.val (stVc x.stem)).recv + 1) % 16 } := by
  obtain ⟨htag, hk, rfl, ha, hc, hroom, hd, hpc, hr, hs⟩ := hx
  obtain ⟨hmesh, hflt, hdorm, hout, htodo⟩ := slotCounted_keeps s e.val m.val x.tag.toNat
  have hal := slotCounted_alike s e.val m.val x.tag.toNat
  have hin (pl vc : Nat) : inVc (slotCounted s e.val m.val x.tag.toNat) (modStand e.val m.val).val pl e.val vc =
      inVc s (modStand e.val m.val).val pl e.val vc := by rw [inVc, hmesh, ← inVc]
  have hst := slotStart_alike hal (modStand e.val m.val) x
  rw [← hst] at hpc hr hs
  rw [← hin] at hroom
  rw [← hdorm] at hd
  have h := slotReceive_frond ht htag hk hc ha
  rw [slotFrond_start hk hroom hd hpc hr hs, hst] at h
  refine ⟨_, h, hal.comp (startTaken_alike _ _ _ _ _), hflt, hdorm, hout, htodo, ?_⟩
  rw [inVc_startTaken, hin]

/-! ### The commands -/

theorem exec_bridgeSlotReceive {s : State} (hu : Up s) {e : Fin 4} {m : Fin 16} {x : Slot} (ht : (slotReceive e.val m.val x s).todo = []) :
    exec (.bridgeSlotReceive e m x) s = .next (keep s (slotReceive e.val m.val x s)) := by
  have h := run_up s (fun s => settle (slotReceive e.val m.val x s)) hu.1
  rw [settle_nil _ ht] at h
  exact h

theorem exec_bridgeAuditReceive {s : State} (hu : Up s) (e : Fin 4) (m : Fin 16) (l : List Byte) :
    exec (.bridgeAuditReceive e m l) s = .next (keep s (bridgeAudit e.val m.val l s)) := run_up s _ hu.1

/-- A slot that comes to `t`, with nothing to report, leaves the block in what the frame of the step makes of `t`. -/
theorem next_bridgeSlotReceive {s t : State} (hu : Up s) {e : Fin 4} {m : Fin 16} {x : Slot} {P : State → Prop}
    (h : slotReceive e.val m.val x s = t) (ht : t.todo = []) (hP : P (keep s t)) : Next (.bridgeSlotReceive e m x) s P :=
  ⟨keep s t, h ▸ exec_bridgeSlotReceive hu (h ▸ ht), hP⟩

theorem next_bridgeAuditReceive {s t : State} (hu : Up s) {e : Fin 4} {m : Fin 16} {l : List Byte} {P : State → Prop}
    (h : bridgeAudit e.val m.val l s = t) (hP : P (keep s t)) : Next (.bridgeAuditReceive e m l) s P :=
  ⟨keep s t, h ▸ exec_bridgeAuditReceive hu e m l, hP⟩

/-! ### Slots -/

section
variable {s : State} {e : Fin 4} {m : Fin 16} (hu : Up s)
include hu

theorem bridgeSlot_not_up (hn : (modAt s e.val m.val).state ≠ .up) (x : Slot) :
    Next (.bridgeSlotReceive e m x) s (fun t => body t = body s) :=
  next_bridgeSlotReceive hu (slotReceive_not_up hn x) hu.2 rfl

variable (ht : TakesSlots s e.val m.val)
include ht

/-- A tag that fails its check audits both planes of the module (R380, R383). -/
theorem bridgeSlot_bad_tag {x : Slot} (hx : ¬ TagOk x)
    (ha0 : auditing s (modStand e.val m.val).val (modPlane m.val 0).val e.val = false)
    (ha1 : auditing s (modStand e.val m.val).val (modPlane m.val 1).val e.val = false) :
    Next (.bridgeSlotReceive e m x) s (fun t =>
      auditing t (modStand e.val m.val).val (modPlane m.val 0).val e.val = true ∧
      auditing t (modStand e.val m.val).val (modPlane m.val 1).val e.val = true ∧
      t.mesh.inv = s.mesh.inv ∧ t.brg = s.brg ∧ t.flt.inbox.length = s.flt.inbox.length + 1 ∧
      regFld t (modReg e.val m.val) 32 16 = satAdd 16 (regFld s (modReg e.val m.val) 32 16) 1 ∧
      (fatalLatched s = false → frozenAt s (edgeStand e.val (m.val / 2)) = false → t.out =
        .slot e m (linkSlot (auditBytes s e.val m.val (modPlane m.val 1))) ::
          .slot e m (linkSlot (auditBytes s e.val m.val (modPlane m.val 0))) :: s.out)) := by
  let s1 := raise (regCount s (modReg e.val m.val) 32 16 1) cBrgTag (locEdge e.val) m.val 0
  have h0 : AuditStarted s1 _ e m (modPlane m.val 0) := edgeAudit_starts ha0
  have h1 : AuditStarted _ _ e m (modPlane m.val 1) := edgeAudit_starts ((h0.others _ (modPlane_ne _)).trans ha1)
  refine next_bridgeSlotReceive hu (slotReceive_bad_tag ht hx) (h1.todo.trans (h0.todo.trans hu.2))
    ⟨(h1.others _ (modPlane_ne _).symm).trans h0.runs, h1.runs, h1.inv.trans h0.inv, h1.brg.trans h0.brg, ?_, ?_, fun hf hz => ?_⟩
  · rw [keep_flt, h1.flt, h0.flt]
    exact List.length_append
  · have hr : regFld s1 (modReg e.val m.val) 32 16 = satAdd 16 (regFld s (modReg e.val m.val) 32 16) 1 :=
      regFld_regCount (by decide) s _ 1
    rw [← hr, regFld, regFld, regGet, keep_regs, h1.regs, h0.regs, ← regGet]
  · have hout := h1.asks (by rw [fatalLatched, h0.flt]; exact hf) (by rw [frozenAt, h0.obs]; exact hz)
    rw [keep_out, hout, auditBytes_brg h0.brg, h0.asks hf hz]
    rfl

/-- An IDLE slot with CRV returns a credit of at most 32 (R380, R382). -/
theorem bridgeSlot_idle_credit {x : Slot} {pl : PlaneId} (hx : TagOk x) (hk : x.tag.toNat % 8 = 6) (hc : x.tag.toNat.testBit 7 = true)
    (hp : modPlane m.val (x.tag.toNat / 2 ^ 8 % 2) = pl) :
    Next (.bridgeSlotReceive e m x) s (fun t => t.mesh = s.mesh ∧ t.flt = s.flt ∧ t.out = s.out ∧
      edgeVc t e.val (m.val / 2) pl.val (x.tag.toNat / 2 ^ 9 % 8) =
        { edgeVc s e.val (m.val / 2) pl.val (x.tag.toNat / 2 ^ 9 % 8) with
          credits := min 32 ((edgeVc s e.val (m.val / 2) pl.val (x.tag.toNat / 2 ^ 9 % 8)).credits + 1) }) := by
  have h := (slotReceive_idle ht hx hk).trans (slotCredit_given hc e.val m.val)
  rw [hp] at h
  exact next_bridgeSlotReceive hu h hu.2 ⟨rfl, rfl, rfl, edgeVc_setEdgeVc_same _ _ _ _ _ _⟩

/-- A LINK slot whose payload fails its CRC counts and raises an event (R380). -/
theorem bridgeSlot_bad_link {x : Slot} (hx : TagOk x) (hk : x.tag.toNat % 8 = 7) (hn : x.tag.toNat.testBit 7 = false)
    (hc : x.tag.toNat / 2 ^ 12 % 2 ^ 16 ≠ crc16 (leBytes 64 x.payload.toNat)) :
    Next (.bridgeSlotReceive e m x) s (fun t => t.mesh = s.mesh ∧ t.brg = s.brg ∧ t.out = s.out ∧
      t.flt.inbox.length = s.flt.inbox.length + 1 ∧
      regFld t (modReg e.val m.val) 0 16 = satAdd 16 (regFld s (modReg e.val m.val) 0 16) 1) := by
  have h := slotReceive_bad_link ht hx hk hc
  rw [slotCredit_none hn] at h
  exact next_bridgeSlotReceive hu h hu.2 ⟨rfl, rfl, rfl, List.length_append, regFld_regCount (by decide) s _ 1⟩

/-- A stem that fails CHECK audits its plane (R380, R383). -/
theorem bridgeSlot_bad_stem {x : Slot} {pl : PlaneId} (hx : TagOk x) (hk : x.tag.toNat % 8 < 2 ∨ x.tag.toNat % 8 = 4)
    (hp : modPlane m.val (x.tag.toNat / 8 % 2) = pl) (ha : auditing s (modStand e.val m.val).val pl.val e.val = false)
    (hc : fld x.stem 0 8 ≠ crc8 x.stem) :
    Next (.bridgeSlotReceive e m x) s (fun t => auditing t (modStand e.val m.val).val pl.val e.val = true ∧ t.mesh.inv = s.mesh.inv ∧
      t.flt.inbox.length = s.flt.inbox.length + 1 ∧
      regFld t (modReg e.val m.val) 16 16 = satAdd 16 (regFld s (modReg e.val m.val) 16 16) 1) := by
  let s1 := slotCounted s e.val m.val x.tag.toNat
  let s2 := raise (regCount s1 (modReg e.val m.val) 16 16 1) cBrgStem (locEdge e.val) m.val 0
  obtain ⟨hm, hf, -, -, hd⟩ := slotCounted_keeps s e.val m.val x.tag.toNat
  have hmesh : s2.mesh = s.mesh := hm
  have hreg : regFld s1 (modReg e.val m.val) 16 16 = regFld s (modReg e.val m.val) 16 16 :=
    regFld_alike (slotCounted_alike s e.val m.val _) (modReg_lt e m) 16 16
  have h := slotReceive_bad_stem ht hx hk hc
  rw [hp] at h
  have h1 : AuditStarted s2 _ e m pl := edgeAudit_starts (by rw [auditing, hmesh]; exact ha)
  refine next_bridgeSlotReceive hu h (h1.todo.trans (hd.trans hu.2)) ⟨h1.runs, h1.inv.trans (congrArg _ hmesh), ?_, ?_⟩
  · rw [keep_flt, h1.flt, ← hf]
    exact List.length_append
  · rw [← hreg, ← regFld_regCount (by decide) s1 _ 1, regFld, regFld, regGet, keep_regs, h1.regs]
    rfl

section
variable {x : Slot} {pl : PlaneId} {p : BitVec 6} {q : BitVec 2} (hx : StartArrives s e.val m.val pl x)
  (htg : targetOf s (modStand e.val m.val) (headMsg pl (slotStart s (modStand e.val m.val) x)) = .ok (p, q))
include hx htg

/-- It joins its VC's queue with its target and its route (R96, R106, R382). -/
theorem bridgeSlot_start_goes {o : Fin 6} (hj : joinsRhizome s (headMsg pl (slotStart s (modStand e.val m.val) x)) = false)
    (hro : routeOf s (modStand e.val m.val) pl.val e.val (retarget (slotStart s (modStand e.val m.val) x) p q) = .goes o) :
    Next (.bridgeSlotReceive e m x) s (fun t =>
      (inVc t (modStand e.val m.val).val pl.val e.val (stVc x.stem)).q =
        (inVc s (modStand e.val m.val).val pl.val e.val (stVc x.stem)).q ++
          [⟨retarget (slotStart s (modStand e.val m.val) x) p q, o, false⟩] ∧
      (inVc t (modStand e.val m.val).val pl.val e.val (stVc x.stem)).recv =
        ((inVc s (modStand e.val m.val).val pl.val e.val (stVc x.stem)).recv + 1) % 16 ∧
      (inVc t (modStand e.val m.val).val pl.val e.val (stVc x.stem)).skip = false ∧ t.flt = s.flt ∧ t.out = s.out) := by
  obtain ⟨t, h, hal, hflt, hdorm, hout, htodo, hin⟩ := slotReceive_start ht hx
  have hd := dormHeld_service (hdorm ▸ hx.awake)
  rw [← targetOf_alike hal] at htg
  rw [← joinsRhizome_alike hal] at hj
  rw [← routeOf_alike hal] at hro
  obtain ⟨op, since, hg⟩ := arriveStart_goes (inp := portOf e.val) hd htg hj (by rw [portOf_edge]; exact hro)
  rw [stVc_slotStart, portOf_edge, hin] at hg
  refine next_bridgeSlotReceive hu (h.trans hg) (by rw [setInVc_todo, htodo]; exact hu.2) ?_
  rw [inVc_keep, inVc_setInVc_same]
  exact ⟨rfl, rfl, rfl, hflt, hout⟩

/-- One for this die that goes on by the rhizome leaves the queue as it is (R32, R382). -/
theorem bridgeSlot_start_joins (hj : joinsRhizome s (headMsg pl (slotStart s (modStand e.val m.val) x)) = true)
    (hg : girdled s p.toNat = false) :
    Next (.bridgeSlotReceive e m x) s (fun t =>
      t.out.head? = some (.msg (modStand e.val m.val) unitHub (headMsg pl (slotStart s (modStand e.val m.val) x))) ∧
      (inVc t (modStand e.val m.val).val pl.val e.val (stVc x.stem)).q =
        (inVc s (modStand e.val m.val).val pl.val e.val (stVc x.stem)).q ∧ t.flt = s.flt) := by
  obtain ⟨t, h, hal, hflt, hdorm, hout, htodo, hin⟩ := slotReceive_start ht hx
  have hd := dormHeld_service (hdorm ▸ hx.awake)
  rw [← targetOf_alike hal] at htg
  rw [← joinsRhizome_alike hal] at hj
  rw [← girdled_alike hal] at hg
  have hjoin := arriveStart_joins (inp := portOf e.val) hd htg hj hg
  obtain ⟨o, j, ho⟩ := takenHere_form t (modStand e.val m.val) pl (portOf e.val) (slotStart s (modStand e.val m.val) x)
  rw [ho] at hjoin
  have hq : (inVc t (modStand e.val m.val).val pl.val e.val (stVc x.stem)).q =
      (inVc s (modStand e.val m.val).val pl.val e.val (stVc x.stem)).q := by rw [hin]
  exact next_bridgeSlotReceive hu (h.trans hjoin) (htodo.trans hu.2) ⟨rfl, hq, hflt⟩

end

end

/-! ### AUDIT slots -/

/-- An AUDIT slot for a plane of a module that is UP. -/
theorem bridgeAudit_eq {s : State} {e : Fin 4} {m : Fin 16} {l : List Byte} {tpl : Fin 2} (hup : (modAt s e.val m.val).state = .up)
    (hl : byteAt l 0 = 2) (hp : leAt l 1 1 = tpl.val) :
    bridgeAudit e.val m.val l s =
      if auditing s (modStand e.val m.val).val (modPlane m.val tpl.val).val e.val then
        auditCounts (modStand e.val m.val) (modPlane m.val tpl.val) (portOf e.val) (BitVec.ofNat 32 (leAt l 2 4)) s
      else auditSend s e.val m.val (modPlane m.val tpl.val) := by
  have h2 : ¬ 2 ≤ tpl.val := by omega
  simp [bridgeAudit, hup, hl, hp, h2]

section
variable {s : State} {e : Fin 4} {m : Fin 16} (hu : Up s)
include hu

theorem bridgeAudit_other {l : List Byte} (hl : byteAt l 0 ≠ 2) : Next (.bridgeAuditReceive e m l) s (fun t => body t = body s) :=
  next_bridgeAuditReceive hu (if_pos (.inr (.inl hl))) rfl

variable {l : List Byte} {tpl : Fin 2} (hup : (modAt s e.val m.val).state = .up) (hl : byteAt l 0 = 2) (hp : leAt l 1 1 = tpl.val)
include hup hl hp

/-- Where no audit runs, the partner's does, and this die answers with its own counts (R383; log 94). -/
theorem bridgeAudit_answers (ha : auditing s (modStand e.val m.val).val (modPlane m.val tpl.val).val e.val = false) :
    Next (.bridgeAuditReceive e m l) s (fun t => t.mesh = s.mesh ∧ t.brg = s.brg ∧ t.flt = s.flt ∧
      (fatalLatched s = false → frozenAt s (edgeStand e.val (m.val / 2)) = false →
        t.out = .slot e m (linkSlot (auditBytes s e.val m.val (modPlane m.val tpl.val))) :: s.out)) := by
  obtain ⟨o, ho, hs⟩ := auditSend_form s e m (modPlane m.val tpl.val)
  have h := bridgeAudit_eq hup hl hp
  rw [ha, if_neg Bool.false_ne_true, ho] at h
  exact next_bridgeAuditReceive hu h ⟨rfl, rfl, rfl, hs⟩

variable (hz : frozenAt s (modStand e.val m.val).val = false)
  (ha : auditing s (modStand e.val m.val).val (modPlane m.val tpl.val).val e.val = true)
include hz ha

/-- The sender's counts that differ in one VC by one end the audit with the loss of that frond (R88, R89, R383). -/
theorem bridgeAudit_one {vc : Nat}
    (hd : auditDiff s (modStand e.val m.val).val (modPlane m.val tpl.val).val e.val (BitVec.ofNat 32 (leAt l 2 4)) = [(vc, 1)]) :
    Next (.bridgeAuditReceive e m l) s (fun t => auditing t (modStand e.val m.val).val (modPlane m.val tpl.val).val e.val = false ∧
      (inVc t (modStand e.val m.val).val (modPlane m.val tpl.val).val e.val vc).skip = true ∧
      (inVc t (modStand e.val m.val).val (modPlane m.val tpl.val).val e.val vc).recv =
        ((inVc s (modStand e.val m.val).val (modPlane m.val tpl.val).val e.val vc).recv + 1) % 16) := by
  have h := bridgeAudit_eq hup hl hp
  rw [if_pos ha] at h
  have hc := auditCounts_one (inp := portOf e.val) (by rw [portOf_edge]; exact ha) hz (by rw [portOf_edge]; exact hd)
  rw [portOf_edge] at hc
  exact next_bridgeAuditReceive hu h hc

/-- Counts that differ otherwise flush the input (R88, R90, R383). -/
theorem bridgeAudit_flush
    (hd : ∀ vc : Nat, auditDiff s (modStand e.val m.val).val (modPlane m.val tpl.val).val e.val (BitVec.ofNat 32 (leAt l 2 4)) ≠ [(vc, 1)]) :
    Next (.bridgeAuditReceive e m l) s (fun t => auditing t (modStand e.val m.val).val (modPlane m.val tpl.val).val e.val = false ∧
      t.out = .flushed (modStand e.val m.val) (modPlane m.val tpl.val) (portOf e.val) :: s.out ∧
      (∀ vc, vc < 8 → (inVc t (modStand e.val m.val).val (modPlane m.val tpl.val).val e.val vc).opened = none ∧
        (inVc t (modStand e.val m.val).val (modPlane m.val tpl.val).val e.val vc).recv = 0)) := by
  have h := bridgeAudit_eq hup hl hp
  rw [if_pos ha] at h
  rw [auditCounts_flush (by rw [portOf_edge]; exact ha) hz (by rw [portOf_edge]; exact hd)] at h
  have hf := flushInput_flushes s (modStand e.val m.val) (modPlane m.val tpl.val) (portOf e.val)
  rw [portOf_edge] at hf
  exact next_bridgeAuditReceive hu h hf

end

/-- Settles O43: the slots by their kind, a starting frond by its way, AUDIT slots by the counts they bring. -/
theorem bridgeSlotsAreCheckedAndTaken : Obligations.BridgeSlotsAreCheckedAndTaken := by
  intro s e m tpl hu
  refine ⟨fun x hn => bridgeSlot_not_up hu hn x, fun hup hg hz => ?_⟩
  have ht : TakesSlots s e.val m.val := ⟨hup, hg, hz⟩
  refine ⟨fun x hx ha0 ha1 => bridgeSlot_bad_tag hu ht hx ha0 ha1,
    fun x hx hk hc hp => bridgeSlot_idle_credit hu ht hx hk hc (congrArg (modPlane m.val) hp),
    fun x hx hk hn hc => bridgeSlot_bad_link hu ht hx hk hn hc, fun x hx hk hp ha => ?_,
    fun l hl hp ha => bridgeAudit_answers hu hup hl hp ha, fun l hl hp ha => ?_, fun l hl => bridgeAudit_other hu hl⟩
  · have hp := congrArg (modPlane m.val) hp
    refine ⟨bridgeSlot_bad_stem hu ht hx hk hp ha, ?_, ?_⟩
    · rintro f p q o hc rfl hroom hd hpc hr hs htg hj hro
      exact bridgeSlot_start_goes hu ht ⟨hx, hk, hp, ha, hc, hroom, hd, hpc, hr, hs⟩ htg hj hro
    · rintro f p q hc rfl hroom hd hpc hr hs htg hj hg
      exact bridgeSlot_start_joins hu ht ⟨hx, hk, hp, ha, hc, hroom, hd, hpc, hr, hs⟩ htg hj hg
  · exact ⟨fun vc hd => bridgeAudit_one hu hup hl hp hz ha hd, fun hd => bridgeAudit_flush hu hup hl hp hz ha hd⟩

end Sys2Proof.Machine
end
